-- ==== Sys2Proof/Word.lean ====
section
/-! DEFINITION. Sys2Proof/Word.lean: the word types of the hub core and the sparse table type that holds
every replicated register, counter, queue entry or cache line (absent keys read a stated reset value). -/
namespace Sys2Proof

/-- One byte. -/
abbrev Byte := BitVec 8
/-- A string of bytes, byte 0 first (R9). -/
abbrev Bytes := List Byte
/-- One 128-byte line, byte 0 in [7:0] (R41). -/
abbrev Line := BitVec 1024
/-- One 16-byte unit of a frame (R245), byte 0 in [7:0]. -/
abbrev Unit16 := BitVec 128
/-- A sparse table: (key, value) pairs with strictly rising keys; a key that is not listed reads the
reset value of that table. -/
abbrev Tbl (α : Type) := List (Nat × α)

/-- Completion codes (Table 15.8, R385). -/
inductive Code where
  | ok | wrongState | staleObject | access | integrity | poison | timeout | squashed | resource
  | format | counterEnd | aborted
  deriving DecidableEq, Repr, Inhabited

/-- Roles of a dictionary session (R450); `none` is a session without a role. -/
inductive Role where
  | none | maker | installer | operator
  deriving DecidableEq, Repr, Inhabited

/-- Life-cycle states (R434). -/
inductive Life where
  | blank | test | production | endOfLife
  deriving DecidableEq, Repr, Inhabited

end Sys2Proof
end

