-- ==== Sys2Proof/Syntax.lean ====
section
/-! DEFINITION. Sys2Proof/Syntax.lean: the commands the block takes from outside, one constructor per row of
spec/opcode_table.json, with the operands each row carries. A row is an operation of a port, a message, a
register write or the expiry of a bound. -/
namespace Sys2Proof

/-- Who sends a dictionary request: the management session it travels in (`none`: unsecured, R448), and the TAG
returned in the response (R454). -/
structure Mgmt where
  session : Option Nat
  tag : Nat
  deriving DecidableEq, Repr, Inhabited

/-- The ports that have a physical reset of their own (R65). -/
inductive ResetPort where
  | chiplet | host | link
  deriving DecidableEq, Repr

/-- The two kinds of port that carry sealed frames with sequences: a Spaek link or a chiplet port. -/
inductive FramePort where
  | link (l : Nat)
  | chip (c : Nat)
  deriving DecidableEq, Repr

/-- The causes of an exit to S0 (R72). -/
inductive WakeCause where
  | hostTlp | plValid | linkWake | pwWake | dictionary | alarm | resetRequest
  deriving DecidableEq, Repr

/-- The sensor inputs of Table 2.12 (R52). -/
inductive Sensor where
  | voltLo | voltHi | clkGlitch | tempHi | tempLo | mesh
  deriving DecidableEq, Repr

/-- What raises an alarm event: a sensor at a recognised level, a sensor that has left it, or the oldest internal
event waiting (an integrity event, a lockout or the stopped DRBGs). -/
inductive AlarmInput where
  | sensorActive (x : Sensor)
  | sensorClear (x : Sensor)
  | internal
  deriving DecidableEq, Repr

/-- What a test access port operation asks for (R54, R436, R513). -/
inductive DebugOp where
  | bypass (tdi : Bool)
  | scanChain
  | sramRead
  | traceWrite (index sub : Nat) (value : Bytes)
  | inject (record : Bytes)
  deriving DecidableEq, Repr

/-- An SPDM peer of the hub (Table 14.1). `host h slot` names the session slot, or none outside a session. -/
inductive Peer where
  | host (h : Nat) (slot : Option Nat)
  | mgmt (session : Option Nat)
  | chip (c : Nat)
  | link (l : Nat)
  deriving DecidableEq, Repr

/-- A host request TLP, after PCIe framing (R47, R314): the function it targets, what it asks for, the stream and T
bit it arrived with, and its IDE MAC; on a stream its data is ciphertext. -/
structure Tlp where
  fn : Nat
  write : Bool
  posted : Bool
  addr : Nat
  be : Nat
  data : Bytes
  stream : Option Nat
  tbit : Bool
  mac : Bytes
  malformed : Bool
  tag : Nat
  deriving DecidableEq, Repr, Inhabited

/-- The fields of a dictionary message as received (R454): the agent judges its form. -/
structure DictMsg where
  version : Nat
  reservedZero : Bool
  index : Nat
  sub : Nat
  last : Bool
  offset : Nat
  length : Nat
  data : Bytes
  deriving DecidableEq, Repr, Inhabited

/-- What an SPDM response tells the hub acting as requester (R296, R352). -/
inductive SpdmMsg where
  | versionCaps (ok : Bool)
  | certificate (rootEc rootPq : Bytes) (leaf : Bytes) (ok : Bool)
  | measurements (record : Bytes) (index2 : Bytes) (life : Nat) (sigEc sigPq : Bool)
  | keyExchangeRsp (exchange : Bytes) (ok mutAuth : Bool)
  | finishRsp (ok : Bool)
  | keyUpdateAck
  | encapKeyUpdate
  | error
  deriving DecidableEq, Repr

/-- The data registers that a command of the general cipher engine writes before GO (Table 13.12): GCE_DIN, and GCE_CTR for CTR_ENC or
GCE_Y for GHASH where it writes that register too. -/
structure GceIn where
  din : Bytes
  reg : Option Bytes := none
  deriving DecidableEq, Repr, Inhabited

/-- Who rings a doorbell (R375): a function of a host port, or a chiplet port. -/
inductive Ringer where
  | host (h fn : Nat)
  | chip (c : Nat)
  deriving DecidableEq, Repr

/-- The commands of the block, one constructor per row of spec/opcode_table.json. -/
inductive Instr where
  -- resets, power, regulation, alarms (chapters 3, 17, 20, 21)
  | powerOnReset (entropy : Option Bytes) (image : Option Bytes)
  | blockReset (entropy : Option Bytes)
  | portPhysicalReset (k : ResetPort) (i : Nat)
  | portResetRelease (k : ResetPort) (i : Nat)
  | functionLevelReset (h fn : Nat)
  | powerStateEntry
  | wakeEvent (w : WakeCause)
  | exitComplete
  | regulationWindow (derate ltr : List Nat)
  | alarmEvent (a : AlarmInput)
  | alarmWindow
  | releaseFencedPartition (m : Mgmt) (p : Nat)
  | debugPortAccess (op : DebugOp)
  -- memory ports (chapters 8, 9)
  | lineRequestIssue (port lane : Nat)
  | lineResponse (port lane tag status : Nat) (data : Bytes)
  | lineBoundExpiry (port lane tag : Nat)
  | controllerUp (port : Nat)
  | controllerDown (port : Nat)
  | orderPointTake (port line : Nat)
  | moveReadRetry (port line : Nat)
  | writeBack (port addr : Nat)
  | writeBackRetry (port addr : Nat)
  | counterLineRetry (port line : Nat)
  | format (m : Mgmt) (port value : Nat)
  | formatComplete (port : Nat)
  | regionCreate (m : Mgmt) (port region : Nat) (record : Bytes)
  | regionInitComplete (port : Nat)
  | regionRemove (m : Mgmt) (port region : Nat) (record : Bytes)
  | regionRemovalDone (port region : Nat)
  | regionScrub (m : Mgmt) (port region : Nat)
  | scrubComplete (port : Nat)
  | sweepQueue (m : Mgmt) (port region : Nat)
  | automaticInterval (port : Nat)
  | sweepStart (port : Nat)
  | readAhead (port : Nat)
  | readAheadRetry (port line : Nat)
  | edgeStep (port : Nat)
  | sweepComplete (port : Nat)
  -- Spaek links (chapter 10)
  | pcsUp (l : Nat)
  | pcsDown (l : Nat) (laneFault : Bool)
  | hello (l : Nat)
  | helloTimer (l : Nat)
  | linkAttestationStart (l : Nat)
  | frameReceived (l : Nat) (beats : Bytes) (fecErr : Bool)
  | plainFrame (l : Nat) (beats : Bytes)
  | nak (p : FramePort)
  | nakHoldoffExpiry (p : FramePort)
  | frameTransmit (l : Nat)
  | keepalive (p : FramePort)
  | silenceTimeout (l : Nat)
  | keyUpdateStart (p : FramePort) (m : Option Mgmt)
  | keyUpdateComplete (p : FramePort)
  | linkBoundExpiry (l : Nat)
  | attestationHoldoff (l : Nat)
  | linkIdle (l : Nat)
  | linkIdleAck (l : Nat)
  | wakeFrame (l : Nat)
  | wakeRepeat (l : Nat)
  | wakeUnanswered (l : Nat)
  | routeCommit (m : Mgmt) (value : Nat)
  | routeHoldExpiry
  | levelWrite (m : Mgmt) (value : Nat)
  | linkDisable (m : Mgmt) (l value : Nat)
  | domainAbort (l : Nat)
  -- fabric messages and combining (chapters 7, 11)
  | read (p : FramePort)
  | write (p : FramePort)
  | writePartial (p : FramePort)
  | atomic (p : FramePort)
  | invalidateMessage (l : Nat)
  | readData (l : Nat)
  | completion (l : Nat)
  | atomicData (l : Nat)
  | chunkAck (l : Nat)
  | chunk (p : FramePort)
  | earlyArrivalExpiry (i : Nat)
  | slotIdleExpiry (slot : Nat)
  | combiningWindowExpiry (e : Nat)
  | combinedDeparture (e : Nat)
  | fabricTimeout (otag : Nat)
  | otagRelease (otag : Nat)
  -- queues, objects, contexts (chapter 15)
  | ctxFaultClear (h fn ctx : Nat) (w1c : Bool)
  | doorbell (r : Ringer) (q be value : Nat)
  | queueRead (h fn ctx : Nat)
  | queueEnable (h fn ctx : Nat)
  | queueDisable (h fn ctx : Nat)
  | queueDisabled (q : Nat)
  | descriptorAccept (q : Nat)
  | commandStart (q : Nat)
  | nop (cmd : Nat)
  | fenceBase (cmd : Nat)
  | ctxReset (cmd : Nat)
  | objCreate (cmd : Nat)
  | objFree (cmd : Nat)
  | freeQuiescence (cmd : Nat)
  | fenceSignal (q : Nat)
  | fenceReread (q : Nat)
  | fencePoll (q : Nat)
  | contextCreate (m : Mgmt) (ctx : Nat) (record : Bytes)
  | contextUpdate (m : Mgmt) (ctx : Nat) (record : Bytes)
  | contextReset (ctx : Nat)
  | contextResetDone (ctx : Nat)
  | contextDestroy (m : Mgmt) (ctx : Nat) (record : Bytes)
  | partitionReset (p : Nat)
  | partitionResetDone (p : Nat)
  -- engines (chapters 5, 6, 7)
  | attentionStep (cmd : Nat)
  | sliceBoundary (au : Nat)
  | shardMerge (cmd : Nat)
  | kvAppend (cmd : Nat)
  | sample (cmd : Nat)
  | samplerDispatch (sampler : Nat)
  | bridgeStream (cmd : Nat)
  | bridgeLaneService (c : Nat)
  | reduce (cmd : Nat)
  | merge (cmd : Nat)
  | invalidateCommand (cmd : Nat)
  -- translation and partitions (chapters 16, 17)
  | translationRecordWrite (m : Mgmt) (p : Nat) (record : Bytes)
  | tableZeroingDone (p : Nat)
  | map (m : Mgmt) (record : Bytes)
  | unmap (m : Mgmt) (record : Bytes)
  | mapDone
  | walk
  | walkComplete (p page : Nat)
  | partitionCreate (m : Mgmt) (p : Nat) (record : Bytes)
  | partitionResize (m : Mgmt) (p : Nat) (record : Bytes)
  | resizeComplete (p : Nat)
  | partitionRemove (m : Mgmt) (p : Nat) (record : Bytes)
  | removalComplete (p : Nat)
  | guaranteeWrite (m : Mgmt) (index p value : Nat)
  -- key store and general cipher engine (chapter 13)
  | createDerived (slot kind parent nonce gen : Nat)
  | createSeed (slot kind parent nonce gen : Nat) (seed : Bytes)
  | setNext (slot : Nat) (seed : Bytes)
  | advance (slot : Nat)
  | invalidate (slot : Nat)
  | retire (slot : Nat)
  | setUse (slot use : Nat)
  | readDir (slot : Nat)
  | kspStatusClear (bits : Nat)
  | scrubberVisit
  | masterReseed
  | childReseed (child : Nat)
  | drbgStop
  | randomRead (m : Mgmt) (offset length : Nat)
  | gceKeysel (leaf : Nat)
  | enc (din : Bytes)
  | dec (din : Bytes)
  | ctrEnc (din : GceIn) (wide : Bool)
  | ghash (din : GceIn)
  | loadH
  | shaInit
  | shaBlock (blk : Bytes)
  | drbg
  | shaClear
  | gceStatusClear (bits : Nat)
  -- SPDM (chapter 14)
  | getVersion (p : Peer)
  | getCapabilities (p : Peer)
  | negotiateAlgorithms (p : Peer) (supported : Bool)
  | getCertificate (p : Peer) (slot offset length : Nat)
  | challenge (p : Peer) (slot : Nat) (nonce : Bytes)
  | getMeasurements (p : Peer) (index : Nat) (signed : Bool) (nonce : Bytes)
  | keyExchange (p : Peer) (exchange : Bytes)
  | finish (p : Peer) (verified : Bool)
  | heartbeat (p : Peer)
  | keyUpdate (p : Peer)
  | endSession (p : Peer)
  | getPqSignature (p : Peer)
  | getPqChain (p : Peer) (offset length : Nat)
  -- chiplet ports (chapter 12)
  | chipletActive (c modules : Nat)
  | moduleLeavesActive (c : Nat)
  | chipletAdmissionStart (c : Nat)
  | admission (c : Nat) (declaration : Bytes)
  | admissionBoundExpiry (c : Nat)
  | refusalHoldoffExpiry (c : Nat)
  | partitionBind (m : Mgmt) (c p : Nat)
  | formatPermitWrite (m : Mgmt) (index sub value : Nat)
  | chipletFrame (c : Nat) (beats : Bytes)
  | chipletFrameTransmit (c : Nat)
  | standbyAck (c : Nat)
  | standbyAckTimeout (c : Nat)
  | standbyRetry (c : Nat)
  | chipletWakeFrame (c : Nat)
  | chipletWakeTimeout (c : Nat)
  -- host ports (chapter 12)
  | hostTlp (h : Nat) (t : Tlp)
  | hpCfgAccess (h fn addr : Nat) (write : Bool) (wdata be : Nat)
  | keyProg (h slot stream sub keySet : Nat) (rx : Bool) (key : Bytes)
  | kSetGo (h slot stream keySet : Nat)
  | kSetStop (h slot stream : Nat)
  | query (h slot : Nat)
  | lockInterface (h slot tdi : Nat)
  | getDeviceInterfaceReport (h slot tdi : Nat)
  | startInterface (h slot tdi : Nat)
  | stopInterface (h slot tdi : Nat)
  | getDeviceInterfaceState (h slot tdi : Nat)
  | getTdispVersion (h slot tdi : Nat)
  | getTdispCapabilities (h slot tdi : Nat)
  | tdiRecordWrite (m : Mgmt) (index sub : Nat) (record : Bytes)
  -- firmware and identity (chapter 14)
  | imageBlock (m : Mgmt) (data : Bytes)
  | stage (m : Mgmt)
  | commit (m : Mgmt)
  | commitDone
  | discard (m : Mgmt)
  | certificateChainWrite (m : Mgmt) (pq : Bool) (chain : Bytes)
  -- life cycle and debug (chapter 18)
  | generateSecret (m : Mgmt) (value : Nat)
  | serialWrite (m : Mgmt) (serial : Nat)
  | debugKeyDigestWrite (m : Mgmt) (digest : Bytes)
  | targetState (m : Mgmt) (code : Nat)
  | confirmation (m : Mgmt) (serialLow : Nat)
  | confirmationTimeout
  | debugChallenge (m : Mgmt)
  | submit (m : Mgmt)
  | openInTest (m : Mgmt)
  | closeByBlockReset (m : Mgmt)
  | clearing
  | clearingDone
  -- dictionary, roles, audit (chapter 19)
  | dictionaryRead (m : Mgmt) (d : DictMsg)
  | dictionaryWrite (m : Mgmt) (d : DictMsg)
  | describe (m : Mgmt) (d : DictMsg)
  | roleChallenge (m : Mgmt) (role : Nat)
  | roleLogin (m : Mgmt) (role offset : Nat) (last : Bool) (data : Bytes)
  | roleLogout (m : Mgmt)
  | auditRead (m : Mgmt) (first count : Nat)
  | notice (m : Mgmt)
  | auditCheckpoint (m : Mgmt) (offset length : Nat)
  | loginHoldoffExpiry
  -- faults and recovery (chapter 20)
  | vigilScan
  | blockFault (err : Nat)
  | snapshotTimeout
  | abortWaitExpiry
  | holdExpiry
  | jobAbort (m : Mgmt) (p : Nat)
  | blockFaultCommand (m : Mgmt) (value : Nat)
  -- injection, harvest, trace (chapters 21, 22)
  | injectionArm (m : Mgmt) (record : Bytes)
  | harvestSample
  | harvestListWrite (m : Mgmt) (sub value : Nat)
  | harvestSelect (m : Mgmt) (seq : Nat)
  | traceEnable (m : Mgmt) (value : Nat)
  -- start-up and joining (chapter 24)
  | block (tag offset : Nat) (data : Bytes)
  | go (tag : Nat)
  | status (tag : Nat)
  | imageVerified
  | gateOpen (m : Mgmt) (value : Nat)
  | found (m : Mgmt)
  | joinCommand (m : Mgmt)
  | join (l member : Nat)
  | joinGrant (l status gen : Nat) (domain key : Bytes)
  | joinBoundExpiry
  -- the remaining rows
  | powerOnResetAssert
  | laneWaitTimeout (port lane : Nat)
  | hostDmaCompletion (h tag code : Nat) (data : Bytes)
  | spdmResponse (p : FramePort) (r : SpdmMsg)
  | heartbeatTimeout (p : Peer)
  | traceStreamTransfer
  | entropyWord (word : Nat)
  deriving DecidableEq, Repr

end Sys2Proof
end

