-- ==== Sys2Proof/Decode.lean ====
section
/-! DEFINITION. Sys2Proof/Decode.lean: the words of the opcode table. Its rows give no bits: a command arrives on a
port with its operands, so no word spells one. -/
namespace Sys2Proof

/-- The command that a word spells by the opcode table's bits: none, since no row gives bits. -/
def decodeTableWord (_nbits _w : Nat) : Option Instr := none

end Sys2Proof
end

