-- ==== Sys2Proof/Machine/Crypto.lean ====
section
/-! DEFINITION. Sys2Proof/Machine/Crypto.lean: the cryptographic primitives the spec names by their NIST
standards: AES-256 (FIPS 197), GHASH and GCM (SP 800-38D), SHA-384 (FIPS 180-4), HMAC-SHA-384, the counter-mode
KDF of R333 (SP 800-108r1) and CTR_DRBG without a derivation function (SP 800-90A, R341). -/
namespace Sys2Proof.Machine

/-! ## Bytes -/

/-- The low `n` bytes of a number, byte 0 first (R9). -/
def leBytes : Nat → Nat → Bytes
  | 0, _ => []
  | n + 1, v => BitVec.ofNat 8 v :: leBytes n (v / 256)

/-- The number a little-endian byte string spells. -/
def leNat : Bytes → Nat
  | [] => 0
  | b :: bs => b.toNat + 256 * leNat bs

/-- The number a big-endian byte string spells. -/
def beNat (bs : Bytes) : Nat := bs.foldl (fun a b => a * 256 + b.toNat) 0

/-- `n` bytes of a number, most significant first. -/
def beBytes (n v : Nat) : Bytes := (leBytes n v).reverse

/-- A string cut or zero-padded at its end to `n` bytes. -/
def padTo (n : Nat) (bs : Bytes) : Bytes := (bs ++ List.replicate (n - bs.length) 0#8).take n

/-- A string zero-padded to a multiple of `n` bytes. -/
def padMul (n : Nat) (bs : Bytes) : Bytes :=
  bs ++ List.replicate ((n - bs.length % n) % n) 0#8

/-- Byte-wise XOR over the shorter length. -/
def xorBytes (a b : Bytes) : Bytes := List.zipWith (· ^^^ ·) a b

/-- A string cut into pieces of `n` bytes; `fuel` bounds the number of pieces. -/
def chunksAux (n : Nat) : Nat → Bytes → List Bytes
  | 0, _ => []
  | fuel + 1, bs => if bs.isEmpty then [] else bs.take n :: chunksAux n fuel (bs.drop n)

/-- A string cut into pieces of `n` bytes, the last one possibly shorter. -/
def chunks (n : Nat) (bs : Bytes) : List Bytes := chunksAux n bs.length bs

/-- The ASCII bytes of a label (R333: no terminator). -/
def ascii (t : String) : Bytes := t.toList.map fun c => BitVec.ofNat 8 c.toNat

/-! ## AES-256 -/

/-- The AES S-box, entry i at bits [8i + 7:8i]. -/
def aesSboxTable : Nat := 0x16bb54b00f2d99416842e6bf0d89a18cdf2855cee9871e9b948ed9691198f8e19e1dc186b95735610ef6034866b53e708a8bbd4b1f74dde8c6b4a61c2e2578ba08ae7a65eaf4566ca94ed58d6d37c8e779e4959162acd3c25c2406490a3a32e0db0b5ede14b8ee4688902a22dc4f816073195d643d7ea7c41744975fec130ccdd2f3ff1021dab6bcf5389d928f40a351a89f3c507f02f94585334d43fbaaefd0cf584c4a39becb6a5bb1fc20ed00d153842fe329b3d63b52a05a6e1b1a2c830975b227ebe28012079a059618c323c7041531d871f1e5a534ccf73f362693fdb7c072a49cafa2d4adf04759fa7dc982ca76abd7fe2b670130c56f6bf27b777c63

/-- The inverse S-box, entry i at bits [8i + 7:8i]. -/
def aesInvSboxTable : Nat := 0x7d0c2155631469e126d677ba7e042b17619953833cbbebc8b0f52aae4d3be0a0ef9cc9939f7ae52d0d4ab519a97f51605fec8027591012b131c7078833a8dd1ff45acd78fec0db9a2079d2c64b3e56fc1bbe18aa0e62b76f89c5291d711af1476edf751ce837f9e28535ade72274ac9673e6b4f0cecff297eadc674f4111913a6b8a130103bdafc1020f3fca8f1e2cd00645b3b80558e4f70ad3bc8c00abd890849d8da75746155edab9edfd5048706c92b6655dcc5ca4d41698688664f6f87225d18b6d49a25b76b224d92866a12e084ec3fa420b954cee3d23c2a632947b54cbe9dec444438e3487ff2f9b8239e37cfbd7f3819ea340bf38a53630d56a0952

/-- One S-box look-up. -/
def aesSub (b : Nat) : Nat := (aesSboxTable >>> (8 * b)) % 256
/-- One inverse S-box look-up. -/
def aesInvSub (b : Nat) : Nat := (aesInvSboxTable >>> (8 * b)) % 256

/-- Multiplication by x in the AES field. -/
def aesXtime (b : Nat) : Nat := if b < 128 then 2 * b else (2 * b) ^^^ 0x11b

/-- Multiplication in the AES field by a constant of at most four bits. -/
def aesMul (c b : Nat) : Nat :=
  let b2 := aesXtime b
  let b4 := aesXtime b2
  let b8 := aesXtime b4
  (if c.testBit 0 then b else 0) ^^^ (if c.testBit 1 then b2 else 0) ^^^
    (if c.testBit 2 then b4 else 0) ^^^ (if c.testBit 3 then b8 else 0)

/-- One column through a circulant matrix with first row `m0 m1 m2 m3`. -/
def aesMixColumn (m0 m1 m2 m3 : Nat) : List Nat → List Nat
  | [a, b, c, d] =>
    [aesMul m0 a ^^^ aesMul m1 b ^^^ aesMul m2 c ^^^ aesMul m3 d,
     aesMul m3 a ^^^ aesMul m0 b ^^^ aesMul m1 c ^^^ aesMul m2 d,
     aesMul m2 a ^^^ aesMul m3 b ^^^ aesMul m0 c ^^^ aesMul m1 d,
     aesMul m1 a ^^^ aesMul m2 b ^^^ aesMul m3 c ^^^ aesMul m0 d]
  | x => x

/-- All four columns of a state. -/
def aesMixColumns (m0 m1 m2 m3 : Nat) (st : List Nat) : List Nat :=
  aesMixColumn m0 m1 m2 m3 (st.take 4) ++ aesMixColumn m0 m1 m2 m3 ((st.drop 4).take 4) ++
    aesMixColumn m0 m1 m2 m3 ((st.drop 8).take 4) ++ aesMixColumn m0 m1 m2 m3 ((st.drop 12).take 4)

/-- ShiftRows on a column-major state. -/
def aesShiftRows (st : List Nat) : List Nat :=
  [0, 5, 10, 15, 4, 9, 14, 3, 8, 13, 2, 7, 12, 1, 6, 11].map fun i => st.getD i 0

/-- Inverse ShiftRows. -/
def aesInvShiftRows (st : List Nat) : List Nat :=
  [0, 13, 10, 7, 4, 1, 14, 11, 8, 5, 2, 15, 12, 9, 6, 3].map fun i => st.getD i 0

/-- Key expansion: `win` holds the last eight words, oldest first; `i` is the next word's index. -/
def aesExpand : Nat → Nat → List (List Nat) → List (List Nat)
  | 0, _, _ => []
  | fuel + 1, i, win =>
    let prev := win.getLastD []
    let t := if i % 8 = 0 then
        List.zipWith (· ^^^ ·) ((prev.drop 1 ++ prev.take 1).map aesSub) [2 ^ (i / 8 - 1), 0, 0, 0]
      else if i % 8 = 4 then prev.map aesSub else prev
    let w := List.zipWith (· ^^^ ·) (win.headD []) t
    w :: aesExpand fuel (i + 1) (win.drop 1 ++ [w])

/-- The fifteen round keys of a 32-byte key. -/
def aesRoundKeys (key : Bytes) : List (List Nat) :=
  let w0 := (chunks 4 (padTo 32 key)).map (·.map BitVec.toNat)
  let ws := w0 ++ aesExpand 52 8 w0
  (List.range 15).map fun r => ((ws.drop (4 * r)).take 4).flatten

/-- The middle rounds and the last one. -/
def aesRounds : List (List Nat) → List Nat → List Nat
  | [], st => st
  | [k], st => List.zipWith (· ^^^ ·) (aesShiftRows (st.map aesSub)) k
  | k :: ks, st =>
    aesRounds ks (List.zipWith (· ^^^ ·) (aesMixColumns 2 3 1 1 (aesShiftRows (st.map aesSub))) k)

/-- AES-256 encryption of a 16-byte block (FIPS 197). -/
def aesEnc (key blk : Bytes) : Bytes :=
  let ks := aesRoundKeys key
  let st := List.zipWith (· ^^^ ·) ((padTo 16 blk).map BitVec.toNat) (ks.headD [])
  (aesRounds (ks.drop 1) st).map (BitVec.ofNat 8)

/-- The inverse rounds, round keys in reverse order. -/
def aesInvRounds : List (List Nat) → List Nat → List Nat
  | [], st => st
  | [k], st => List.zipWith (· ^^^ ·) ((aesInvShiftRows st).map aesInvSub) k
  | k :: ks, st =>
    aesInvRounds ks
      (aesMixColumns 14 11 13 9 (List.zipWith (· ^^^ ·) ((aesInvShiftRows st).map aesInvSub) k))

/-- AES-256 decryption of a 16-byte block. -/
def aesDec (key blk : Bytes) : Bytes :=
  let ks := (aesRoundKeys key).reverse
  let st := List.zipWith (· ^^^ ·) ((padTo 16 blk).map BitVec.toNat) (ks.headD [])
  (aesInvRounds (ks.drop 1) st).map (BitVec.ofNat 8)

/-! ## GHASH and GCM -/

/-- GF(2^128) product, SP 800-38D bit order: bit 0 of the standard is the most significant bit here. -/
def gf128Mul : Nat → Nat → Nat → Nat → Nat
  | 0, _, _, z => z
  | n + 1, x, v, z =>
    let z' := if x.testBit n then z ^^^ v else z
    let v' := if v.testBit 0 then (v >>> 1) ^^^ (0xE1 <<< 120) else v >>> 1
    gf128Mul n x v' z'

/-- Y · H of two 16-byte blocks. -/
def ghashMul (y h : Bytes) : Bytes := beBytes 16 (gf128Mul 128 (beNat y) (beNat h) 0)

/-- GHASH over a string whose length is a multiple of 16 bytes. -/
def ghashRun (h : Bytes) (bs : Bytes) : Bytes :=
  (chunks 16 bs).foldl (fun y b => ghashMul (xorBytes y b) h) (List.replicate 16 0#8)

/-- GHASH with the lengths block of SP 800-38D. -/
def ghash (h aad text : Bytes) : Bytes :=
  ghashRun h (padMul 16 aad ++ padMul 16 text ++ beBytes 8 (8 * aad.length) ++ beBytes 8 (8 * text.length))

/-- The GCM inc32 function. -/
def inc32 (blk : Bytes) : Bytes := blk.take 12 ++ beBytes 4 (beNat (blk.drop 12) + 1)

/-- CTR-mode keystream XOR over the pieces of a text. -/
def gctr (key : Bytes) : List Bytes → Bytes → Bytes
  | [], _ => []
  | p :: ps, ctr => xorBytes p (aesEnc key ctr) ++ gctr key ps (inc32 ctr)

/-- AES-256-GCM with a 96-bit IV: the ciphertext of a text. -/
def gcmCrypt (key iv text : Bytes) : Bytes := gctr key (chunks 16 text) (inc32 (iv ++ [0#8, 0#8, 0#8, 1#8]))

/-- AES-256-GCM with a 96-bit IV: the 128-bit tag of a ciphertext. -/
def gcmTag (key iv aad ct : Bytes) : Bytes :=
  let h := aesEnc key (List.replicate 16 0#8)
  xorBytes (ghash h aad ct) (aesEnc key (iv ++ [0#8, 0#8, 0#8, 1#8]))

/-! ## SHA-384, HMAC and the KDF -/

/-- The word at index `i` of a table of 64-bit words held as one number, word 0 in bits [63:0]. -/
def wordAt (table i : Nat) : Nat := (table >>> (64 * i)) % 2 ^ 64

/-- The round constants of SHA-384, twenty rounds to a number: round r's is the first 64 bits of the fraction of the cube root
of the prime of index r (test_sha_roundKeys). -/
def shaRoundKeys : List Nat :=
  [0x240ca1cc77ac9c650fc19dc68b8cd5b5efbe4786384f25e3e49b69c19ef14ad2c19bf174cf6926949bdc06a725c7123580deb1fe3b1696b172be5d74f27b896f550c7dc3d5ffb4e2243185be4ee4b28c12835b0145706fbed807aa98a3030242ab1c5ed5da6d8118923f82a4af194f9b59f111f1b605d0193956c25bf348b538e9b5dba58189dbbcb5c0fbcfec4d3b2f7137449123ef65cd428a2f98d728ae22,
   0x92722c851482353b81c2c92e47edaee6766a0abb3c77b2a8650a73548baf63de53380d139d95b3df4d2c6dfc5ac42aed2e1b21385c26c92627b70a8546d22ffc142929670a0e6e7006ca6351e003826fd5a79147930aa725c6e00bf33da88fc2bf597fc7beef0ee4b00327c898fb213fa831c66d2db43210983e5152ee66dfab76f988da831153b55cb0a9dcbd41fbd44a7484aa6ea6e4832de92c6f592b0275,
   0x8cc702081a6439ec84c87814a1f0ab7278a5636f43172f60748f82ee5defb2fc682e6ff3d6b2b8a35b9cca4f7763e3734ed8aa4ae3418acb391c0cb3c5c95a6334b0bcb5e19b48a82748774cdf8eeb991e376c085141ab5319a4c116b8d2d0c8106aa07032bbd1b8f40e35855771202ad69906245565a910d192e819d6ef5218c76c51a30654be30c24b8b70d0f89791a81a664bbc423001a2bfe8a14cf10364,
   0x6c44198c4a4758175fcb6fab3ad6faec597f299cfc657e2a4cc5d4becb3e42b6431d67c49c100d4c3c9ebe0a15c9bebc32caab7b40c7249328db77f523047d841b710b35131c471b113f9804bef90dae0a637dc5a2c898a606f067aa72176fbaf57d4f7fee6ed178eada7dd6cde0eb1ed186b8c721c0c207ca273eceea26619cc67178f2e372532bbef9a3f7b2c67915a4506cebde82bde990befffa23631e28]

/-- The constant of one round. -/
def shaKey (r : Nat) : Nat := wordAt (shaRoundKeys.getD (r / 20) 0) (r % 20)

/-- The SHA-384 initial value (OP SHA_INIT, Table 13.14): the fractions of the square roots of the primes of index 8 to 15. -/
def shaInit : List Nat := (List.range 8).map (wordAt
  0x47b5481dbefa4fa4db0c2e0d64f98fa78eb44a876858151167332667ffc00b31152fecd8f70e59399159015a3070dd17629a292a367cd507cbbb9d5dc1059ed8)

/-- Rotation right of a 64-bit word. -/
def rotr64 (n x : Nat) : Nat := ((x >>> n) ||| (x <<< (64 - n))) % 2 ^ 64

/-- XOR of a word rotated by each of a list of distances. -/
def rotSum (x : Nat) (ns : List Nat) : Nat := ns.foldl (fun y n => y ^^^ rotr64 n x) 0

/-- The schedule word after a window of sixteen. -/
def shaNext (win : List Nat) : Nat :=
  let old := win.getD 1 0
  let new := win.getD 14 0
  (win.getD 0 0 + (rotSum old [1, 8] ^^^ (old >>> 7)) + win.getD 9 0 + (rotSum new [19, 61] ^^^ (new >>> 6))) % 2 ^ 64

/-- One round on the eight working words, first to last, taking the schedule word and round constant as one sum. -/
def shaRound (kw : Nat) (st : List Nat) : List Nat :=
  let w := fun i => st.getD i 0
  let pick := w 6 ^^^ (w 4 &&& (w 5 ^^^ w 6))
  let most := (w 0 &&& w 1) ||| (w 2 &&& (w 0 ||| w 1))
  let mixed := w 7 + rotSum (w 4) [14, 18, 41] + pick + kw
  let head := (mixed + rotSum (w 0) [28, 34, 39] + most) % 2 ^ 64
  [head] ++ st.take 3 ++ [(w 3 + mixed) % 2 ^ 64] ++ (st.drop 4).take 3

/-- The rounds that are left, over the window of schedule words: `n` counts them down from 80. -/
def shaRounds : Nat → List Nat → List Nat → List Nat
  | 0, _, st => st
  | n + 1, win, st => shaRounds n (win.drop 1 ++ [shaNext win]) (shaRound (shaKey (79 - n) + win.headD 0) st)

/-- One compression of a 128-byte block into an eight-word state. -/
def shaCompress (st : List Nat) (blk : Bytes) : List Nat :=
  let ws := (List.range 16).map fun i => beNat (((padTo 128 blk).drop (8 * i)).take 8)
  (st.zip (shaRounds 80 ws st)).map fun x => (x.1 + x.2) % 2 ^ 64

/-- The 48 digest bytes of an eight-word state. -/
def shaDigest (st : List Nat) : Bytes := (st.take 6).flatMap (beBytes 8)

/-- SHA-384 (FIPS 180-4). -/
def sha384 (m : Bytes) : Bytes :=
  let z := (240 - (m.length + 1) % 128) % 128
  let p := m ++ [0x80#8] ++ List.replicate z 0#8 ++ beBytes 16 (8 * m.length)
  shaDigest ((chunks 128 p).foldl shaCompress shaInit)

/-- HMAC-SHA-384. -/
def hmac384 (key m : Bytes) : Bytes :=
  let k := padTo 128 (if key.length > 128 then sha384 key else key)
  sha384 (k.map (· ^^^ 0x5c#8) ++ sha384 (k.map (· ^^^ 0x36#8) ++ m))

/-- The counter-mode KDF of R333: `l` bits from KI, Label and Context. -/
def kdf (ki : Bytes) (label : String) (ctx : Bytes) (l : Nat) : Bytes :=
  (((List.range ((l + 383) / 384)).map fun i =>
    hmac384 ki (beBytes 4 (i + 1) ++ ascii label ++ [0#8] ++ ctx ++ beBytes 4 l)).flatten).take (l / 8)

/-! ## CTR_DRBG, AES-256, no derivation function -/

/-- V + 1 modulo 2^128. -/
def drbgInc (v : Bytes) : Bytes := beBytes 16 (beNat v + 1)

/-- `n` output blocks after V, and the V they leave. -/
def drbgBlocks (key : Bytes) : Nat → Bytes → Bytes × Bytes
  | 0, v => ([], v)
  | n + 1, v =>
    let v1 := drbgInc v
    let r := drbgBlocks key n v1
    (aesEnc key v1 ++ r.1, r.2)

/-- CTR_DRBG_Update with 48 bytes of provided data: the new Key and V. -/
def drbgUpdate (key v data : Bytes) : Bytes × Bytes :=
  let t := xorBytes (drbgBlocks key 3 v).1 (padTo 48 data)
  (t.take 32, (t.drop 32).take 16)

end Sys2Proof.Machine
end

