-- ==== Sys2Proof/Config.lean ====
section
/-! DEFINITION. Sys2Proof/Config.lean: what Gwebrim fixes when the block is generated (Table 2.1, R34, R35)
and the values the spec leaves open, each an opaque constant that nothing in Lean can evaluate. -/
namespace Sys2Proof

/-- The generation-time parameters of Table 2.1. MEM_KIND and TAG_PERMIT are bit masks over the memory ports,
as 0x1000.0D and 0x1000.0E report them; CHIP_MODULES lists one number per chiplet port. -/
structure Config where
  memPorts : Nat
  memCxl : BitVec 16
  tagPermit : BitVec 16
  chipPorts : Nat
  chipModules : List Nat
  links : Nat
  hostPorts : Nat
  aus : Nat
  samplers : Nat
  partitions : Nat
  contexts : Nat
  queues : Nat
  tlb2 : Nat
  comb : Nat
  lineBoundUs : Nat
  meshSensor : Bool
  tracePort : Bool
  deriving DecidableEq, Repr

/-- The full reference configuration SH9-F (Tables 0.3 and 2.1). -/
def Config.sh9f : Config where
  memPorts := 8
  memCxl := 0
  tagPermit := 0x00ff
  chipPorts := 8
  chipModules := [8, 8, 8, 8, 8, 8, 8, 8]
  links := 32
  hostPorts := 4
  aus := 32
  samplers := 4
  partitions := 64
  contexts := 16384
  queues := 262144
  tlb2 := 131072
  comb := 4096
  lineBoundUs := 10
  meshSensor := true
  tracePort := true

/-- The refusals of Gwebrim (R36): a configuration that passes is one the block can have. -/
def Config.legal (c : Config) : Bool :=
  decide (1 ≤ c.memPorts ∧ c.memPorts ≤ 8) && decide (1 ≤ c.chipPorts ∧ c.chipPorts ≤ 8) &&
  decide (c.chipModules.length = c.chipPorts) && c.chipModules.all (fun m => decide (1 ≤ m ∧ m ≤ 8)) &&
  decide (c.links ≤ 32 ∧ c.links % 4 = 0) && decide (1 ≤ c.hostPorts ∧ c.hostPorts ≤ 4) &&
  decide (c.memPorts ≤ c.aus ∧ c.aus ≤ 4 * c.memPorts ∧ c.aus % c.memPorts = 0) &&
  decide (1 ≤ c.samplers ∧ c.samplers ≤ min 4 c.chipPorts) &&
  [4, 8, 16, 32, 64].contains c.partitions &&
  [1024, 2048, 4096, 8192, 16384].contains c.contexts &&
  [16384, 32768, 65536, 131072, 262144].contains c.queues &&
  [32768, 65536, 131072].contains c.tlb2 && [1024, 2048, 4096].contains c.comb &&
  decide (1 ≤ c.lineBoundUs ∧ c.lineBoundUs ≤ 100) &&
  decide (c.memCxl &&& c.tagPermit = 0) && (c.meshSensor || decide (c.tagPermit = 0))

/-! ## Values the spec leaves open

None of these has a body: a statement about one holds for every value it may have. -/

/-- A fresh open value, by the counter of State that the step reads and advances. -/
opaque Config.freeValue : Nat → Nat
/-- The latency, in A-cycles, that the trace record of a line access carries (Table 22.4), by local count and trace sequence. -/
opaque Config.lineLatency : Nat → Nat → Nat
/-- The A-cycles in which an AU's lanes issued products in one run of a shard (0x6204), by the free-value counter. -/
opaque Config.laneCycles : Nat → Nat
/-- The A-cycles for which a sampler held a command (0x6205), by local count and command. -/
opaque Config.heldCycles : Nat → Nat → Nat
/-- The exponential the softmax unit answers for an FP32 operand (R109 bounds its error). -/
opaque Config.expF32 : BitVec 32 → BitVec 32
/-- The log-probability the sampler answers for an exact argument (R152 bounds its error). -/
opaque Config.lnF32 : Nat → Nat → BitVec 32
/-- The order in which one block's products are summed (R109 gives none), by the free-value counter and the
number of products; used only where it is a rearrangement of the indices. -/
opaque Config.sumOrder : Nat → Nat → List Nat
/-- The digest of the ROM, fixed when the block is generated (measurement index 1). -/
opaque Config.romDigest : Bytes
/-- The digest of the Gwebrim configuration file (0x1000.12). -/
opaque Config.gwebrimDigest : Bytes
/-- The Vyram enterprise number (0x4100.09). -/
opaque Config.enterprise : BitVec 32
/-- What the firmware image of given bytes declares: version, SVN, the Maker keys and signatures it carries;
nothing where the image is malformed (its layout is not in the manual). -/
opaque Config.imageFields : Bytes → Option (List Bytes)
/-- ECDSA P-384 verification under SHA-384 (FIPS 186-5): key, message, signature. -/
opaque Config.ecdsaVerify : Bytes → Bytes → Bytes → Bool
/-- ML-DSA-65 verification with an empty context string (FIPS 204): key, message, signature. -/
opaque Config.mldsaVerify : Bytes → Bytes → Bytes → Bool
/-- ECDSA P-384 signature: private scalar, message, randomness. -/
opaque Config.ecdsaSign : Bytes → Bytes → Bytes → Bytes
/-- ML-DSA-65 hedged signature: key-generation seed, message, randomness. -/
opaque Config.mldsaSign : Bytes → Bytes → Bytes → Bytes
/-- The public key of a private key: `false` the ECDSA scalar, `true` the key-generation seed of ML-DSA-65. -/
opaque Config.publicKey : Bool → Bytes → Bytes
/-- A DER certificate: algorithm, private key of the issuer, subject public key, extension bytes. -/
opaque Config.certificate : Bool → Bytes → Bytes → Bytes → Bytes
/-- The public key that the last certificate of a DER chain carries. -/
opaque Config.lastCertKey : Bool → Bytes → Option Bytes
/-- The personalisation bytes of a DRBG child from its number, the device serial and the member ID (R341
names the parts and no layout). -/
opaque Config.personalisation : Nat → Nat → Nat → Bytes
/-- The export master secret of a new SPDM session: a fresh number, for the hub's own ephemeral key, and the peer's
exchange data (the key schedule is DSP0274's). -/
opaque Config.exportMaster : Nat → Bytes → Bytes
/-- The MSI-X table entry of a host port's function and vector, as the host wrote it: address, and data above bit 63. -/
opaque Config.msixEntry : Nat → Nat → Nat → Nat
/-- What a transcript hash covers for the signed response to a request, of the messages exchanged so far (DSP0274 says which). -/
opaque Config.transcript : Nat → List Bytes → Bytes
/-- The round function of the Feistel permutation of the key cells' rows, of the scramble key, the round and a half (R337 names it and
gives no function). -/
opaque Config.feistel : Nat → Nat → BitVec 8 → BitVec 8
/-- The PCRC of a TLP's text: four bytes (PCIe lays it out). -/
opaque Config.pcrc : Bytes → Bytes
/-- The FDI stream identifier of the streaming protocol (lp_stream, Table 2.6). -/
opaque Config.fdiStream : BitVec 8
/-- The MCTP packets that carry an SPDM message, by its code and body (DSP0236, DSP0275 and DSP0277 lay them out). -/
opaque Config.spdmPackets : Nat → Bytes → List Bytes
/-- The bytes of an SPDM or TDISP response body that the cited standards lay out, by a response number and the
content the manual names. -/
opaque Config.standardBody : Nat → List Bytes → Bytes

end Sys2Proof
end

