-- ==== Sys2Proof/Machine/Tables.lean ====
section
/-! DEFINITION. Sys2Proof/Machine/Tables.lean: reading and writing sparse tables and bit fields. -/
namespace Sys2Proof.Machine

/-- The value listed at key `k`. -/
def tblFind {α : Type} : Tbl α → Nat → Option α
  | [], _ => none
  | (i, v) :: t, k => if i = k then some v else tblFind t k

/-- The value at key `k`, `d` where the table lists none. -/
def tblGet {α : Type} (t : Tbl α) (k : Nat) (d : α) : α := (tblFind t k).getD d

/-- List `v` at key `k`, keeping the keys rising. -/
def tblPut {α : Type} : Tbl α → Nat → α → Tbl α
  | [], k, v => [(k, v)]
  | (i, w) :: t, k, v =>
    if k < i then (k, v) :: (i, w) :: t else if k = i then (k, v) :: t else (i, w) :: tblPut t k v

/-- List nothing at key `k`. -/
def tblDel {α : Type} : Tbl α → Nat → Tbl α
  | [], _ => []
  | (i, w) :: t, k => if i = k then tblDel t k else (i, w) :: tblDel t k

/-- Write `v` at key `k` of a table whose unlisted keys read `d`: the canonical form lists no `d`. -/
def tblSet {α : Type} [DecidableEq α] (t : Tbl α) (k : Nat) (v d : α) : Tbl α :=
  if v = d then tblDel t k else tblPut t k v

/-- Change the value at key `k` by `f`. -/
def tblMod {α : Type} [DecidableEq α] (t : Tbl α) (k : Nat) (f : α → α) (d : α) : Tbl α :=
  tblSet t k (f (tblGet t k d)) d

/-- The canonical form: keys strictly rising. -/
def tblRising {α : Type} : Tbl α → Bool
  | [] => true
  | [_] => true
  | (i, _) :: (j, w) :: t => decide (i < j) && tblRising ((j, w) :: t)

/-- Bits [hi:lo] of a number (R8). -/
def bits (v hi lo : Nat) : Nat := (v >>> lo) % 2 ^ (hi + 1 - lo)

/-- A count held in `n` bits that does not wrap (R508): past its end it stays there. -/
def capTo (n v : Nat) : Nat := min v (2 ^ n - 1)

/-- One bit of a number. -/
def bit (v i : Nat) : Bool := v.testBit i

/-- A Bool as a bit. -/
def bn (b : Bool) : Nat := if b then 1 else 0

/-- A number with bits [hi:lo] replaced. -/
def setBits (v hi lo x : Nat) : Nat :=
  (v >>> (hi + 1)) <<< (hi + 1) + ((x % 2 ^ (hi + 1 - lo)) <<< lo) + v % 2 ^ lo

/-- Signed less-than of two numbers as two's complement of width `w` bits. -/
def sltW (w a b : Nat) : Bool :=
  decide ((BitVec.ofNat w a).toInt < (BitVec.ofNat w b).toInt)

/-- The smallest of a list of numbers by a key, the first on a tie. -/
def argMin {α : Type} (f : α → Nat) : List α → Option α
  | [] => none
  | x :: xs => match argMin f xs with
    | none => some x
    | some y => if f x ≤ f y then some x else some y

/-- The next element of a rising list after `last` in round-robin order. -/
def nextRound (last : Nat) (l : List Nat) : Option Nat :=
  match argMin id (l.filter (last < ·)) with
  | some x => some x
  | none => argMin id l

/-- The elements of a list with repeats dropped, on fuel of its length. -/
def dedupAux : Nat → List Nat → List Nat
  | 0, _ => []
  | _, [] => []
  | n + 1, x :: xs => x :: dedupAux n (xs.filter (· ≠ x))

/-- Nothing twice, first occurrences kept. -/
def dedup (l : List Nat) : List Nat := dedupAux l.length l

end Sys2Proof.Machine
end

