-- ==== Sys2Proof/Machine/Registry.lean ====
section
/-! DEFINITION. Sys2Proof/Machine/Registry.lean: every entry of the object dictionary (Table 19.8), with its type,
size, rights, default and marks, as the entry tables of the chapters give them. -/
namespace Sys2Proof.Machine

/-- Where an entry's value is kept: a counter, a setting, or a state field that the chapter names. -/
inductive Src where
  | counter | setting | special
  deriving DecidableEq, Repr

/-- A row of the dictionary: index and subindex ranges, type code (R457), size in bytes, rights of Maker, Installer
and Operator (bit 0 read, bit 1 write), default, audited (R466), security configuration (R465). -/
structure Entry where
  lo : Nat
  hi : Nat
  sublo : Nat
  subhi : Nat
  ty : Nat
  size : Nat
  maker : Nat
  installer : Nat
  operator : Nat
  dflt : Nat
  audited : Bool
  sec : Bool
  src : Src
  deriving DecidableEq, Repr

/-- A read-only entry that every role reads. -/
def roE (lo hi a b ty size : Nat) (src : Src) : Entry := ⟨lo, hi, a, b, ty, size, 1, 1, 1, 0, false, false, src⟩

/-- An entry with rights and default. -/
def rwE (lo hi a b ty size m i o d : Nat) (aud sec : Bool) (src : Src) : Entry := ⟨lo, hi, a, b, ty, size, m, i, o, d, aud, sec, src⟩

/-- Almanac, life cycle, roles, agent, clocks (Tables 2.2, 10.11, 18.7, 19.10, 3.5; R464). -/
def entries1 : List Entry := [
  roE 0x1000 0x1000 1 1 3 2 .special, roE 0x1000 0x1000 2 8 2 1 .special, roE 0x1000 0x1000 9 9 3 2 .special,
  roE 0x1000 0x1000 10 11 4 4 .special, roE 0x1000 0x1000 12 14 3 2 .special, roE 0x1000 0x1000 15 15 7 8 .special,
  roE 0x1000 0x1000 16 17 2 1 .special, roE 0x1000 0x1000 18 18 7 48 .special, roE 0x1000 0x1000 19 19 5 8 .special,
  roE 0x1000 0x1000 20 20 2 1 .special, roE 0x1000 0x1000 21 21 3 2 .special, roE 0x1000 0x1000 0x20 0x20 3 2 .special,
  roE 0x1000 0x1000 0x21 0x21 1 1 .special, roE 0x1000 0x1000 0x22 0x22 3 2 .special,
  roE 0x1000 0x1000 0x23 0x23 7 8 .special, roE 0x1000 0x1000 0x30 0x4F 5 8 .special,
  roE 0x1100 0x1100 1 1 6 1 .special, roE 0x1100 0x1100 2 2 2 1 .special, roE 0x1100 0x1100 3 3 4 4 .special,
  roE 0x1100 0x1100 4 4 7 12 .special,
  rwE 0x1101 0x1101 1 1 6 1 3 3 0 0 true false .special, rwE 0x1101 0x1101 2 2 4 4 2 2 0 0 true false .special,
  rwE 0x1101 0x1101 3 3 2 1 1 1 1 0 true false .special, rwE 0x1101 0x1101 5 5 2 1 2 0 0 0 true false .special,
  rwE 0x1101 0x1101 6 6 5 8 3 0 0 0 true false .special, rwE 0x1101 0x1101 7 7 7 48 3 0 0 0 true false .special,
  rwE 0x1102 0x1102 1 1 2 1 2 2 0 0 true false .special, rwE 0x1102 0x1102 2 2 7 64 1 1 0 0 true false .special,
  rwE 0x1102 0x1102 3 3 7 8192 2 2 0 0 true false .special, rwE 0x1102 0x1102 4 4 2 1 1 1 1 0 true false .special,
  rwE 0x1102 0x1102 5 5 3 2 1 3 1 300 true true .setting, rwE 0x1102 0x1102 6 6 2 1 1 1 1 0 true false .special,
  rwE 0x1110 0x1110 1 4 7 48 3 1 1 0 true true .setting, rwE 0x1111 0x1111 1 8 7 48 1 3 1 0 true true .setting,
  roE 0x1120 0x1120 1 3 5 8 .special, roE 0x1120 0x1120 4 4 7 3457 .special, roE 0x1120 0x1120 5 5 5 8 .special,
  roE 0x1121 0x1121 1 2 5 8 .counter, rwE 0x1130 0x1130 1 1 3 2 1 3 1 60 true true .setting,
  rwE 0x1130 0x1130 2 2 3 2 1 3 1 60 true true .setting, roE 0x1130 0x1130 3 3 2 1 .special,
  roE 0x1131 0x1131 1 4 5 8 .special,
  roE 0x1200 0x1200 1 1 5 8 .special, roE 0x1200 0x1200 2 2 2 1 .special, roE 0x1200 0x1200 3 3 4 4 .special,
  rwE 0x1210 0x1210 1 1 4 4 3 3 3 0xFFFFFFFF false false .setting, rwE 0x1210 0x1210 2 2 6 1 3 3 1 3 false false .setting,
  roE 0x1220 0x1220 1 4 5 8 .special, roE 0x1220 0x1220 5 5 4 4 .special]

/-- Formats, attention, sampler, bridge, reduction (Tables 4.9, 5.8, 6.9, 7.7). -/
def entries2 : List Entry := [
  roE 0x2000 0x2000 1 16 8 8 .special, roE 0x2010 0x2010 1 8 8 8 .special,
  rwE 0x2020 0x2020 1 8 3 2 1 3 1 0xFFFF false true .setting, rwE 0x2030 0x2030 1 1 1 1 1 3 1 1 false true .setting,
  roE 0x2040 0x2040 1 4 5 8 .counter, roE 0x2100 0x2100 1 6 5 8 .counter, roE 0x2110 0x2110 1 32 2 1 .special,
  rwE 0x2120 0x2120 1 1 2 1 1 3 1 4 false false .setting, rwE 0x2120 0x2120 2 2 1 1 1 3 3 1 false false .setting,
  ⟨0x2120, 0x2120, 3, 3, 2, 1, 1, 1, 1, 44, false, false, .setting⟩,
  roE 0x2200 0x2200 1 6 5 8 .counter, roE 0x2210 0x2210 1 4 2 1 .special, roE 0x2220 0x2221 1 8 5 8 .counter,
  rwE 0x2230 0x2230 1 1 2 1 1 3 1 64 false false .setting, roE 0x2300 0x2300 1 8 5 8 .counter,
  rwE 0x2310 0x2310 1 1 2 1 3 3 1 7 false false .setting, rwE 0x2310 0x2310 2 2 2 1 3 3 1 0 false false .setting,
  ⟨0x2310, 0x2310, 3, 3, 2, 1, 1, 1, 1, 64, false, false, .setting⟩,
  rwE 0x2320 0x2320 1 1 4 4 3 3 3 100000 false false .setting, rwE 0x2320 0x2320 2 2 4 4 3 3 1 100 false false .setting,
  roE 0x2320 0x2320 3 3 3 2 .special, ⟨0x2320, 0x2320, 4, 4, 3, 2, 1, 1, 1, 1024, false, false, .setting⟩]

/-- Memory sealing, sweep, links, fabric, ports (Tables 8.15, 9.6, 10.12, 11.8, 12.12). -/
def entries3 : List Entry := [
  roE 0x3000 0x3000 1 8 6 1 .special, rwE 0x3001 0x3001 1 8 6 1 1 3 1 1 false true .setting,
  rwE 0x3002 0x3002 1 8 5 8 1 3 1 0 false false .setting, roE 0x3003 0x3003 1 8 5 8 .special,
  rwE 0x3004 0x3004 1 8 2 1 1 3 1 0 false false .special, rwE 0x3020 0x3027 1 255 8 16 1 3 3 0 false false .special,
  rwE 0x3030 0x3030 1 8 2 1 1 3 3 0 false false .special, roE 0x3040 0x3045 1 8 5 8 .counter,
  roE 0x3046 0x3046 1 8 3 2 .special, roE 0x3047 0x3048 1 8 5 8 .counter,
  roE 0x3100 0x3100 1 8 8 16 .special, rwE 0x3101 0x3101 1 8 3 2 1 3 1 20 false true .setting,
  rwE 0x3102 0x3102 1 8 4 4 1 3 1 86400 false true .setting, rwE 0x3103 0x3103 1 8 2 1 1 3 3 0 false false .setting,
  roE 0x3104 0x3107 1 8 5 8 .counter,
  roE 0x3200 0x3200 1 32 8 16 .special, roE 0x3201 0x3208 1 32 5 8 .counter,
  rwE 0x3210 0x3210 1 1 3 2 1 3 1 0 true false .setting, rwE 0x3210 0x3210 2 2 4 4 1 3 1 3600 false true .setting,
  rwE 0x3210 0x3210 3 3 4 4 1 3 1 500 false true .setting, rwE 0x3210 0x3210 4 4 4 4 1 3 1 1000 false true .setting,
  rwE 0x3210 0x3210 5 5 3 2 1 3 1 10 false true .setting, rwE 0x3210 0x3210 6 6 3 2 1 3 1 20 false false .setting,
  rwE 0x3211 0x3211 1 32 2 1 1 3 1 0 false false .special, rwE 0x3220 0x3220 1 1 3 2 1 3 1 0 true false .setting,
  rwE 0x3220 0x3220 2 2 7 512 1 3 1 0 true false .special, rwE 0x3220 0x3220 3 3 1 1 1 3 1 0 true false .special,
  roE 0x3220 0x3220 4 4 5 8 .counter, rwE 0x3221 0x3221 1 16 4 4 1 3 1 0 true false .setting,
  roE 0x3222 0x3222 1 1 7 512 .special, rwE 0x3230 0x3230 1 1 3 2 1 3 1 40 false false .setting,
  rwE 0x3230 0x3230 2 2 1 1 1 3 1 1 false false .setting, rwE 0x3230 0x3230 3 3 4 4 1 3 1 131072 false false .setting,
  roE 0x3240 0x3240 1 7 5 8 .counter,
  roE 0x3300 0x3300 1 8 4 4 .special, rwE 0x3301 0x3301 1 8 2 1 1 3 1 0xFF true false .special,
  rwE 0x3303 0x3303 1 16 7 48 1 3 1 0 true true .setting, rwE 0x3304 0x3304 1 64 7 48 1 3 1 0 true true .setting,
  rwE 0x3305 0x3305 1 1 4 4 1 3 1 1000 false true .setting, rwE 0x3305 0x3305 2 2 4 4 1 3 1 500 false true .setting,
  rwE 0x3305 0x3305 3 3 4 4 1 3 1 3600 false true .setting, roE 0x3306 0x3309 1 8 5 8 .counter,
  roE 0x3320 0x3320 1 4 4 4 .special, roE 0x3321 0x3321 1 1 5 8 .counter, roE 0x3321 0x3321 2 2 2 1 .special,
  rwE 0x3330 0x3337 1 128 8 16 1 3 3 0 true false .special, roE 0x3340 0x3340 1 4 5 8 .counter]

/-- Keys, attestation, queues, translation, partitions (Tables 13.17, 14.11, 15.11, 16.6, 17.7). -/
def entries4 : List Entry := [
  roE 0x4000 0x4000 1 2 4 4 .special, roE 0x4000 0x4000 3 5 5 8 .counter, roE 0x4010 0x4010 1 65 4 4 .special,
  rwE 0x4020 0x4020 1 1 4 4 1 3 1 1048576 true true .setting, roE 0x4020 0x4020 2 2 5 8 .counter,
  roE 0x4020 0x4020 3 3 2 1 .special, roE 0x4030 0x4030 1 1 7 32 .special,
  roE 0x4100 0x4100 1 1 6 1 .special, roE 0x4100 0x4100 2 4 4 4 .special, roE 0x4100 0x4100 5 7 5 8 .counter,
  roE 0x4100 0x4100 8 8 2 1 .special, roE 0x4100 0x4100 9 9 4 4 .special, roE 0x4110 0x4110 1 1 7 48 .special,
  rwE 0x4120 0x4120 1 1 7 4096 3 1 1 0 true false .special, rwE 0x4120 0x4120 2 2 7 16384 3 1 1 0 true false .special,
  rwE 0x4130 0x4130 1 1 4 4 3 3 0 0 false false .special, rwE 0x4130 0x4130 2 2 7 4096 2 2 0 0 false false .special,
  rwE 0x4130 0x4130 3 3 6 1 3 3 0 0 true false .special, roE 0x4130 0x4130 4 4 2 1 .special,
  rwE 0x4140 0x4140 1 16 7 48 1 3 1 0 true true .setting, rwE 0x4141 0x4141 1 64 7 48 1 3 1 0 true true .setting,
  roE 0x5000 0x5000 1 9 5 8 .counter, rwE 0x5010 0x5010 1 1 4 4 1 3 1 1048576 false false .setting,
  roE 0x5010 0x5010 2 2 4 4 .special, roE 0x5010 0x5010 3 4 4 4 .counter, rwE 0x5020 0x5020 1 1 3 2 1 3 3 1 false false .setting,
  roE 0x5020 0x5020 2 2 3 2 .special, rwE 0x5080 0x50FF 1 128 8 16 1 3 3 0 true false .special,
  roE 0x5100 0x5100 1 5 5 8 .counter, rwE 0x5110 0x5110 1 64 8 16 1 3 1 0 true false .special,
  rwE 0x5120 0x5120 1 1 8 16 1 3 3 0 true false .special, roE 0x5120 0x5120 2 2 4 4 .special,
  rwE 0x5130 0x5130 1 64 4 4 1 3 1 0 false false .setting,
  rwE 0x5200 0x5200 1 64 8 32 1 3 1 0 true false .special, roE 0x5201 0x5201 1 64 2 1 .special,
  rwE 0x5210 0x523B 1 64 4 4 1 3 1 0x10000 true false .setting,
  roE 0x5240 0x5240 1 44 4 4 .special, rwE 0x5250 0x5250 1 1 3 2 1 3 1 5 false false .setting,
  roE 0x5260 0x5260 1 4 5 8 .counter]

/-- Faults, alarms, counters and trace, bring-up (Tables 20.10, 21.7, 22.1, 22.7, 24.5). -/
def entries5 : List Entry := [
  roE 0x6000 0x6000 1 2 5 8 .counter, roE 0x6000 0x6000 3 3 5 8 .special, roE 0x6000 0x6000 4 8 5 8 .counter,
  rwE 0x6001 0x6001 1 1 3 2 1 3 3 0 true false .setting, rwE 0x6001 0x6001 2 2 6 1 1 3 1 1 true false .setting,
  rwE 0x6001 0x6001 3 3 6 1 1 3 3 1 true false .setting, rwE 0x6010 0x6010 1 1 4 4 1 3 1 2000 true false .setting,
  rwE 0x6010 0x6010 2 2 3 2 1 3 1 0 true false .setting, rwE 0x6020 0x6020 1 1 3 2 1 3 1 0 true false .setting,
  roE 0x6020 0x6020 2 2 4 4 .counter, roE 0x6020 0x6020 3 3 5 8 .special, roE 0x6021 0x6021 1 1 7 2097152 .special,
  roE 0x6030 0x6030 1 1 3 2 .special, rwE 0x6040 0x6040 1 1 2 1 0 2 2 0 true false .special,
  rwE 0x6040 0x6040 2 2 2 1 2 2 0 0 true false .special,
  rwE 0x6100 0x6100 1 2 4 4 1 3 1 0x10003 true true .setting, rwE 0x6100 0x6100 3 3 4 4 1 3 1 0x10000 true true .setting,
  rwE 0x6100 0x6100 4 4 4 4 1 3 1 0x10007 true true .setting, rwE 0x6100 0x6100 5 5 4 4 1 3 1 0x10000 true true .setting,
  rwE 0x6100 0x6100 6 9 4 4 1 3 1 0x100000 true true .setting, rwE 0x6100 0x6100 10 10 4 4 1 3 1 0x10000 true true .setting,
  rwE 0x6101 0x6101 1 1 4 4 1 3 1 1000 true true .setting, rwE 0x6102 0x6102 1 1 2 1 0 2 0 0 true false .special,
  roE 0x6103 0x6103 1 1 5 8 .special, roE 0x6104 0x6104 1 10 5 8 .counter, roE 0x6105 0x6105 1 1 5 8 .counter,
  rwE 0x6110 0x6110 1 1 8 16 3 3 0 0 true false .special, roE 0x6111 0x6111 1 1 3 2 .special,
  roE 0x6111 0x6111 2 2 5 8 .counter,
  roE 0x6200 0x6200 1 8 5 8 .counter, roE 0x6201 0x6201 1 32 5 8 .counter, roE 0x6202 0x6202 1 8 5 8 .counter,
  roE 0x6203 0x6203 1 4 5 8 .counter, roE 0x6204 0x6204 1 32 5 8 .counter, roE 0x6205 0x6205 1 4 5 8 .counter,
  roE 0x6206 0x6206 1 3 5 8 .counter,
  rwE 0x6210 0x6210 1 1 3 2 1 3 1 0 true false .setting, rwE 0x6210 0x6210 2 2 4 4 1 3 3 1000 false false .setting,
  roE 0x6210 0x6210 3 5 5 8 .counter, rwE 0x6211 0x6211 1 120 4 4 1 3 3 0 true false .setting,
  roE 0x6212 0x6212 1 1 7 1024 .special, rwE 0x6212 0x6212 2 2 5 8 1 3 3 0 false false .special,
  roE 0x6212 0x6212 3 3 7 1024 .special,
  rwE 0x6220 0x6220 1 1 3 2 3 3 0 0 true false .setting, rwE 0x6220 0x6220 2 2 4 4 3 3 0 0x780 true false .setting,
  rwE 0x6220 0x6220 3 3 1 1 3 3 0 0 true false .setting, rwE 0x6220 0x6220 4 4 1 1 3 3 0 1 true false .setting,
  ⟨0x6220, 0x6220, 5, 5, 5, 8, 1, 1, 0, 0, true, false, .special⟩, ⟨0x6220, 0x6220, 6, 7, 5, 8, 1, 1, 0, 0, true, false, .counter⟩,
  ⟨0x6220, 0x6220, 8, 8, 5, 8, 1, 1, 0, 0, true, false, .special⟩, rwE 0x6221 0x6221 1 1 5 8 3 3 0 0 false false .setting,
  ⟨0x6221, 0x6221, 2, 2, 7, 4096, 1, 1, 0, 0, false, false, .special⟩,
  roE 0x7000 0x7000 1 1 6 1 .special, roE 0x7000 0x7000 2 4 5 8 .special, roE 0x7000 0x7000 5 5 2 1 .special,
  rwE 0x7001 0x7001 1 1 2 1 2 2 0 0 true false .special, rwE 0x7002 0x7002 1 1 3 2 1 3 1 0 true false .setting,
  rwE 0x7002 0x7002 2 2 6 1 0 2 0 0 true false .special, rwE 0x7002 0x7002 3 3 2 1 1 3 1 0 true false .setting,
  roE 0x7002 0x7002 4 4 3 2 .special, rwE 0x7003 0x7003 1 16 4 4 1 3 1 0 true false .setting]

/-- Does the row hold the entry index.sub. -/
def Entry.holds (e : Entry) (i j : Nat) : Bool :=
  decide (e.lo ≤ i ∧ i ≤ e.hi) && decide (e.sublo ≤ j ∧ j ≤ e.subhi)

/-- The row of an index's range (Table 19.8), none where no chapter defines the entry. -/
def entryRow (i j : Nat) : Option Entry :=
  (if i < 0x2000 then entries1 else if i < 0x3000 then entries2 else if i < 0x4000 then entries3
   else if i < 0x6000 then entries4 else entries5).find? (·.holds i j)

/-- The default harvest list (R510), as its entries are written: the counters of Table 22.1 that the configuration has, then
0x6000.01 and .04, then 0x5000.02 and .03. -/
def defaultHarvest (c : Config) : List Nat :=
  let range : Nat → Nat → List Nat := fun i n => (List.range n).map fun k => i + (k + 1) * 2 ^ 16
  range 0x6200 c.memPorts ++ range 0x6201 c.links ++ range 0x6202 c.chipPorts ++ range 0x6203 c.hostPorts ++ range 0x6204 c.aus ++
    range 0x6205 c.samplers ++ range 0x6206 3 ++ [0x6000 + 2 ^ 16, 0x6000 + 4 * 2 ^ 16, 0x5000 + 2 * 2 ^ 16, 0x5000 + 3 * 2 ^ 16]

/-- The default of a setting: the row's, but for the quota of second-level entries and the harvest list, which follow from the
configuration. -/
def entryDefault (c : Config) (i j : Nat) : Nat :=
  if i = 0x5130 then c.tlb2 else if i = 0x6211 then (defaultHarvest c).getD (j - 1) 0 else match entryRow i j with
    | some e => e.dflt
    | none => 0

/-- Every row, in the order of the index map. -/
def allEntries : List Entry := entries1 ++ entries2 ++ entries3 ++ entries4 ++ entries5

end Sys2Proof.Machine
end

