-- ==== Sys2Proof/Machine/Fp.lean ====
section
/-! DEFINITION. Sys2Proof/Machine/Fp.lean: exact values, the element encodings of Table 4.2, rounding (R88 to R92)
and FP32 arithmetic under RNE, as the attention units, samplers, bridge lanes and reduction lanes use it. -/
namespace Sys2Proof.Machine

/-- An exact value: NaN, an infinity, or ± num / den with `neg` also the sign of zero. -/
inductive Fp where
  | nan
  | inf (neg : Bool)
  | fin (neg : Bool) (num den : Nat)
  deriving DecidableEq, Repr

/-- A float element encoding: exponent and fraction widths, bias, and its specials (0 none, 1 NaN only,
2 infinities and NaN; SPECIALS of Table 4.7). -/
structure FloatFmt where
  ebits : Nat
  mbits : Nat
  bias : Nat
  specials : Nat
  deriving DecidableEq, Repr

/-- The encodings of Table 4.2. -/
def fmtF32 : FloatFmt := { ebits := 8, mbits := 23, bias := 127, specials := 2 }
/-- FP16. -/
def fmtF16 : FloatFmt := { ebits := 5, mbits := 10, bias := 15, specials := 2 }
/-- BF16. -/
def fmtBf16 : FloatFmt := { ebits := 8, mbits := 7, bias := 127, specials := 2 }
/-- FP8-E4M3. -/
def fmtE4m3 : FloatFmt := { ebits := 4, mbits := 3, bias := 7, specials := 1 }
/-- FP8-E5M2. -/
def fmtE5m2 : FloatFmt := { ebits := 5, mbits := 2, bias := 15, specials := 2 }
/-- FP6-E3M2. -/
def fmtE3m2 : FloatFmt := { ebits := 3, mbits := 2, bias := 3, specials := 0 }
/-- FP6-E2M3. -/
def fmtE2m3 : FloatFmt := { ebits := 2, mbits := 3, bias := 1, specials := 0 }
/-- FP4-E2M1. -/
def fmtE2m1 : FloatFmt := { ebits := 2, mbits := 1, bias := 1, specials := 0 }

/-- ± mant × 2^k as an exact value. -/
def fpScale (neg : Bool) (mant : Nat) (k : Int) : Fp :=
  if k < 0 then .fin neg mant (2 ^ k.natAbs) else .fin neg (mant * 2 ^ k.natAbs) 1

/-- The value an element encoding has (R77). -/
def decodeFloat (f : FloatFmt) (bits : Nat) : Fp :=
  let neg := bits.testBit (f.ebits + f.mbits)
  let e := (bits >>> f.mbits) % 2 ^ f.ebits
  let m := bits % 2 ^ f.mbits
  if f.specials = 2 ∧ e = 2 ^ f.ebits - 1 then (if m = 0 then .inf neg else .nan)
  else if f.specials = 1 ∧ e = 2 ^ f.ebits - 1 ∧ m = 2 ^ f.mbits - 1 then .nan
  else if e = 0 then fpScale neg m (1 - (f.bias : Int) - f.mbits)
  else fpScale neg (2 ^ f.mbits + m) ((e : Int) - f.bias - f.mbits)

/-- The encoding of the largest finite magnitude. -/
def maxFiniteBits (f : FloatFmt) : Nat :=
  if f.specials = 2 then (2 ^ f.ebits - 1) * 2 ^ f.mbits - 1
  else if f.specials = 1 then 2 ^ (f.ebits + f.mbits) - 2
  else 2 ^ (f.ebits + f.mbits) - 1

/-- The canonical NaN of an encoding (R79); 0 where it has none. -/
def nanBits (f : FloatFmt) : Nat :=
  if f.specials = 2 then (2 ^ f.ebits - 1) * 2 ^ f.mbits + 2 ^ (f.mbits - 1)
  else if f.specials = 1 then 2 ^ (f.ebits + f.mbits) - 1 else 0

/-- floor(log2(num / den)) of a positive rational. -/
def floorLog2 (num den : Nat) : Int :=
  let g : Int := (num.log2 : Int) - den.log2
  let atLeast (k : Int) : Bool :=
    if k < 0 then decide (den ≤ num * 2 ^ k.natAbs) else decide (den * 2 ^ k.natAbs ≤ num)
  if atLeast (g + 1) then g + 1 else if atLeast g then g else g - 1

/-- floor or round of num / den to an integer: RNE where `r` is none (R89), else stochastic with the drawn byte
(R92: away from zero when r < floor(256 × remainder)). -/
def roundQuot (r : Option Nat) (num den : Nat) : Nat :=
  let q := num / den
  let rem := num % den
  match r with
  | none => if 2 * rem > den ∨ (2 * rem = den ∧ q % 2 = 1) then q + 1 else q
  | some b => if b < 256 * rem / den then q + 1 else q

/-- `num / den` compared: a/b ≤ c/d. -/
def ratLe (a b c d : Nat) : Bool := decide (a * d ≤ c * b)

/-- Conversion of an exact value to a float encoding (R89 to R92): the bits, and whether it saturated. -/
def encodeFloat (f : FloatFmt) (sat : Bool) (r : Option Nat) (v : Fp) : Nat × Bool :=
  let signBit (neg : Bool) : Nat := if neg then 2 ^ (f.ebits + f.mbits) else 0
  let beyond (neg : Bool) (sat : Bool) : Nat × Bool :=
    if f.specials = 2 ∧ !sat then (signBit neg + (2 ^ f.ebits - 1) * 2 ^ f.mbits, false)
    else (signBit neg + maxFiniteBits f, true)
  match v with
  | .nan => (nanBits f, false)
  | .inf neg => beyond neg sat
  | .fin neg num den =>
    if num = 0 then (signBit neg, false) else
    let e0 := floorLog2 num den
    let emin : Int := 1 - f.bias
    let e := if e0 < emin then emin else e0
    let k : Int := f.mbits - e
    let n := if k < 0 then roundQuot r num (den * 2 ^ k.natAbs) else roundQuot r (num * 2 ^ k.natAbs) den
    match fpScale false n (e - f.mbits), decodeFloat f (maxFiniteBits f) with
    | .fin _ a b, .fin _ c d =>
      if !ratLe a b c d then beyond neg (sat || r.isSome)
      else if n < 2 ^ f.mbits then (signBit neg + n, false)
      else if n = 2 ^ (f.mbits + 1) then (signBit neg + (e + 1 + f.bias).toNat * 2 ^ f.mbits, false)
      else (signBit neg + (e + f.bias).toNat * 2 ^ f.mbits + (n - 2 ^ f.mbits), false)
    | _, _ => (signBit neg, false)

/-- Conversion to a two's complement integer of `w` bits scaled by 2^-frac, least value `lo`: the bits, whether it
saturated, and whether a NaN became 0 (R90, R91, R80). -/
def encodeInt (w frac : Nat) (symmetric : Bool) (r : Option Nat) (v : Fp) : Nat × Bool × Bool :=
  let top := 2 ^ (w - 1) - 1
  let bot := if symmetric then top else top + 1
  let put (neg : Bool) (n : Nat) : Nat := if neg then (2 ^ w - n) % 2 ^ w else n
  match v with
  | .nan => (0, false, true)
  | .inf neg => (put neg (if neg then bot else top), true, false)
  | .fin neg num den =>
    let n := roundQuot r (num * 2 ^ frac) den
    let lim := if neg then bot else top
    if n > lim then (put neg lim, true, false) else (put neg n, false, false)

/-- The value of a two's complement integer of `w` bits scaled by 2^-frac. -/
def decodeInt (w frac bits : Nat) : Fp :=
  let b := bits % 2 ^ w
  if b ≥ 2 ^ (w - 1) then .fin true (2 ^ w - b) (2 ^ frac) else .fin false b (2 ^ frac)

/-! ## Exact arithmetic on values -/

/-- Negation. -/
def Fp.neg : Fp → Fp
  | .nan => .nan
  | .inf s => .inf (!s)
  | .fin s n d => .fin (!s) n d

/-- Whether a value is NaN or an infinity. -/
def Fp.special : Fp → Bool
  | .fin _ _ _ => false
  | _ => true

/-- Whether a value is NaN. -/
def Fp.isNan : Fp → Bool
  | .nan => true
  | _ => false

/-- The magnitude as a rational; 0 for a special. -/
def Fp.mag : Fp → Nat × Nat
  | .fin _ n d => (n, d)
  | _ => (0, 1)

/-- Exact sum; opposite infinities give NaN, an exact cancellation gives +0 (IEEE 754 under RNE). -/
def Fp.add : Fp → Fp → Fp
  | .nan, _ => .nan
  | _, .nan => .nan
  | .inf a, .inf b => if a = b then .inf a else .nan
  | .inf a, _ => .inf a
  | _, .inf b => .inf b
  | .fin a n d, .fin b m e =>
    let x := n * e
    let y := m * d
    if x = 0 ∧ y = 0 then .fin (a && b) 0 1
    else if a = b then .fin a (x + y) (d * e)
    else if x = y then .fin false 0 1
    else if x > y then .fin a (x - y) (d * e)
    else .fin b (y - x) (d * e)

/-- Exact product. -/
def Fp.mul : Fp → Fp → Fp
  | .nan, _ => .nan
  | _, .nan => .nan
  | .inf a, .inf b => .inf (a != b)
  | .inf a, .fin b m _ => if m = 0 then .nan else .inf (a != b)
  | .fin a n _, .inf b => if n = 0 then .nan else .inf (a != b)
  | .fin a n d, .fin b m e => .fin (a != b) (n * m) (d * e)

/-- Exact quotient. -/
def Fp.div : Fp → Fp → Fp
  | .nan, _ => .nan
  | _, .nan => .nan
  | .inf _, .inf _ => .nan
  | .inf a, .fin b _ _ => .inf (a != b)
  | .fin a _ _, .inf b => .fin (a != b) 0 1
  | .fin a n d, .fin b m e =>
    if m = 0 then (if n = 0 then .nan else .inf (a != b)) else .fin (a != b) (n * e) (d * m)

/-- Exact order of two values that are not NaN: a ≤ b, with −0 and +0 equal. -/
def Fp.le : Fp → Fp → Bool
  | .inf true, _ => true
  | _, .inf false => true
  | .inf false, _ => false
  | _, .inf true => false
  | .fin a n d, .fin b m e =>
    let x := n * e
    let y := m * d
    if x = 0 ∧ y = 0 then true
    else if a ∧ !b then true
    else if !a ∧ b then decide (x = 0 ∧ y = 0)
    else if a then decide (y ≤ x) else decide (x ≤ y)
  | _, _ => false

/-- a < b. -/
def Fp.lt (a b : Fp) : Bool := !a.isNan && !b.isNan && !Fp.le b a

/-! ## FP32 -/

/-- The exact value of an FP32 word. -/
def f32 (x : BitVec 32) : Fp := decodeFloat fmtF32 x.toNat
/-- One rounding to FP32 under RNE. -/
def toF32 (v : Fp) : BitVec 32 := BitVec.ofNat 32 (encodeFloat fmtF32 false none v).1
/-- One FP32 addition. -/
def f32Add (a b : BitVec 32) : BitVec 32 := toF32 ((f32 a).add (f32 b))
/-- One FP32 subtraction. -/
def f32Sub (a b : BitVec 32) : BitVec 32 := toF32 ((f32 a).add (f32 b).neg)
/-- One FP32 multiplication. -/
def f32Mul (a b : BitVec 32) : BitVec 32 := toF32 ((f32 a).mul (f32 b))
/-- One FP32 division. -/
def f32Div (a b : BitVec 32) : BitVec 32 := toF32 ((f32 a).div (f32 b))
/-- The exact operand folded into an FP32 accumulator with one rounding (R171). -/
def f32Acc (acc : BitVec 32) (v : Fp) : BitVec 32 := toF32 ((f32 acc).add v)
/-- FP32 −∞. -/
def f32NegInf : BitVec 32 := 0xFF800000
/-- FP32 1.0. -/
def f32One : BitVec 32 := 0x3F800000
/-- The canonical FP32 NaN (R79). -/
def f32Nan : BitVec 32 := 0x7FC00000

/-- The greater of two FP32 words; a NaN operand gives NaN and max(−0, +0) is +0 (R171). -/
def f32Max (a b : BitVec 32) : BitVec 32 :=
  if (f32 a).isNan || (f32 b).isNan then f32Nan
  else if (f32 a).lt (f32 b) then b else if (f32 b).lt (f32 a) then a
  else if a = 0x80000000 then b else a

/-! ## The exponential and the logarithm, with the error the manual allows -/

/-- ln 2 × 2^160, rounded down. -/
def ln2Fixed : Nat := 0xb17217f7d1cf79abc9e3b39803f2f6af40f34326

/-- Taylor terms of e^r at 2^-160: `term` is the current term, `i` its index. -/
def expTaylor : Nat → Nat → Nat → Nat → Nat
  | 0, _, _, _ => 0
  | n + 1, i, r, term => term + expTaylor n (i + 1) r (term * r / 2 ^ 160 / (i + 1))

/-- e^(±num/den) as a mantissa T and exponent k: the value lies within 2^12 units of T × 2^(k − 160). -/
def expFixed (neg : Bool) (num den : Nat) : Nat × Int :=
  let x := num * 2 ^ 160 / den
  let k := x / ln2Fixed
  let r := x % ln2Fixed
  if neg then
    if r = 0 then (2 ^ 160, -(k : Int))
    else (expTaylor 60 0 (ln2Fixed - r) (2 ^ 160), -(k : Int) - 1)
  else (expTaylor 60 0 r (2 ^ 160), k)

/-- The exponential of an FP32 word in FP32: the unit's own answer where its relative error is at most 2^-22
(R109), else the nearest FP32 value; e^0 is 1 (R149). -/
def f32Exp (x : BitVec 32) : BitVec 32 :=
  match f32 x with
  | .nan => f32Nan
  | .inf true => 0
  | .inf false => 0x7F800000
  | .fin neg num den =>
    if num = 0 then f32One
    else if num > 200 * den then (if neg then 0 else 0x7F800000)
    else
      let tk := expFixed neg num den
      let own := Config.expF32 x
      match f32 own, fpScale false (tk.1 - 2 ^ 12) (tk.2 - 160), fpScale false (tk.1 + 2 ^ 12) (tk.2 - 160) with
      | .fin false n d, .fin _ la lb, .fin _ ha hb =>
        if ratLe (la * (2 ^ 22 - 1)) (lb * 2 ^ 22) n d && ratLe n d (ha * (2 ^ 22 + 1)) (hb * 2 ^ 22)
        then own else toF32 (fpScale false tk.1 (tk.2 - 160))
      | _, _, _ => toF32 (fpScale false tk.1 (tk.2 - 160))

/-- Terms of atanh z = z + z^3/3 + … at 2^-160. -/
def atanhSeries : Nat → Nat → Nat → Nat → Nat
  | 0, _, _, _ => 0
  | n + 1, i, z2, p => p / (2 * i + 1) + atanhSeries n (i + 1) z2 (p * z2 / 2 ^ 160)

/-- ln(num/den) × 2^160 as an integer, for a positive rational; within 2^16 units. -/
def lnFixed (num den : Nat) : Int :=
  let k := floorLog2 num den
  let ab : Nat × Nat := if k < 0 then (num * 2 ^ k.natAbs, den) else (num, den * 2 ^ k.natAbs)
  let z := (ab.1 - ab.2) * 2 ^ 160 / (ab.1 + ab.2)
  let z2 := z * z / 2 ^ 160
  k * ln2Fixed + 2 * (atanhSeries 70 0 z2 z : Int)

/-- An exact integer at 2^-160 as a value. -/
def fpOfFixed (x : Int) : Fp := .fin (decide (x < 0)) x.natAbs (2 ^ 160)

/-- A log-probability in FP32 whose exact value is x × 2^-160: the unit's own answer where its absolute error is at
most 2^-20 (R152), else the nearest FP32 value. -/
def f32Log (num den : Nat) (x : Int) : BitVec 32 :=
  let own := Config.lnF32 num den
  match (f32 own).add (fpOfFixed x).neg with
  | .fin _ n d => if ratLe n d (2 ^ 140 + 2 ^ 16) (2 ^ 160) then own else toF32 (fpOfFixed x)
  | _ => toF32 (fpOfFixed x)

/-- The index order in which `n` products are summed: the open order where it is a rearrangement, else ascending. -/
def sumOrderOf (key n : Nat) : List Nat :=
  let p := Config.sumOrder key n
  if p.length = n ∧ (List.range n).all (p.contains ·) then p else List.range n

end Sys2Proof.Machine
end

