-- ==== Sys2Proof/Machine/Parts.lean ====
section
/-! DEFINITION. Sys2Proof/Machine/Parts.lean: the parts of the machine's state, one structure per unit of the hub
core, as plain data. A field carries the name the manual gives it, and its docstring the rule that names it. -/
namespace Sys2Proof.Machine

/-! ## Requests and their replies -/

/-- Where the outcome of a line request, a fabric operation or a DMA goes. -/
inductive ReplyTo where
  /-- An operand line of a command: command, device line address. -/
  | cmdLine (cmd dev : Nat)
  /-- The acknowledgement of a command's write. -/
  | cmdWrite (cmd : Nat)
  /-- A translation walk's table line (R411): partition, device page, the number of the read. -/
  | walk (p page read : Nat)
  /-- A descriptor fetch (R377). -/
  | fetch (q : Nat)
  /-- The translation entry of a fence word that a descriptor names: 1 the wait's, 2 the signal's (Table 15.6). -/
  | probe (q which : Nat)
  /-- A completion record write (R384). -/
  | record (q : Nat)
  /-- A fence read for the queue's waiting command (R394). -/
  | fence (q : Nat)
  /-- A fence signal's atomic (R392). -/
  | signal (cmd : Nat)
  /-- A message of another member (R274): arrival link and its keyed session, issuer, its tag, its partition, whether
  it asks for data, and the units it holds in the receive buffer until it is answered (R184, R253, R279). -/
  | link (l sess src otag part : Nat) (ret : Bool) (units : Nat)
  /-- A chiplet port request of a session of the port (R305), and its units in the receive buffer. -/
  | chip (c sess otag : Nat) (ret : Bool) (units : Nat)
  /-- A fabric operation of the hub's own issue (R276), by its OTAG. -/
  | otag (o : Nat)
  /-- An operation of the home served for a combining entry. -/
  | combine (e : Nat)
  /-- The rekey sweep's read ahead of the edge (R233). -/
  | sweep (line : Nat)
  /-- A write of a translation table: of a map request, or of its zeroing (R403, R407). -/
  | table (p : Nat) (map : Bool)
  /-- A scrub's clearing write (R222). -/
  | scrub (m : Nat)
  /-- A line of the vigil snapshot of a sequence (R488). -/
  | snapshot (seq : Nat)
  /-- A line of the harvest record of a SEQ (R512). -/
  | harvest (seq : Nat)
  /-- A trace region write (R515). -/
  | trace
  /-- No one waits for it. -/
  | none
  deriving DecidableEq, Repr, Inhabited

/-- The outcome of a request: completion code, error code and the data it returns. -/
structure Result where
  code : Code
  err : Nat
  data : Bytes
  deriving DecidableEq, Repr

/-- What a request does to one line (R274, R281). -/
inductive Access where
  | load
  | store (data : Bytes)
  | partialStore (mask : Nat) (data : Bytes)
  | atomic (op : Nat) (wide : Bool) (offset operand : Nat)
  deriving DecidableEq, Repr, Inhabited

/-- A request waiting at a line's order point (R214, R279): its contender, the partition and engine class it is
judged by (R196; class 16 stands for code 0b11 of CLS), and the arbitrations its head has lost. -/
structure LineReq where
  line : Nat
  acc : Access
  part : Nat
  cls : Nat
  contender : Nat
  reply : ReplyTo
  losses : Nat
  remote : Bool
  /-- The place of its arrival among the requests of this hub. -/
  seq : Nat
  deriving DecidableEq, Repr, Inhabited

/-! ## Memory ports (chapters 8 and 9) -/

/-- A region record (Table 8.3). STATE: 0 free, 1 initialising, 2 live, 3 sweeping, 4 retiring. -/
structure Region where
  base : Nat := 0
  pages : Nat := 0
  kind : Nat := 0
  part : Nat := 0
  state : Nat := 0
  slot : Nat := 0
  gen : Nat := 0
  /-- Where the wet edge stood when its sweep was interrupted: lines below it are under g + 1 (R238, R239). -/
  edge : Nat := 0
  deriving DecidableEq, Repr, Inhabited

/-- The class in which a lane serves a request (R217, R237, R428, R429): page moves, rekey sweep, region initialisation, the writer
class, the masters and what the engine reads and writes for them. -/
inductive LaneClass where
  | move
  | sweep
  | init
  | writer
  | master
  deriving DecidableEq, Repr, Inhabited

/-- A line of the metadata cache (R208). KIND: 0 tag line, 1 counter line, 2 node. -/
structure CacheLine where
  data : Bytes := []
  kind : Nat := 0
  dirty : Bool := false
  pins : Nat := 0
  lru : Nat := 0
  fails : Nat := 0
  writing : Bool := false
  /-- The bytes of the write-back under way or failed: a retry sends them again (R206). -/
  snap : Bytes := []
  /-- Its parent's counter is at its end: it stays pinned (R206). -/
  ended : Bool := false
  /-- The class that its write-back is charged to: a sweep's or an initialisation's where one made it dirty (R237). -/
  cls : LaneClass := .master
  deriving DecidableEq, Repr, Inhabited

/-- What a lane request is for. -/
inductive LanePurpose where
  /-- The data read of the operation at an order point. -/
  | op (line : Nat)
  /-- The read of a tag line, counter line or node that the operation at an order point asked for; every operation that waits for
  the line is given it. -/
  | fetch (line : Nat)
  /-- The write of a line's held copy. -/
  | data (line : Nat)
  /-- A write-back of the metadata cache (R206). -/
  | writeBack
  /-- A formatting write (R194). -/
  | format
  deriving DecidableEq, Repr, Inhabited

/-- A request offered to or outstanding on a lane of the line port (Table 2.3). -/
structure LaneReq where
  write : Bool
  addr : Nat
  mdata : Bool
  data : Bytes
  why : LanePurpose
  cls : LaneClass := .master
  late : Bool := false
  deriving DecidableEq, Repr, Inhabited

/-- The operation a line's order point has taken and not finished (R205, R216): the metadata and data lines it still
waits for, those that arrived, and the first failure met, marked where the data line met it. -/
structure LineOp where
  req : LineReq
  need : List Nat
  got : Tbl Bytes
  fail : Option (Code × Nat × Bool)
  deriving DecidableEq, Repr, Inhabited

/-- An easel entry taken by a lane read, or a read that waits for one (R209): the order point it serves, the line read, and whether
it was reserved at issue because metadata was missing (or by a read ahead of the wet edge, R233). An entry is freed when its order
point's operation ends, which also clears what failed verification (R210); the plaintext of a read ahead keeps one until the edge
reaches it. -/
structure EaselEntry where
  line : Nat
  addr : Nat
  missed : Bool
  deriving DecidableEq, Repr, Inhabited

/-- A line's order point (R214, R280): the operation in progress, the requester served last (round robin of R279),
the held copy, whether a write of the line is outstanding and whether the held copy is newer than it, whether a
full-line store is among what the newer copy merged, and who waits for either write. The held copy is kept as plaintext:
the engine seals it when its write is offered. -/
structure OrderPoint where
  op : Option LineOp := none
  last : Nat := 0
  held : Option Bytes := none
  outstanding : Bool := false
  unwritten : Bool := false
  full : Bool := false
  acks : List (ReplyTo × Bytes) := []
  nextAcks : List (ReplyTo × Bytes) := []
  /-- Poisoning waits for the counter line (R220): attempts failed so far. -/
  poisonTry : Option Nat := none
  /-- The outstanding write is the sweep's (R238). -/
  sweepWrite : Bool := false
  deriving DecidableEq, Repr, Inhabited

/-- A page transition register (R218, R219): the page's counter line, the old MAJOR, the lines moved, whether the
move is to the next generation, and the failed reads of each line whose move read is to be retried. -/
structure Transition where
  page : Nat
  oldMajor : Nat
  moved : List Nat
  toNext : Bool
  fails : Tbl Nat
  deriving DecidableEq, Repr, Inhabited

/-- The rekey sweep engine of a port (R230 to R238). STATE as Table 9.5. -/
structure Sweep where
  state : Nat := 0
  region : Nat := 0
  fromGen : Nat := 0
  edge : Nat := 0
  queued : List Nat := []
  /-- Plaintext held ahead of the edge. -/
  ahead : Tbl Bytes := []
  /-- Reads ahead that are outstanding. -/
  asked : List Nat := []
  /-- Consecutive failures of a read ahead. -/
  fails : Tbl Nat := []
  /-- Lines whose read ahead failed for good: the edge passes them (R236). -/
  skip : List Nat := []
  /-- The pinned counter line of the page holding the edge, and the pinned tag line covering it (R233). -/
  pinned : List Nat := []
  /-- The regions that the running automatic round queued, and whether the interval expired meanwhile (R230). -/
  round : List Nat := []
  roundDue : Bool := false
  roundAt : Nat := 0
  /-- Sweep bytes charged to this window (R237). -/
  used : Nat := 0
  deriving DecidableEq, Repr, Inhabited

/-- A background job of a port that writes lines one by one: formatting, region initialisation, scrub. -/
structure LineJob where
  region : Nat
  next : Nat
  stop : Nat
  outstanding : Nat := 0
  /-- Failed writes of each line, to be sent again. -/
  fails : Tbl Nat := []
  deriving DecidableEq, Repr, Inhabited

/-- One memory port: its sealing engine, line port and sweep engine. STATE: 0 down, 1 unformatted, 2 formatting,
3 ready, 4 failed (0x3000). -/
structure MemPort where
  state : Nat := 0
  ctrlUp : Bool := false
  mode : Nat := 1
  dcap : Nat := 0
  treeSlot : Nat := 0
  regions : Tbl Region := []
  root : Tbl Nat := []
  cache : Tbl CacheLine := []
  clock : Nat := 0
  waiting : List LineReq := []
  points : Tbl OrderPoint := []
  offered : List LaneReq := []
  /-- Easel entries in use, and the reads that wait for one, in order (R209). -/
  easel : List EaselEntry := []
  easelWait : List EaselEntry := []
  tags : Tbl LaneReq := []
  transitions : List Transition := []
  sweep : Sweep := {}
  fmt : Option LineJob := none
  init : List LineJob := []
  scrub : Option LineJob := none
  derate : Nat := 255
  /-- Lines that are poisoned now, in tree mode (0x3046). -/
  poisoned : List Nat := []
  /-- The master a lane served last among those below their minimum (R428). -/
  turn : Nat := 0
  /-- Of the sweep class, initialisation was served last (R237); bytes of the writer class in this window (R429). -/
  initTurn : Bool := false
  writerUsed : Nat := 0
  deriving DecidableEq, Repr, Inhabited

/-! ## Messages, links and chiplet ports (chapters 10 to 12) -/

/-- A message of a Spaek link (Table 10.2) with the bytes after its header. -/
structure Msg where
  mtype : Nat
  addr : Nat := 0
  src : Nat := 0
  dst : Nat := 0
  otag : Nat := 0
  adapt : Bool := false
  part : Nat := 0
  pgen : Nat := 0
  cls : Nat := 3
  body : Bytes := []
  deriving DecidableEq, Repr, Inhabited

/-- What a peer's last HELLO said (Table 10.8). -/
structure Hello where
  member : Nat := 0
  isMember : Bool := false
  link : Nat := 0
  level : Nat := 0
  domain : Nat := 0
  deriving DecidableEq, Repr, Inhabited

/-- The frame machinery one direction pair needs: sequences, replay buffer, queues and receive buffers (R252 to
R256, R299 to R302). Units are 16 bytes; a queued unit is marked when it starts a message. -/
structure FrameSide where
  txSeq : Nat := 0
  rxSeq : Nat := 0
  replay : Tbl Bytes := []
  /-- Transmit queues, one per virtual channel. -/
  txq : Tbl (List (Bool × Bytes)) := []
  /-- Units of a message not yet complete, per virtual channel. -/
  partialRx : Tbl (List Bytes) := []
  acked : Nat := 0
  nakDue : Bool := false
  nakHold : Bool := false
  hunting : Bool := false
  refusals : Nat := 0
  /-- A NAK received and not yet served: the acknowledgement it carried. -/
  replayFrom : Option Nat := none
  /-- The next frame's turn among VC1 and VC0, and VC3 frames since (R251). -/
  turn : Nat := 0
  /-- The partition whose message left last (R428). -/
  master : Nat := 0
  sinceVc3 : Nat := 16
  /-- The sequence after the last frame that carried an abort (R478). -/
  abortEnd : Nat := 0
  /-- Messages, with their channels, that their sources hold while the 32 KB of transmit queues are full (R254, R302). -/
  held : List (Nat × List (Bool × Bytes)) := []
  deriving DecidableEq, Repr, Inhabited

/-- An SPDM session or handshake the hub takes part in (Table 14.1). -/
structure Session where
  /-- 0 none, 1 versions agreed, 2 chain checked, 3 measurements checked, 4 handshake, 5 established. -/
  stage : Nat := 0
  requester : Bool := false
  exportMaster : Bytes := []
  /-- Mutual attestation in the encapsulated flow (R351, R352): the peer's chains hold, its measurements hold. -/
  chainOk : Bool := false
  measOk : Bool := false
  /-- A KEY_UPDATE of this end waits for its answer (R258). -/
  updateAsked : Bool := false
  /-- Digests that an admitted chiplet showed (Table 14.5): anchor and measurements. -/
  anchor : Bytes := []
  measured : Bytes := []
  /-- The last ML-DSA-65 signature and the request it answered (R354). -/
  heldPq : Option (Nat × Bytes) := none
  /-- The messages exchanged so far, which the transcript hash of a signature covers (R354). -/
  messages : List Bytes := []
  deriving DecidableEq, Repr, Inhabited

/-- A Spaek link (chapter 10). STATE as Table 10.6. -/
structure Link where
  state : Nat := 0
  pcsUp : Bool := false
  /-- Held in physical reset (R66). -/
  inReset : Bool := false
  trainReq : Bool := false
  peer : Option Hello := none
  /-- LEVEL and member ID of the peer's last HELLO: its rank, known also once the link is down (R268, R270). -/
  rank : Option (Nat × Nat) := none
  sentHello : Bool := false
  slot : Option Nat := none
  fs : FrameSide := {}
  /-- Messages received whole and not yet acted on. -/
  rx : List Msg := []
  /-- Reserved credits held toward the peer per channel, shared credits, operation credits (Table 10.5). -/
  credits : Tbl Nat := []
  shared : Nat := 4608
  opc : Nat := 8192
  /-- Units occupied per channel here, and credits owed to the peer. -/
  occupied : Tbl Nat := []
  owed : Tbl Nat := []
  owedShared : Nat := 0
  owedOpc : Nat := 0
  vc0Held : Nat := 0
  /-- The credits that the peer may still spend, as this end counts them (R252, 0x2007). -/
  peerCredits : Tbl Nat := []
  peerShared : Nat := 4608
  /-- Keyed sessions of the link so far: an answer owed to an earlier one returns no credit. -/
  sess : Nat := 0
  session : Session := {}
  lastErr : Nat := 0
  /-- A key update: running, and the sequence from which this end seals under the next generation (R258). -/
  update : Bool := false
  updateX : Option Nat := none
  rxNew : Bool := false
  withhold : Bool := false
  /-- A key update fell due while an image is staged (R364). -/
  updateDue : Bool := false
  /-- A fresh session is being attested while the link stays keyed (R260); the key update under way moves to that session's keys. -/
  rekeying : Bool := false
  fresh : Bool := false
  /-- Was this end the requester of the session that a key generation comes from: the current one, and the next (R257). -/
  asked : Bool := false
  askedNext : Bool := false
  /-- MCTP packets received whose message the security controller has not taken yet (R249). -/
  mctp : List Bytes := []
  idleSent : Bool := false
  peerLow : Bool := false
  wakeSent : Bool := false
  holdoff : Bool := false
  boundRunning : Bool := false
  deriving DecidableEq, Repr, Inhabited

/-- A chiplet's palette entry (Table 4.8). STATE: 0 empty, 1 registered, 2 refused. -/
structure Palette where
  pref : Nat := 0
  result : Nat := 0
  round : Nat := 0
  sat : Bool := false
  state : Nat := 0
  accept : Nat := 0
  why : Nat := 0
  deriving DecidableEq, Repr, Inhabited

/-- A message of a chiplet port (R304). -/
structure ChipMsg where
  mtype : Nat
  addr : Nat := 0
  otag : Nat := 0
  code : Nat := 0
  err : Nat := 0
  body : Bytes := []
  deriving DecidableEq, Repr, Inhabited

/-- One delivery or stream part queued at a bridge lane (R164): the command, its partition, the message to send, and
whether it is the command's last. -/
structure LaneItem where
  cmd : Nat
  part : Nat
  msg : ChipMsg
  last : Bool
  deriving DecidableEq, Repr, Inhabited

/-- A chiplet port with its session engine and bridge lane (chapters 6 and 12). STATE as Table 12.1. -/
structure Chip where
  state : Nat := 0
  lastErr : Nat := 0
  bound : Option Nat := none
  /-- Held in physical reset (R66). -/
  inReset : Bool := false
  modules : Nat := 0
  used : Nat := 0
  session : Session := {}
  slot : Option Nat := none
  fs : FrameSide := {}
  rx : List ChipMsg := []
  /-- Units of the chiplet's receive buffer the hub may still fill (R302). -/
  credits : Nat := 0
  /-- Units of the hub's own receive buffer that requests of the chiplet occupy. -/
  rxUnits : Nat := 0
  owed : Nat := 0
  owedOpc : Nat := 0
  /-- Request messages received and not yet answered (R302). -/
  opsHeld : Nat := 0
  /-- Sessions of the port so far: an answer owed to an earlier one is dropped. -/
  sess : Nat := 0
  updateDue : Bool := false
  /-- 0 awake, 1 STANDBY sent, 2 in standby, 3 waking (R303). -/
  standby : Nat := 0
  /-- The count of units queued at STANDBY's end: nothing behind it is sent before the port is awake again (R303). -/
  standbyAt : Nat := 0
  retryDue : Bool := false
  palette : Palette := {}
  update : Bool := false
  updateX : Option Nat := none
  rxNew : Bool := false
  withhold : Bool := false
  /-- The key update under way moves the port to the keys of a fresh session (R318). -/
  fresh : Bool := false
  boundRunning : Bool := false
  holdoff : Bool := false
  /-- lp_state_req, and the credits returned with lp_cfg_crd (R46). -/
  stateReq : Nat := 0
  cfgCredits : Nat := 0
  /-- The bridge lane: deliveries waiting, streams active in round-robin order, those waiting. -/
  deliveries : List LaneItem := []
  streams : List Nat := []
  queuedStreams : List Nat := []
  /-- Converted rows of the active streams, at most one row of each, in order. -/
  rows : List LaneItem := []
  /-- Units queued for the chiplet and units sent since the port was admitted; for each message that some command waits
  for, the command and the count at its last unit (R122). -/
  unitsIn : Nat := 0
  unitsOut : Nat := 0
  marks : List (Nat × Nat) := []
  /-- For each stream row not yet wholly transmitted, its command and the count of units at the row's end (R168). -/
  rowMarks : List (Nat × Nat) := []
  /-- The stream whose row has been sent in part. -/
  midRow : Option Nat := none
  ran : Nat := 0
  lastPart : Nat := 0xFF
  /-- The lane's conversion registers: the bytes of the row or delivery it served last (R164). -/
  conv : Bytes := []
  /-- Frames discarded in isolation (Table 12.1). -/
  discarded : Nat := 0
  deriving DecidableEq, Repr, Inhabited

/-- A host session slot (R310) and the selective IDE stream it carries. -/
structure HostSlot where
  held : Bool := false
  port : Nat := 0
  session : Session := {}
  stream : Option Nat := none
  /-- Key cells written, per (sub-stream, direction, set) number, masked with the leaf's slot (R311). -/
  cells : Tbl Bytes := []
  activeSet : Option Nat := none
  secure : Bool := false
  /-- Invocations of each sub-stream so far, sent and received. -/
  txCount : Tbl Nat := []
  rxCount : Tbl Nat := []
  leaf : Nat := 0
  /-- The generation of its leaf while that holds the session's key, and the session binding value of that key (Table 13.7), masked. -/
  keyGen : Option Nat := none
  binding : Bytes := []
  deriving DecidableEq, Repr, Inhabited

/-- A TDI (Table 12.8). STATE: 0 CONFIG_UNLOCKED, 1 CONFIG_LOCKED, 2 RUN, 3 ERROR. -/
structure Tdi where
  state : Nat := 0
  slot : Nat := 0
  stream : Nat := 0
  part : Nat := 0
  ctxBase : Nat := 0
  ctxCount : Nat := 0
  /-- STOP_INTERFACE waits for the context resets (R313), and so does a function-level reset (R316). -/
  stopping : Bool := false
  flr : Bool := false
  deriving DecidableEq, Repr, Inhabited

/-- A non-posted DMA request the hub issued (R292). -/
structure DmaTag where
  reply : ReplyTo
  ctx : Nat
  /-- The port was reset while the read was outstanding: it ends at its own bounded timeout (R66). -/
  lost : Bool := false
  deriving DecidableEq, Repr, Inhabited

/-- A host port. -/
structure HostPort where
  lastErr : Nat := 0
  dma : Tbl DmaTag := []
  /-- Reads that wait for one of the 4,096 tags (R292): outcome, context, address. -/
  dmaWaiting : List (ReplyTo × Nat × Nat) := []
  /-- The master of the port that took a tag last (R428). -/
  master : Nat := 0
  inReset : Bool := false
  /-- A function-level reset of function 0 waits for the context resets (R316). -/
  flr : Bool := false
  /-- The IDE capability and TDISP registers of the configuration window (R48), per function and dword. -/
  cfg : Tbl Nat := []
  /-- The DOE mailbox of function 0: the object being written, the last one handed over, the outputs of the block at that time, and
  the words of its answer that were read. -/
  doeIn : List Nat := []
  doeObject : List Nat := []
  doeAt : Option Nat := none
  doeRead : Nat := 0
  deriving DecidableEq, Repr, Inhabited

/-! ## Fabric and combining (chapters 7 and 11) -/

/-- A fabric operation of the hub's own issue (R276, R288). -/
structure Otag where
  acc : Access := .load
  inval : Bool := false
  dst : Nat := 0
  line : Nat := 0
  part : Nat := 0
  ctx : Option Nat := none
  source : Nat := 0
  reply : ReplyTo := .none
  cacheable : Bool := false
  /-- Delivered to its requester but not installed (R287, R291). -/
  noInstall : Bool := false
  /-- It has looked in the remote-read cache and missed: a second try counts nothing. -/
  missed : Bool := false
  ret : Bool := true
  cls : Nat := 0
  /-- The combining entry whose joiners its response answers (R185, R186). -/
  entry : Option Nat := none
  /-- Freed by its timeout and still reserved (R289). -/
  reserved : Bool := false
  /-- Its bounded timeout has passed (R67). -/
  timed : Bool := false
  /-- The link it left by. -/
  via : Option Nat := none
  deriving DecidableEq, Repr, Inhabited

/-- A line of the remote-read cache (R283). -/
structure RemoteLine where
  addr : Nat
  part : Nat
  data : Bytes
  lru : Nat
  deriving DecidableEq, Repr, Inhabited

/-- One joiner of a combining entry (R185, R186): its reply route as a message to answer, and its operand. -/
structure Joiner where
  reply : ReplyTo
  operand : Nat
  ret : Bool
  deriving DecidableEq, Repr, Inhabited

/-- A contribution chunk (Table 7.2) with its decoded FP32 elements or its raw bytes. -/
structure Chunk where
  slot : Nat := 0
  epoch : Nat := 0
  fmt : Nat := 0
  index : Nat := 0
  count : Nat := 0
  op : Nat := 0
  combine : Bool := false
  elems : Nat := 0
  home : Nat := 0
  part : Nat := 0
  md : Bytes := []
  data : Bytes := []
  deriving DecidableEq, Repr, Inhabited

/-- Who is owed the acknowledgement of a chunk: a link, a chiplet port, a local reduce command. -/
inductive ChunkFrom where
  | link (l sess : Nat) (header : Bytes)
  | chip (c sess otag : Nat) (header : Bytes)
  | cmd (id : Nat)
  deriving DecidableEq, Repr, Inhabited

/-- A combining entry (R184). KIND: 0 read, 1 atomic, 2 chunk. -/
structure Comb where
  kind : Nat := 0
  addr : Nat := 0
  part : Nat := 0
  op : Nat := 0
  wide : Bool := false
  operand : Nat := 0
  joiners : List Joiner := []
  closed : Bool := false
  departed : Bool := false
  /-- Where the opener came from, and for a read or atomic the request that goes upstream. -/
  arrived : Option Nat := none
  msg : Msg := { mtype := 0 }
  chunk : Chunk := {}
  acc : List (BitVec 32) := []
  froms : List ChunkFrom := []
  opened : Nat := 0
  deriving DecidableEq, Repr, Inhabited

/-- A reduction slot (R174, R177): counts and accumulators per chunk, and the chunks sent on and not acknowledged. -/
structure Slot7 where
  part : Nat := 0
  slot : Nat := 0
  epoch : Nat := 0
  cmd : Nat := 0
  op : Nat := 0
  elems : Nat := 0
  total : Nat := 0
  counts : Tbl Nat := []
  acc : Tbl (List (BitVec 32)) := []
  done : List Nat := []
  deriving DecidableEq, Repr, Inhabited

/-- A chunk held at its home for a slot that is not open (R177): who is owed the acknowledgement of what it carries and, where it
opened a combining entry, the FP32 accumulator of the chunks joined (R179). -/
structure HeldChunk where
  chunk : Chunk
  froms : List ChunkFrom
  acc : Option (List (BitVec 32)) := none
  deriving DecidableEq, Repr, Inhabited

/-- A chunk record kept until CHUNK_ACK returns over the link it left by (R250). -/
structure ChunkRec where
  link : Nat
  header : Bytes
  froms : List ChunkFrom
  deriving DecidableEq, Repr, Inhabited

/-- A fixed-route message that waits out the hold of R271: where it arrived, none for one of this hub's own; the link and keyed session
whose receive buffer and operation credit it holds until it leaves (R253); for a chunk, who is owed its acknowledgement. -/
structure RouteHeld where
  arrived : Option Nat
  msg : Msg
  back : Option (Nat × Nat) := none
  froms : List ChunkFrom := []
  deriving DecidableEq, Repr, Inhabited

/-! ## Queues, objects, contexts, partitions (chapters 15 to 17) -/

/-- A context (Table 15.1) and its control page (Table 15.2). STATE: 0 free, 1 active, 2 resetting. -/
structure Ctx where
  state : Nat := 0
  part : Nat := 0
  scratch : Nat := 0
  chipDb : Nat := 0
  qbase : Nat := 0
  qcount : Nat := 0
  faultVec : Nat := 0
  resets : Nat := 0
  fault : Bool := false
  faultErr : Nat := 0
  faults : Nat := 0
  faultsSinceReset : Nat := 0
  qcfgOp : Nat := 0
  qcfgDone : Bool := false
  qcfgErr : Bool := false
  qcfgCause : Nat := 0
  qcfgQ : Nat := 0
  qcfgRing : Nat := 0
  qcfgCring : Nat := 0
  qcfgState : Nat := 0
  qcfgCount : Nat := 0
  slots : Tbl Nat := []
  /-- A reset asked for and not begun (R396, R476, R68). -/
  resetDue : Bool := false
  /-- The running reset came from a destroy, and the commands that asked for it (CTX_RESET). -/
  destroying : Bool := false
  /-- The reset of a destroy is over and its objects' frees wait for their quiescence (R371, R389). -/
  freeing : Bool := false
  resetCmds : List Nat := []
  aborted : Bool := false
  deriving DecidableEq, Repr, Inhabited

/-- A completion record waiting to be written (Table 15.7). -/
structure Rec where
  cmd : Nat
  desc : Nat
  code : Code
  err : Nat
  detail : Nat
  irq : Bool
  deriving DecidableEq, Repr, Inhabited

/-- A hardware queue (R372). STATE: 0 disabled, 1 enabled, 2 error, 3 disabling. -/
structure Queue where
  state : Nat := 0
  ring : Nat := 0
  rlog : Nat := 0
  cring : Nat := 0
  clog : Nat := 0
  vec : Nat := 0x7F
  tail : Nat := 0
  head : Nat := 0
  ctail : Nat := 0
  chead : Nat := 0
  qb : Nat := 0
  /-- A descriptor being fetched, or fetched and being checked (R377). -/
  fetching : Bool := false
  fetched : Option Bytes := none
  /-- The translation entries of its fence words by device page (Table 15.6 row 5); the pages asked for, and those that failed. -/
  probes : Tbl Nat := []
  probing : List Nat := []
  probeFails : Tbl (Code × Nat) := []
  accepted : Option Nat := none
  started : List Nat := []
  reserved : Nat := 0
  records : List Rec := []
  recBusy : Bool := false
  /-- The first command since the queue was enabled that did not complete with OK (R393). -/
  failedAt : Option Nat := none
  /-- Doorbells held while the context resets, byte enables and value (Table 15.9). -/
  heldBells : List (Nat × Nat) := []
  /-- The reset's TAIL (R397). -/
  progress : Nat := 0
  deriving DecidableEq, Repr, Inhabited

/-- An object table entry (R386 to R390). -/
structure Obj where
  gen : Nat := 1
  live : Bool := false
  retired : Bool := false
  pendingFree : Bool := false
  /-- The free that waits, and the commands accepted before it that it waits for (R389). -/
  freeCmd : Nat := 0
  quiesce : List Nat := []
  owner : Nat := 0
  base : Nat := 0
  size : Nat := 0
  shared : Bool := false
  rd : Bool := true
  wr : Bool := false
  deriving DecidableEq, Repr, Inhabited

/-- One page of an attention shard: batch member, device page base, valid tokens, and whether its AU lies outside the group
of its home port (R123). -/
structure KvPage where
  member : Nat
  base : Nat
  tokens : Nat
  away : Bool := false
  /-- Its place in the page list. -/
  idx : Nat := 0
  deriving DecidableEq, Repr, Inhabited

/-- The running softmax of one pair (b, h) (R117). -/
structure Soft where
  m : BitVec 32
  l : BitVec 32
  o : List (BitVec 32)
  deriving DecidableEq, Repr, Inhabited

/-- A command's shard on one AU (R124). -/
structure Shard where
  au : Nat
  pages : List KvPage
  started : Bool
  soft : List Soft
  finished : Bool
  merged : Bool
  deriving DecidableEq, Repr, Inhabited

/-- A token and its FP32 score. -/
abbrev Scored := Nat × BitVec 32

/-- A sampler (R141, R153, R154): the sampler buffer with the score of each token, the two histogram banks, the tie buffer and
the candidate list, the running maximum and sum of R151, and the DRBG block it keeps drawn ahead (R150). -/
structure Sampler where
  scores : List (BitVec 32) := []
  bankA : Tbl Nat := []
  bankB : Tbl Nat := []
  ties : List Scored := []
  cands : List Scored := []
  top : BitVec 32 := 0xFF800000
  sum : BitVec 32 := 0
  ahead : Bytes := []
  /-- The token record that waits for its bitmap update (R160). -/
  out : Option Bytes := none
  deriving DecidableEq, Repr, Inhabited

/-- An accepted command (R377). PHASE: 0 accepted, 1 started, 2 finished. -/
structure Cmd where
  q : Nat := 0
  ctx : Nat := 0
  part : Nat := 0
  desc : Nat := 0
  index : Nat := 0
  qb : Nat := 0
  phase : Nat := 0
  opcode : Nat := 0
  /-- The wait of the header: passed, being read, watched (R394). -/
  waitPassed : Bool := true
  waitBusy : Bool := false
  watched : Bool := false
  fenceLine : Nat := 0
  code : Code := .ok
  err : Nat := 0
  detail : Nat := 0
  /-- A record entry is reserved for it (R384). -/
  reserved : Bool := false
  /-- Operand lines by device address, those asked for, writes outstanding, the first failure. -/
  got : Tbl Bytes := []
  asked : List Nat := []
  writes : Nat := 0
  fail : Option (Code × Nat) := none
  stage : Nat := 0
  palette : Palette := {}
  /-- The objects that its handles named at acceptance, by the handles' places in the descriptor (R386, R389). -/
  objs : Tbl Obj := []
  /-- The AU that R123 chose for an append (R130). -/
  au : Option Nat := none
  shards : List Shard := []
  total : List Soft := []
  /-- The sets of a merge command that are at hand, in the order they arrived (R181). -/
  setOrder : List Nat := []
  /-- Rows, tokens or chunks already done. -/
  done : Nat := 0
  pendingFrames : Nat := 0
  acksDue : Nat := 0
  /-- The signal: 0 none or not due, 1 issued, 2 ended; its fence word's device address, from the slot as it was at acceptance (R374). -/
  sig : Nat := 0
  sigWord : Nat := 0
  deriving DecidableEq, Repr, Inhabited

/-- A partition record (Table 17.1) and what its removal, reset or resize has reached. -/
structure Part where
  state : Nat := 0
  mode : Nat := 0
  qbase : Nat := 0
  qcount : Nat := 0
  auMask : Nat := 0
  staging : Nat := 0
  kgen : Nat := 0
  job : Nat := 0
  /-- 0x5201. -/
  step : Nat := 0
  revoked : Bool := false
  fenced : Bool := false
  resetting : Bool := false
  resetDue : Bool := false
  aborted : Bool := false
  /-- Bytes of the staging share in use: by reduction accumulators. Descriptor payloads and operands in transit are drawn from the share
  too (R416), and their sizes are nowhere stated: the model counts none for them (DESIGN CHOICE, log entry 112). -/
  stagingUsed : Nat := 0
  /-- Staging units reserved for it: a removed share counts until it is scrubbed (R421). -/
  stagingHeld : Nat := 0
  deriving DecidableEq, Repr, Inhabited

/-- A translation record (Table 16.1). -/
structure Trans where
  port : Nat := 0
  region : Nat := 0
  dsize : Nat := 0
  enable : Bool := false
  zeroing : Bool := false
  zeroFailed : Bool := false
  cursor : Nat := 0
  outstanding : Nat := 0
  deriving DecidableEq, Repr, Inhabited

/-- A cached translation: partition, device page, table entry, last use. -/
structure TlbEntry where
  part : Nat
  page : Nat
  entry : Nat
  lru : Nat
  deriving DecidableEq, Repr, Inhabited

/-- A request waiting for a translation (R410): the stream's buffer, what it does and where its outcome goes. -/
structure XReq where
  buf : Nat
  part : Nat
  ctx : Option Nat
  dev : Nat
  acc : Access
  cls : Nat
  source : Nat
  reply : ReplyTo
  ret : Bool
  /-- A bitmap update never reaches a host page (R315). -/
  noHost : Bool := false
  /-- Asks for the translation entry alone. -/
  probe : Bool := false
  deriving DecidableEq, Repr, Inhabited

/-- A walk (R410, R411): its partition and page, whether the walker has admitted it, whether a mapping changed it
underway, its line once read, and the requests that wait. -/
structure Walk where
  part : Nat
  page : Nat
  buf : Nat
  issued : Bool
  /-- The number of its read: an answer to an earlier walk of the page is none to this one. -/
  read : Nat := 0
  again : Bool
  line : Option Result
  waiting : List XReq
  deriving DecidableEq, Repr, Inhabited

/-- A map request (Table 16.3) in progress: status, pages written, the next page, and the line being merged. -/
structure MapJob where
  record : Nat := 0
  status : Nat := 0
  written : Nat := 0
  outstanding : Bool := false
  waiting : Bool := false
  deriving DecidableEq, Repr, Inhabited

/-! ## Keys and randomness (chapter 13) -/

/-- A key slot: its directory entry (Table 13.3) and its cells, held XOR the mask (R337). -/
structure KeySlot where
  state : Nat := 0
  kind : Nat := 0
  parent : Nat := 0
  next : Bool := false
  use : Nat := 0
  /-- The default use mask of its kind (R339). -/
  dfltUse : Nat := 0
  pgen : Nat := 0
  gen : Nat := 0
  nextCell : Nat := 0
  nonce : Nat := 0
  cell : Bytes := []
  nextSeed : Bytes := []
  /-- The physical row of a leaf's cell (R337). -/
  row : Nat := 0
  /-- What the derivation context names: member, port, region. -/
  member : Nat := 0
  port : Nat := 0
  region : Nat := 0
  deriving DecidableEq, Repr, Inhabited

/-- A CTR_DRBG instance (R341). -/
structure Drbg where
  live : Bool := false
  key : Bytes := []
  v : Bytes := []
  requests : Nat := 0
  deriving DecidableEq, Repr, Inhabited

/-- The key store, the key-slot port registers (Table 13.8) and the scrubber. -/
structure KeyStore where
  slots : Tbl KeySlot := []
  mask : Bytes := []
  scramble : Nat := 0
  cmd : Nat := 0
  done : Bool := false
  err : Bool := false
  cause : Nat := 0
  slotReg : Nat := 0
  arg : Nat := 0
  ctx : Nat := 0
  seed : Bytes := []
  dir : Bytes := []
  scrubAt : Nat := 0
  /-- Engine key caches: engine, slot, generation (R329). -/
  caches : List (Nat × Nat × Nat) := []
  deriving DecidableEq, Repr, Inhabited

/-- The general cipher engine (Table 13.12). -/
structure Gce where
  ctrl : Nat := 0
  done : Bool := false
  err : Bool := false
  fault : Bool := false
  cause : Nat := 0
  keysel : Nat := 0
  key : Option Bytes := none
  din : Bytes := []
  dout : Bytes := []
  ctr : Bytes := []
  y : Bytes := []
  h : Bytes := []
  shaBlk : Bytes := []
  digest : List Nat := []
  deriving DecidableEq, Repr, Inhabited

/-- The DRBG instances and the entropy input: instance 0 is the master. -/
structure Random where
  inst : Tbl Drbg := []
  stopped : Bool := false
  words : List Nat := []
  seed : Option Bytes := none
  reseedAt : Nat := 0
  deriving DecidableEq, Repr, Inhabited

/-! ## The security controller: agent, identity, life cycle, alarms, faults, records -/

/-- A management session (R350, R450, R451). -/
structure MgmtSession where
  spdm : Session := {}
  role : Role := .none
  keyId : Nat := 0
  /-- The enrolled digest that the role was granted with (R452). -/
  digest : Bytes := []
  challenge : Option (Bytes × Nat) := none
  /-- An open segmented write: index, sub, bytes so far. -/
  buffer : Option (Nat × Nat × Bytes) := none
  deriving DecidableEq, Repr, Inhabited

/-- An audit record (Table 19.9). -/
structure Audit where
  seq : Nat
  loc : Nat
  event : Nat
  role : Nat
  session : Nat
  index : Nat
  sub : Nat
  code : Nat
  value : Nat
  keyId : Nat
  chain : Bytes
  deriving DecidableEq, Repr, Inhabited

/-- A notice (Table 20.3). -/
structure Note where
  kind : Nat
  scope : Nat
  err : Nat
  part : Option Nat
  ctx : Nat
  loc : Nat
  a : Nat
  b : Nat
  deriving DecidableEq, Repr, Inhabited

/-- An alarm event waiting to be counted (R499): source, partition, unit, error code. -/
structure AlarmPend where
  sub : Nat
  part : Option Nat
  unit : Nat
  err : Nat
  deriving DecidableEq, Repr, Inhabited

/-- The dictionary agent and the audit log (chapter 19). -/
structure Agent where
  sessions : Tbl MgmtSession := []
  ring : List Audit := []
  nextSeq : Nat := 0
  chain : Bytes := []
  readTo : Option Nat := none
  overwritten : Nat := 0
  checkpoint : Bytes := []
  refusedLogins : Nat := 0
  holdoff : Bool := false
  notices : List Note := []
  deriving DecidableEq, Repr, Inhabited

/-- A connection of a requester with the hub's responder: 0 nothing agreed, 1 version, 2 capabilities, 3 algorithms; the
last ML-DSA-65 signature it was sent and the request that answered (R354). -/
structure Conn where
  stage : Nat := 0
  heldPq : Option (Nat × Bytes) := none
  /-- The messages exchanged since GET_VERSION (R354). -/
  messages : List Bytes := []
  deriving DecidableEq, Repr, Inhabited

/-- Identity and firmware (chapter 14) and the image area (R530). FW: 0 running, 1 staged, 2 committing. -/
structure Firmware where
  fw : Nat := 0
  image : Bytes := []
  version : Nat := 0
  svn : Nat := 0
  staged : Bytes := []
  stagedSvn : Nat := 0
  /-- 0x4130.01, .03 and .04. -/
  offset : Nat := 0
  command : Nat := 0
  reason : Nat := 0
  /-- DeviceID public keys and self-signed certificates, alias certificates, and the alias key seeds the firmware holds
  (R356, R357): ECDSA, ML-DSA-65. -/
  devEc : Bytes := []
  devPq : Bytes := []
  devCertEc : Bytes := []
  devCertPq : Bytes := []
  aliasCertEc : Bytes := []
  aliasCertPq : Bytes := []
  aliasEc : Bytes := []
  aliasPq : Bytes := []
  /-- The written Maker chains (R358). -/
  chainEc : Bytes := []
  chainPq : Bytes := []
  composite : Bytes := []
  /-- 0x7000.05: 0 before an image is verified, 1 loaded at power-on, 2 kept across a block reset. -/
  source : Nat := 0
  /-- The connection each peer has with the responder (R350, R353), by the peer's number. -/
  conns : Tbl Conn := []
  deriving DecidableEq, Repr, Inhabited

/-- Life cycle and debug (chapter 18). CONFIRM is 0x1101.03, DEBUG 0x1102.04. -/
structure LifeCycle where
  state : Life := .blank
  vote : Nat := 0
  counted : Nat := 0
  copies : List Nat := []
  target : Option Nat := none
  confirm : Nat := 0
  requester : Role := .none
  /-- Provisioning entries written since power-on (R440), by subindex. -/
  written : List Nat := []
  debug : Nat := 0
  /-- The steps of the clearing have been taken (R444). -/
  cleared : Bool := false
  challenge : Bytes := []
  challengeAt : Nat := 0
  response : Bytes := []
  failures : Nat := 0
  /-- The bypass register of the debug port (R54): one bit, 0 at reset (IEEE 1149.1 captures 0). -/
  tap : Bool := false
  deriving DecidableEq, Repr, Inhabited

/-- Alarms and injection (chapter 21). -/
structure Alarms where
  pending : List AlarmPend := []
  counts : Tbl Nat := []
  active : List Nat := []
  point : Nat := 0
  unit : Nat := 0
  count : Nat := 0
  ctx : Nat := 0
  deriving DecidableEq, Repr, Inhabited

/-- A vigil snapshot being written (R488): its sequence, its local count, its bytes and the lines it waits for. -/
structure Snap where
  seq : Nat
  loc : Nat
  bytes : Bytes
  left : Nat
  deriving DecidableEq, Repr, Inhabited

/-- A block fault in progress (R478). PHASE: 0 none, 1 snapshot, 2 aborts, 3 hold, 4 reset requested. -/
structure Faults where
  phase : Nat := 0
  errCode : Nat := 0
  kept : Nat := 0
  blockFaults : Nat := 0
  snapSeq : Nat := 0
  snapAt : Nat := 0
  snap : Bytes := []
  /-- Lines of snapshots outstanding, and the snapshots they belong to. -/
  snapLeft : Nat := 0
  snaps : List Snap := []
  abortSeq : Nat := 0
  /-- Abort identities seen, the last 64 (R250). -/
  seen : List (Nat × Nat) := []
  /-- Nodes noticed as stalled or declared hung, with the progress they had then (R484, R486). -/
  stalled : Tbl Nat := []
  hung : Tbl Nat := []
  /-- The local count of each node's last progress (R483), by its snapshot-entry key. -/
  last : Tbl Nat := []
  /-- The value that a waiting queue's fence word had at the last read. -/
  fenceSeen : Tbl Nat := []
  deriving DecidableEq, Repr, Inhabited

/-- The harvest and the event trace (chapter 22). -/
structure Records where
  seq : Nat := 0
  listGen : Nat := 0
  missed : Nat := 0
  gap : Bool := false
  resumed : Nat := 0
  latest : Bytes := []
  /-- The records of the harvest region as the security controller wrote them, by slot. -/
  ring : Tbl Bytes := []
  selected : Option Nat := none
  /-- The record being written: lines not yet acknowledged, its slot, and whether a line failed. -/
  writing : Nat := 0
  slot : Nat := 0
  writeBad : Bool := false
  traceSeq : Nat := 0
  fifo : List (Nat × Bool) := []
  fifoLost : Nat := 0
  staging : List (List Nat) := []
  stagingLost : Nat := 0
  offset : Nat := 0
  /-- The lines of the trace region as the security controller wrote them. -/
  history : Tbl Bytes := []
  deriving DecidableEq, Repr, Inhabited

/-- Power and regulation (chapters 3 and 17). -/
structure Power where
  state : Nat := 0
  /-- Function-level resets (port, function) and partition fences that wait for S0 (R68, R73). -/
  flrDue : List (Nat × Nat) := []
  fenceDue : List Nat := []
  exiting : Option Nat := none
  entering : Option Nat := none
  tolerance : Nat := 0xFFFFFFFF
  exits : Nat := 0
  residency : Tbl Nat := []
  ltr : List Nat := []
  /-- Bytes counted per (port, partition) in this window (R427), and which ports are in shortfall. -/
  used : Tbl Nat := []
  scale : Tbl Nat := []
  shortfall : List Nat := []
  /-- The scale factors of 0x5240 that differ from 1, in units of 2^-16. -/
  factor : Tbl Nat := []
  deriving DecidableEq, Repr, Inhabited

/-- Start-up, membership and joining (chapter 24). -/
structure Bring where
  por : Bool := true
  ready : Bool := false
  /-- Loader: bytes received in phase 4, verifying in phase 5, tag of GO. -/
  phase : Nat := 0
  halted : Bool := false
  readyAt : Nat := 0
  gate : Bool := false
  gateAt : Nat := 0
  member : Bool := false
  memberId : Nat := 0
  domain : Nat := 0
  memberAt : Nat := 0
  join : Nat := 0
  joinReason : Nat := 0
  joinLink : Nat := 0
  goTag : Nat := 0
  rstReq : Bool := false
  /-- This start follows a block reset: its first notice says so (R475). -/
  again : Bool := false
  deriving DecidableEq, Repr, Inhabited

/-! ## What leaves the block -/

/-- What the block puts on its ports, in order: the model's own record of its outputs. -/
inductive Out where
  | lineReq (port lane tag : Nat) (write : Bool) (addr : Nat) (mdata : Bool) (data : Bytes)
  | frame (l : Nat) (beats : Bytes)
  | chipFrame (c module : Nat) (beats : Bytes)
  | tlp (h fn : Nat) (write : Bool) (addr : Nat) (data : Bytes) (stream : Option Nat) (tag : Nat) (mac : Bytes)
  | tlpCompletion (h tag status : Nat) (data : Bytes) (stream : Option Nat) (mac : Bytes)
  | dict (session : Option Nat) (tag index sub abort : Nat) (data : Bytes)
  | loader (op tag status : Nat)
  | spdm (p : Peer) (what : Nat) (body : Bytes)
  | spdmRequest (p : FramePort) (what : Nat) (body : Bytes)
  | ideKm (h slot what : Nat) (body : Bytes)
  | tdisp (h slot what : Nat) (body : Bytes)
  | cfgDone (h : Nat) (rdata : Option Nat)
  | flrDone (h fn : Nat)
  | traceWord (word : Nat) (last : Bool)
  | fuse (addr bits : Nat)
  | tdo (bit : Bool)
  deriving DecidableEq, Repr

end Sys2Proof.Machine
end

