-- ==== Sys2Proof/Machine/State.lean ====
section
/-! DEFINITION. Sys2Proof/Machine/State.lean: the machine's state, its reset value, and the reasons a step stops. -/
namespace Sys2Proof.Machine

/-- Why the block stops. Each is raised by the operation named, and stopping is safe: the hub core goes on. -/
inductive Fault where
  /-- A command names a unit the configuration does not have (R15): no such port exists to take it. Safe. -/
  | absentUnit
  deriving DecidableEq, Repr

/-- Why a command has no meaning here. -/
inductive Refusal where
  /-- The model gives the command no meaning yet: raised by the dispatcher alone. Safe. -/
  | notModelled (mnemonic : String)
  deriving DecidableEq, Repr

/-- The state of one hub core: everything the manual gives the block, as plain data, the configuration it was
generated with (R34), the model's own queue of waiting commands, record of outputs and free-value counter. -/
structure State where
  cfg : Config
  pending : List Instr
  out : List Out
  /-- Outcomes on their way to whoever waits for them: empty between commands. -/
  due : List (ReplyTo × Result)
  freeCount : Nat
  /-- The local count (R63). -/
  loc : Nat
  /-- Counters of the dictionary, keyed 256 × index + subindex, absent ones 0 (R508). -/
  ctr : Tbl Nat
  /-- Settings of the dictionary that differ from their defaults, keyed likewise. -/
  settings : Tbl Nat
  fuses : Tbl Nat
  bring : Bring
  power : Power
  agent : Agent
  fw : Firmware
  life : LifeCycle
  alarms : Alarms
  faults : Faults
  records : Records
  keys : KeyStore
  gce : Gce
  random : Random
  mem : Tbl MemPort
  links : Tbl Link
  chips : Tbl Chip
  hosts : Tbl HostPort
  slots : Tbl HostSlot
  tdis : Tbl Tdi
  /-- Route tables: staging and live (R269, R270), and members whose fixed messages are held (R271). -/
  stagingRoutes : Tbl Nat
  liveRoutes : Tbl Nat
  routeHold : List RouteHeld
  routeHeld : List Nat
  otags : Tbl Otag
  otagNext : Nat
  heldOps : List Otag
  rcache : Tbl RemoteLine
  comb : Tbl Comb
  rslots : Tbl Slot7
  early : List HeldChunk
  chunkRecs : List ChunkRec
  parts : Tbl Part
  ctxs : Tbl Ctx
  queues : Tbl Queue
  cmds : Tbl Cmd
  cmdNext : Nat
  objs : Tbl Obj
  objLive : Nat
  watch : List (Nat × Nat)
  trans : Tbl Trans
  tlb1 : Tbl (List TlbEntry)
  tlb2 : Tbl (List TlbEntry)
  walks : List Walk
  walkTurn : Nat
  clock : Nat
  mapJob : MapJob
  auOwner : Tbl Nat
  auQueue : Tbl (List Nat)
  auLastCtx : Tbl Nat
  samplerPart : Tbl Nat
  samplerFifo : Tbl (List Nat)
  samplerTurn : Nat
  /-- The command each sampler holds (R142). -/
  samplerCmd : Tbl Nat
  /-- What each sampler holds (R141). -/
  samplers : Tbl Sampler
  /-- The partition that the accumulate lanes served last (R170). -/
  lanesTurn : Nat
  deriving DecidableEq, Repr

/-- The block right after reset: held in power-on reset, the fuse macro blank, every register at the reset value
the manual states, everything else empty. The configuration is SH9-F (DESIGN CHOICE, log entry 1). -/
def State.reset : State where
  cfg := Config.sh9f
  pending := []
  out := []
  due := []
  freeCount := 0
  loc := 0
  ctr := []
  settings := []
  fuses := []
  bring := {}
  power := {}
  agent := {}
  fw := {}
  life := {}
  alarms := {}
  faults := {}
  records := {}
  keys := {}
  gce := {}
  random := {}
  mem := []
  links := []
  chips := []
  hosts := []
  slots := []
  tdis := []
  stagingRoutes := []
  liveRoutes := []
  routeHold := []
  routeHeld := []
  otags := []
  otagNext := 0
  heldOps := []
  rcache := []
  comb := []
  rslots := []
  early := []
  chunkRecs := []
  parts := []
  ctxs := []
  queues := []
  cmds := []
  cmdNext := 0
  objs := []
  objLive := 0
  watch := []
  trans := []
  tlb1 := []
  tlb2 := []
  walks := []
  walkTurn := 0
  clock := 0
  mapJob := {}
  auOwner := []
  auQueue := []
  auLastCtx := []
  samplerPart := []
  samplerFifo := []
  samplerTurn := 0
  samplerCmd := []
  samplers := []
  lanesTurn := 0

end Sys2Proof.Machine
end

