-- ==== Sys2Proof/Machine/Ops.lean ====
section
/-! DEFINITION. Sys2Proof/Machine/Ops.lean: the named operations over the state that every chapter shares: counters
and settings, free values, notices, the audit log, errors and integrity events, the trace, random draws, and the one
path that every dictionary write takes. -/
namespace Sys2Proof.Machine

/-- The key of the dictionary entry index.sub. -/
def ekey (i j : Nat) : Nat := 256 * i + j

/-- The value of a counter (R508). -/
def State.count (s : State) (i j : Nat) : Nat := tblGet s.ctr (ekey i j) 0

/-- Does the unit that keeps the counters of an index run (R73): in S2 and S3 those of the arithmetic units, memory ports, links,
chiplet and host ports, translation and regulation hold, and in S3 those of the queue manager and the vigil too. The security
controller, whose clock always runs, keeps 0x3321 (DEDUCED, log entry 106). -/
def State.countsNow (s : State) (i : Nat) : Bool :=
  let k := s.power.state
  let stopped := decide ((0x2000 ≤ i ∧ i < 0x4000 ∧ i ≠ 0x3321) ∨ (0x5100 ≤ i ∧ i < 0x6000))
  let queues := decide ((0x5000 ≤ i ∧ i < 0x5100) ∨ (0x6000 ≤ i ∧ i < 0x6100))
  k ≤ 1 || !(stopped || (k = 3 && queues))

/-- Add `n` to a counter, which does not wrap (R508) and holds its value while the unit that keeps it is stopped (R73). -/
def State.bumpBy (s : State) (i j n : Nat) : State :=
  { s with ctr := if s.countsNow i then tblMod s.ctr (ekey i j) (fun v => capTo 64 (v + n)) 0 else s.ctr }

/-- Add one to a counter. -/
def State.bump (s : State) (i j : Nat) : State := s.bumpBy i j 1

/-- Set a counter entry to a value. -/
def State.setCount (s : State) (i j v : Nat) : State := { s with ctr := tblSet s.ctr (ekey i j) v 0 }

/-- The value of a setting, its default where nothing was written (R463). -/
def State.setting (s : State) (i j : Nat) : Nat := tblGet s.settings (ekey i j) (entryDefault s.cfg i j)

/-- Write a setting. -/
def State.setSetting (s : State) (i j v : Nat) : State :=
  { s with settings := tblSet s.settings (ekey i j) v (entryDefault s.cfg i j) }

/-- A value the manual leaves open, and the state that has used it up. -/
def State.free (s : State) : Nat × State := (Config.freeValue s.freeCount, { s with freeCount := s.freeCount + 1 })

/-- Put one output on a port. -/
def State.emit (s : State) (o : Out) : State := { s with out := s.out ++ [o] }

/-- The hub's own member ID for a layout: zero when not a member (R16). -/
def State.memberField (s : State) : Nat := if s.bring.member then s.bring.memberId else 0

/-- Queue a notice (R474, R475): a full queue of 256 discards its oldest, counted in 0x6000.08. -/
def State.note (s : State) (kind scope err : Nat) (part : Option Nat) (ctx a b : Nat) : State :=
  let n : Note := ⟨kind, scope, err, part, ctx, s.loc, a, b⟩
  if s.agent.notices.length < 256 then { s with agent := { s.agent with notices := s.agent.notices ++ [n] } }
  else ({ s with agent := { s.agent with notices := s.agent.notices.drop 1 ++ [n] } } : State).bump 0x6000 8

/-- A unit field of a notice (R474): kind and index. -/
def unitField (kind unit : Nat) : Nat := kind * 256 + unit

/-! ## The event trace (R513 to R515) -/

/-- The words of a trace record: header (Table 22.3), local count, payload. -/
def traceWords (s : State) (ty kind unit : Nat) (part : Option Nat) (code : Nat) (payload : List Nat) : List Nat :=
  (ty + (payload.length + 1) * 2 ^ 8 + kind * 2 ^ 12 + unit * 2 ^ 16 + part.getD 0 * 2 ^ 24 + bn part.isSome * 2 ^ 30 +
    code * 2 ^ 32 + s.records.traceSeq % 2 ^ 16 * 2 ^ 48) :: s.loc :: payload

/-- A gap record carrying the count of records discarded on a path. Its header carries the sequence of the record that follows it, which
takes the next one: a gap takes no value of its own (DESIGN CHOICE, log entry 100: R55 and R515 do not say). -/
def gapWords (s : State) (lost : Nat) : List Nat :=
  [1 + 2 * 2 ^ 8 + s.records.traceSeq % 2 ^ 16 * 2 ^ 48, s.loc, lost]

/-- Give each word of a record its place on the trace port: the last one raises tr_last. -/
def portWords : List Nat → List (Nat × Bool)
  | [] => []
  | [w] => [(w, true)]
  | w :: ws => (w, false) :: portWords ws

/-- The region path: a 64 KB staging buffer, 8,192 words; a full buffer discards and counts (0x6220.06), and a gap
record enters when space returns. -/
def State.traceRegion (s : State) (ws : List Nat) : State :=
  let r := s.records
  let held := (r.staging.map List.length).foldl (· + ·) 0
  let gap := if r.stagingLost = 0 then [] else [gapWords s r.stagingLost]
  if held + ws.length + 3 * gap.length ≤ 8192 then
    { s with records := { r with staging := r.staging ++ gap ++ [ws], stagingLost := 0 } }
  else ({ s with records := { r with stagingLost := r.stagingLost + 1 } } : State).bump 0x6220 6

/-- The port path (R55): a 256 KB FIFO, 32,768 words, with discards counted in 0x6220.07. -/
def State.tracePort (s : State) (ws : List Nat) : State :=
  let r := s.records
  let gap := if r.fifoLost = 0 then [] else gapWords s r.fifoLost
  if s.setting 0x6220 4 = 1 && s.cfg.tracePort then
    if r.fifo.length + ws.length + gap.length ≤ 32768 then
      { s with records := { r with fifo := r.fifo ++ portWords gap ++ portWords ws, fifoLost := 0 } }
    else ({ s with records := { r with fifoLost := r.fifoLost + 1 } } : State).bump 0x6220 7
  else s

/-- A record enters both paths independently and takes the next trace sequence. -/
def State.tracePut (s : State) (ws : List Nat) : State :=
  let s1 := if s.setting 0x6220 1 = 0 then s else s.traceRegion ws
  let s2 := s1.tracePort ws
  { s2 with records := { s2.records with traceSeq := s2.records.traceSeq + 1 } }

/-- An event of TYPE `ty`, recorded while the trace runs and the class mask enables it (R513, R515). -/
def State.trace (s : State) (ty kind unit : Nat) (part : Option Nat) (code : Nat) (payload : List Nat) : State :=
  if s.setting 0x6220 3 = 1 && bit (s.setting 0x6220 2) ty then s.tracePut (traceWords s ty kind unit part code payload)
  else s

/-- A unit's state changes (TYPE 0x08 of Table 22.4): the old state and the new one. -/
def State.stateTrace (s : State) (kind unit old new : Nat) : State :=
  if old = new then s else s.trace 8 kind unit none 0 [old + new * 2 ^ 8]

/-- A line access (TYPE 0x04 of Table 22.4): port, partition, line address, 0 read, 1 write or 2 partial write; the latency is
an open value (DEDUCED that the record is made as the order point takes the access, log entry 90). -/
def State.accessTrace (s : State) (m part line kind : Nat) : State :=
  s.trace 4 0 m (some part) 0 [line / 128 % 2 ^ 36 + kind * 2 ^ 36, Config.lineLatency s.loc s.records.traceSeq % 2 ^ 16]

/-! ## Errors, integrity events, alarms -/

/-- Record an error code raised by a unit at an address (R472, Table 22.1, TYPE 0x07 of Table 22.4). -/
def State.error (s : State) (kind unit : Nat) (part : Option Nat) (err addr : Nat) : State :=
  (s.bump 0x6206 1).trace 7 kind unit part err [addr]

/-- Pend an event of an alarm source (Table 21.1); its counting and response are the alarm event's (R499). -/
def State.alarm (s : State) (sub : Nat) (part : Option Nat) (unit err : Nat) : State :=
  { s with alarms := { s.alarms with pending := s.alarms.pending ++ [⟨sub, part, unit, err⟩] } }

/-- An integrity event of a unit (R473): its counter, the sum of 0x6206.02, a notice of kind 0x06, the alarm source. -/
def State.integrity (s : State) (idx sub kind unit : Nat) (part : Option Nat) (err addr src : Nat) : State :=
  ((((s.bump idx sub).bump 0x6206 2).error kind unit part err addr).note 6 0 err part 0 (unitField kind unit) addr).alarm
    src part (unitField kind unit) err

/-- Take one event of an armed injection point for a unit (R504), if it is armed. -/
def State.takeInjection (s : State) (point unit : Nat) : Option State :=
  let a := s.alarms
  if a.point = point && a.unit = unit && decide (0 < a.count) then
    let a1 : Alarms := if a.count = 1 then { a with point := 0, count := 0 } else { a with count := a.count - 1 }
    some (({ s with alarms := a1 } : State).bump 0x6111 2)
  else none

/-- The key of a node of the vigil's graph (Table 20.4): KIND × 2³² + ID. -/
def nodeKey (kind id : Nat) : Nat := kind * 2 ^ 32 + id

/-- A node makes progress (R483). -/
def State.touch (s : State) (kind id : Nat) : State :=
  { s with faults := { s.faults with last := tblPut s.faults.last (nodeKey kind id) s.loc } }

/-- What pw_state shows (R72): 0 from the first K-cycle of an exit to S0. -/
def State.powerState (s : State) : Nat := if s.power.exiting = some 0 then 0 else s.power.state

/-- An exit to S0 begins (R72): pw_state changes at once, and an entry under way is abandoned. -/
def State.beginExit (s : State) : State :=
  let p := s.power
  if p.exiting = some 0 || (p.state = 0 && p.entering.isNone) then s
  else { s with power := { p with entering := none, exiting := some 0 } }

/-- The key under which a window counts the bytes of a partition on a regulated port: memory ports 0 to 7, links 8 to 39,
host ports 40 to 43. -/
def usedKey (port part : Nat) : Nat := port * 64 + part

/-- Charge bytes to a partition on a regulated port (R427). -/
def State.charge (s : State) (port part n : Nat) : State :=
  { s with power := { s.power with used := tblMod s.power.used (usedKey port part) (· + n) 0 } }

/-- Send the outcome of a request to whoever waits for it. -/
def State.reply (s : State) (r : ReplyTo) (c : Code) (e : Nat) (d : Bytes) : State :=
  if r = .none then s else { s with due := s.due ++ [(r, ⟨c, e, d⟩)] }

/-! ## The audit log (R466 to R469) -/

/-- Bytes 0 to 39 of an audit record (Table 19.9). -/
def auditBytes (r : Audit) : Bytes :=
  leBytes 8 r.seq ++ leBytes 8 r.loc ++
  leBytes 8 (r.event + r.role * 2 ^ 8 + r.session * 2 ^ 12 + r.index * 2 ^ 16 + r.sub * 2 ^ 32 + r.code * 2 ^ 48) ++
  leBytes 8 r.value ++ leBytes 8 r.keyId

/-- An audit record as a reader sees it: 64 bytes. -/
def auditRecord (r : Audit) : Bytes := auditBytes r ++ r.chain

/-- Append a record: its chain value is the first 24 bytes of SHA-384 over the record before and bytes 0 to 39 (R468);
a full ring of 1,024 overwrites the oldest, counted when unread; 768 unread records queue a notice (R469). -/
def State.audit (s : State) (event role session index sub code value keyId : Nat) : State :=
  let a := s.agent
  let r0 : Audit := ⟨a.nextSeq, s.loc, event, role, session, index, sub, code, value % 2 ^ 64, keyId, []⟩
  let before := if a.nextSeq = 0 then List.replicate 24 0#8 else a.chain
  let r : Audit := { r0 with chain := (sha384 (before ++ auditBytes r0)).take 24 }
  let full := decide (1024 ≤ a.ring.length)
  let oldUnread := match a.ring with
    | o :: _ => full && decide (a.readTo.getD 0 < o.seq)
    | [] => false
  let ring : List Audit := (if full then a.ring.drop 1 else a.ring) ++ [r]
  let unread : Nat := (ring.filter fun x => decide (a.readTo.getD 0 < x.seq)).length
  let lost := a.overwritten + bn oldUnread
  let a1 : Agent := { a with ring := ring, nextSeq := a.nextSeq + 1, chain := r.chain, overwritten := lost }
  let s1 : State := { s with agent := a1 }
  if unread = 768 then s1.note 0x0B 0 0 none 0 (a.nextSeq + 1) 0 else s1

/-- The number of a role in an audit record and a challenge (R451, R467). -/
def roleNum : Role → Nat
  | .none => 0
  | .maker => 1
  | .installer => 2
  | .operator => 3

/-- An event of the hub itself (ROLE 4, SESSION 0xF). -/
def State.auditHub (s : State) (event index sub code value : Nat) : State :=
  s.audit event 4 0xF index sub code value 0

/-! ## Random draws (R341, R343) -/

/-- Instance numbers: 0 the master, then the AUs, the bridge lanes, the samplers, the reduction engine, the cipher
engine. -/
def drbgAu (n : Nat) : Nat := 1 + n
@[inherit_doc drbgAu] def drbgLane (c : Nat) : Nat := 33 + c
@[inherit_doc drbgAu] def drbgSampler (n : Nat) : Nat := 41 + n
@[inherit_doc drbgAu] def drbgReduction : Nat := 45
@[inherit_doc drbgAu] def drbgGce : Nat := 46

/-- CTR_DRBG generate without additional input (SP 800-90A): `n` bytes and the instance after it. -/
def drbgGenerate (d : Drbg) (n : Nat) : Bytes × Drbg :=
  let r := drbgBlocks d.key ((n + 15) / 16) d.v
  let u := drbgUpdate d.key r.2 (List.replicate 48 0#8)
  (r.1.take n, { d with key := u.1, v := u.2, requests := d.requests + 1 })

/-- CTR_DRBG instantiate or reseed without a derivation function: 48 seed bytes. -/
def drbgSeed (d : Drbg) (seed : Bytes) : Drbg :=
  let u := if d.live then drbgUpdate d.key d.v seed
    else drbgUpdate (List.replicate 32 0#8) (List.replicate 16 0#8) seed
  { live := true, key := u.1, v := u.2, requests := 0 }

/-- The master reseeds from 384 bits of the entropy input (R341). -/
def State.reseedMaster (s : State) (seed : Bytes) : State :=
  ({ s with random := { s.random with inst := tblPut s.random.inst 0 (drbgSeed (tblGet s.random.inst 0 {}) seed), seed := none, reseedAt := s.loc } } : State).bump 0x4020 2

/-- The master before a draw: at the latest after 2¹⁶ requests it has reseeded (R341), from the seed that waits at the entropy input or
from the one that the integrator answers with within 100 K-cycles, whose bits are open (R342). -/
def State.masterReady (s : State) : State :=
  if (tblGet s.random.inst 0 {}).requests < 65536 then s
  else match s.random.seed with
    | some seed => s.reseedMaster seed
    | none => let e := s.free; e.2.reseedMaster (leBytes 48 e.1)

/-- The master draws `n` bytes, unless the DRBGs are stopped. -/
def State.drawMaster (s : State) (n : Nat) : Option (Bytes × State) :=
  if s.random.stopped || !(tblGet s.random.inst 0 {}).live then none
  else
    let t := s.masterReady
    let r := drbgGenerate (tblGet t.random.inst 0 {}) n
    some (r.1, { t with random := { t.random with inst := tblPut t.random.inst 0 r.2 } })

/-- A child instantiates or reseeds from 384 bits of the master; its personalisation is XORed into the first seed
(R341), and 0x4020.02 counts the reseed. -/
def State.seedChild (s : State) (c : Nat) : Option State :=
  match s.drawMaster 48 with
  | none => none
  | some (seed, s1) =>
    let d := tblGet s1.random.inst c {}
    let serial := tblGet s1.fuses 0x18 0 + tblGet s1.fuses 0x19 0 * 2 ^ 32
    let seed' := if d.live then seed else xorBytes seed (padTo 48 (Config.personalisation c serial s1.memberField))
    some (({ s1 with random := { s1.random with inst := tblPut s1.random.inst c (drbgSeed d seed') } } : State).bump 0x4020 2)

/-- Child `c` draws `n` bytes; it reseeds first where 0x4020.01 requests have passed (R341). -/
def State.drawChild (s : State) (c n : Nat) : Option (Bytes × State) :=
  let d := tblGet s.random.inst c {}
  if s.random.stopped then none
  else
    let s0 := if !d.live || decide (s.setting 0x4020 1 ≤ d.requests) then s.seedChild c else some s
    match s0 with
    | none => none
    | some s1 =>
      let r := drbgGenerate (tblGet s1.random.inst c {}) n
      some (r.1, { s1 with random := { s1.random with inst := tblPut s1.random.inst c r.2 } })

/-- Draw `n` bytes in `k` generate requests. -/
def State.drawPieces : Nat → State → Nat → Nat → Option (Bytes × State)
  | 0, s, _, _ => some ([], s)
  | k + 1, s, c, n =>
    match s.drawChild c (min n 65536) with
    | none => none
    | some (b, t) => (t.drawPieces k c (n - 65536)).map fun r => (b ++ r.1, r.2)

/-- The stochastic bytes of a row (R93), `n` of them, from the fewest generate requests that SP 800-90A allows, 65,536 bytes
each (DESIGN CHOICE, log entry 94: the manual does not say how a row is cut into requests). -/
def State.drawBytes (s : State) (c n : Nat) : Option (Bytes × State) := s.drawPieces ((n + 65535) / 65536) c n

/-! ## Dictionary requests (R447 to R461) -/

/-- The management session a request travels in. -/
def State.session (s : State) (n : Nat) : MgmtSession := tblGet s.agent.sessions n {}

/-- Change a management session. -/
def State.modSession (s : State) (n : Nat) (f : MgmtSession → MgmtSession) : State :=
  { s with agent := { s.agent with sessions := tblMod s.agent.sessions n f {} } }

/-- Is the session open and established. -/
def State.sessionUp (s : State) (n : Nat) : Bool := decide (n < 4) && decide ((s.session n).spdm.stage = 5)

/-- The role a request is served with (Table 19.1): unsecured in Blank as Maker; otherwise its session's. -/
def State.roleOf (s : State) (m : Mgmt) : Role :=
  match s.life.state, m.session with
  | .blank, none => .maker
  | .test, some n => if s.sessionUp n then (s.session n).role else .none
  | .production, some n => if s.sessionUp n then (s.session n).role else .none
  | _, _ => .none

/-- The rights of a role on an entry: bit 0 read, bit 1 write. -/
def Entry.rights (e : Entry) : Role → Nat
  | .none => 0
  | .maker => e.maker
  | .installer => e.installer
  | .operator => e.operator

/-- Answer a dictionary request (R456), counting it as served or refused. -/
def State.answer (s : State) (m : Mgmt) (i j abort : Nat) (data : Bytes) : State :=
  (s.bump 0x1121 (if abort = 0 then 1 else 2)).emit (.dict m.session m.tag i j abort (if abort = 0 then data else []))

/-- The VALUE field of a write's audit record (Table 19.9). -/
def auditValue (v : Bytes) : Nat := if v.length ≤ 8 then leNat v else leNat ((sha384 v).take 8)

/-- The session number of an audit record: 0xF unsecured. -/
def sessionNum (m : Mgmt) : Nat := m.session.getD 0xF

/-- The key identifier of the requester's role: its session's; unsecured in Blank the Maker's enrolled digest (Table 19.2, R467). -/
def State.keyIdOf (s : State) (m : Mgmt) : Nat :=
  match m.session with
  | some n => (s.session n).keyId
  | none => if s.life.state = .blank then tblGet s.fuses 0x20 0 + tblGet s.fuses 0x21 0 * 2 ^ 32 else 0

/-- End a write request: audit it where its entry is marked, or where it was refused for rights (R466), and answer. -/
def State.endWrite (s : State) (m : Mgmt) (i j : Nat) (v : Bytes) (role : Role) (keyId abort : Nat) : State :=
  let marked := match entryRow i j with | some e => e.audited | none => false
  let s1 := if marked || abort = 0x0601 || abort = 0x0602 then
      s.audit (if abort = 0 then 1 else 2) (roleNum role) (sessionNum m) i j abort (auditValue v) keyId else s
  s1.answer m i j abort []

/-- The abort code of steps 3 to 5 of R460 for a write: role, existence, rights; 0 where they pass. -/
def State.writeGate (s : State) (m : Mgmt) (i j : Nat) : Nat :=
  if s.roleOf m = .none then 0x0501
  else match entryRow i j with
    | none => 0x0604
    | some e =>
      if bit (e.rights (s.roleOf m)) 1 then 0
      else if bit e.maker 1 || bit e.installer 1 || bit e.operator 1 then 0x0601 else 0x0602

/-- The length check of R457 for a segment: numbers in one piece, records exactly, BYTES at most their size. -/
def lengthOk (e : Entry) (off : Nat) (last : Bool) (v : Bytes) : Bool :=
  if e.ty < 7 then off = 0 && v.length = e.size
  else if e.ty = 8 && last then off + v.length = e.size
  else decide (off + v.length ≤ e.size)

/-- The segment rules of R454 against the session's write buffer: the abort code that refuses a segment, 0 none. -/
def segmentGate (buffer : Option (Nat × Nat × Bytes)) (i j off : Nat) : Nat :=
  match buffer with
  | some (i', j', b) => if i' ≠ i || j' ≠ j then 0x0803 else if off ≠ b.length then 0x0403 else 0
  | none => if off ≠ 0 then 0x0403 else 0

/-- Set the write buffer of a requester's session. -/
def State.setBuffer (s : State) (m : Mgmt) (b : Option (Nat × Nat × Bytes)) : State := s.modSession (sessionNum m) fun k => { k with buffer := b }

/-- A dictionary request whose service needs a unit with a stopped clock begins an exit to S0 (R72, R73): the entries of the arithmetic
units in S1, those of memory ports, links and ports from S2 on, and those of the units on F-clk in S3 (PRESUMED, log entry 106: the
manual names no entries). Its response waits out the exit. A write that opens the gate, sends JOIN or releases a fenced partition needs
the links, or the queue manager. -/
def State.wakeFor (s : State) (i : Nat) : State :=
  let k := s.power.state
  if decide ((1 ≤ k ∧ 0x2000 ≤ i ∧ i < 0x2400) ∨ (2 ≤ k ∧ 0x3000 ≤ i ∧ i < 0x3400) ∨ (3 ≤ k ∧ 0x5000 ≤ i ∧ i < 0x6100)) then s.beginExit else s

/-- The same for a write. -/
def State.wakeWrite (s : State) (i j : Nat) : State :=
  let k := s.power.state
  if (2 ≤ k && ((i = 0x7001 && j = 1) || (i = 0x7002 && j = 2))) || (3 ≤ k && i = 0x6102 && j = 1) then s.beginExit else s.wakeFor i

/-- Does the management port take requests: the block is ready, and no commit has the controller restart (R365, R529). -/
def State.serving (s : State) : Bool := s.bring.ready && decide (s.fw.fw ≠ 2)

/-- The one path of every dictionary write (R454, R460, R461): the gates in order, then the entry's own checks and effect on
the value its segments gave, which answer an abort code (with the error code that the refusal records in the bits above it)
or the state after; a refused write changes nothing but the audit log and the counts, and a segment out of order discards
the buffer. While the block is not ready (R529) or restarts for a commit (R365) no request is served; during the hold of a block fault (R478) and while a
life-cycle transition programs fuses (R441) writes are refused. -/
def State.dictSegment (s : State) (m : Mgmt) (i j off : Nat) (last : Bool) (v : Bytes) (act : Bytes → State → Except Nat State) : State :=
  if !s.serving then s
  else
    let role := s.roleOf m
    let keyId := s.keyIdOf m
    let gate := s.writeGate m i j
    let buffer := (s.session (sessionNum m)).buffer
    let seg := segmentGate buffer i j off
    let whole := (match buffer with | some x => x.2.2 | none => []) ++ v
    let bad := match entryRow i j with | some e => !lengthOk e off last v | none => false
    let r : Except Nat State :=
      if gate ≠ 0 then .error gate
      else if bad then .error 0x0605
      else if seg ≠ 0 then .error seg
      else if s.faults.phase ≠ 0 || s.life.confirm = 2 then .error 0x0801
      else if !last then .ok (s.setBuffer m (some (i, j, whole)))
      else act whole ((if buffer.isSome then s.setBuffer m none else s).wakeWrite i j)
    match r with
    | .error a =>
      let s1 := if a = 0x0403 then s.setBuffer m none else s
      (if a < 65536 then s1 else (if a / 65536 = 0x8001 then s1.bump 0x4000 4 else s1).error 8 0 none (a / 65536) 0).endWrite m i j v role keyId (a % 65536)
    | .ok t => t.endWrite m i j (if last then whole else v) role keyId 0

/-- A write that carries an entry's whole value in one segment. -/
def State.dictWrite (s : State) (m : Mgmt) (i j : Nat) (v : Bytes) (act : State → Except Nat State) : State :=
  s.dictSegment m i j 0 true v fun _ => act

/-- A write whose effect needs the writer's role. -/
def State.dictWriteAs (s : State) (m : Mgmt) (i j : Nat) (v : Bytes) (act : Role → State → Except Nat State) : State :=
  s.dictWrite m i j v (act (s.roleOf m))

end Sys2Proof.Machine
end

