-- ==== Sys2Proof/Machine/Formats.lean ====
section
/-! DEFINITION. Sys2Proof/Machine/Formats.lean: the sixteen formats, packing, exact decoding, encoding of elements,
blocks and groups, and the palette (chapter 4). -/
namespace Sys2Proof.Machine

/-- What a format code means (Tables 4.1, 4.2, 4.3): class (0 F, 1 I, 2 B, 3 G), element bits, block, metadata bytes. -/
structure Fmt where
  cls : Nat
  bits : Nat
  block : Nat
  metaBytes : Nat
  /-- The float layout of the element, none for integers. -/
  float : Option FloatFmt
  /-- Fraction bits of an integer element (6 for MXINT8). -/
  frac : Nat

/-- The format of a code below 0x10 (Table 4.1). -/
def fmtOf (c : Nat) : Fmt :=
  match c with
  | 0 => ⟨0, 32, 0, 0, some fmtF32, 0⟩
  | 1 => ⟨0, 16, 0, 0, some fmtF16, 0⟩
  | 2 => ⟨0, 16, 0, 0, some fmtBf16, 0⟩
  | 3 => ⟨0, 8, 0, 0, some fmtE4m3, 0⟩
  | 4 => ⟨0, 8, 0, 0, some fmtE5m2, 0⟩
  | 5 => ⟨1, 32, 0, 0, none, 0⟩
  | 6 => ⟨1, 8, 0, 0, none, 0⟩
  | 7 => ⟨1, 4, 0, 0, none, 0⟩
  | 8 => ⟨2, 8, 32, 1, some fmtE4m3, 0⟩
  | 9 => ⟨2, 8, 32, 1, some fmtE5m2, 0⟩
  | 10 => ⟨2, 6, 32, 1, some fmtE3m2, 0⟩
  | 11 => ⟨2, 6, 32, 1, some fmtE2m3, 0⟩
  | 12 => ⟨2, 4, 32, 1, some fmtE2m1, 0⟩
  | 13 => ⟨2, 8, 32, 1, none, 6⟩
  | 14 => ⟨3, 4, 64, 4, none, 0⟩
  | _ => ⟨2, 4, 32, 2, some fmtE2m1, 0⟩

/-- The format descriptor of 0x2000.(code + 1) (Table 4.7). -/
def fmtDescriptor (c : Nat) : Nat :=
  let f := fmtOf c
  let ebits := match f.float with | some x => x.ebits | none => 0
  let mbits := match f.float with | some x => x.mbits | none => f.frac
  let bias := match f.float with | some x => x.bias | none => 0
  let specials := match f.float with | some x => x.specials | none => 0
  c + f.cls * 2 ^ 8 + f.bits * 2 ^ 10 + ebits * 2 ^ 16 + mbits * 2 ^ 20 + bias * 2 ^ 25 + f.block * 2 ^ 32 +
    f.metaBytes * 2 ^ 40 + specials * 2 ^ 44 + bn (c ≠ 0 && c ≠ 5) * 2 ^ 46

/-- `n` elements of `w` bits packed from the least significant bits up (R85). -/
def unpack (w n : Nat) (b : Bytes) : List Nat :=
  let v := leNat b
  (List.range n).map fun i => (v >>> (w * i)) % 2 ^ w

/-- Elements of `w` bits packed into whole bytes (R85). -/
def pack (w : Nat) (es : List Nat) : Bytes :=
  leBytes ((es.length * w + 7) / 8) ((es.zipIdx.map fun e => (e.1 % 2 ^ w) <<< (w * e.2)).foldl (· + ·) 0)

/-- The exact value of one element without its scale (R77). -/
def elemValue (f : Fmt) (e : Nat) : Fp :=
  match f.float with
  | some x => decodeFloat x e
  | none => decodeInt f.bits f.frac e

/-- 2^k as an exact value. -/
def pow2 (k : Int) : Fp := fpScale false 1 k

/-- The multiplier of a YB4 sub-scale (Table 4.4), in eighths. -/
def yb4Eighths (u : Nat) : Nat := if u = 0 then 8 else if u = 1 then 6 else if u = 2 then 4 else 3

/-- The E8M0 scale of Table 4.3. -/
def scaleValue (sc : Nat) : Fp := if sc = 0xFF then .nan else pow2 ((sc : Int) - 127)

/-- Decode one block's elements with its metadata bytes (R82 to R84). A NaN or infinite scale makes every element of a group
NaN (DEDUCED, log entry 94: R83 says so, and also names the IEEE 754 products, by which a non-zero difference times an
infinite scale would be an infinity). -/
def decodeBlock (c : Nat) (md : Bytes) (es : List Nat) : List Fp :=
  let f := fmtOf c
  if f.cls = 2 then
    let sc := scaleValue (md.headD 0#8).toNat
    es.zipIdx.map fun e =>
      let v := (elemValue f e.1).mul sc
      if c = 15 then
        let u := ((md.getD 1 0#8).toNat >>> (2 * (e.2 / 8))) % 4
        v.mul (.fin false (yb4Eighths u) 8)
      else v
  else
    let w := leNat md
    let sc := decodeFloat fmtBf16 (w % 2 ^ 16)
    let z := decodeInt 4 0 ((w >>> 16) % 16)
    es.map fun e => if sc.special then .nan else ((decodeInt 4 0 e).add z.neg).mul sc

/-- Split a list into pieces of `n`. -/
def pieces {α : Type} (n : Nat) : Nat → List α → List (List α)
  | 0, _ => []
  | k + 1, l => if l.isEmpty then [] else l.take n :: pieces n k (l.drop n)

/-- Decode a row of `n` elements from its element and metadata bytes, exactly (R88). -/
def decodeRow (c n : Nat) (data md : Bytes) : List Fp :=
  let f := fmtOf c
  let es := unpack f.bits n data
  if f.block = 0 then es.map (elemValue f)
  else ((pieces f.block n es).zipIdx.map fun b => decodeBlock c ((md.drop (f.metaBytes * b.2)).take f.metaBytes) b.1).flatten

/-- What a conversion counts: saturations (0x2040.01), NaN blocks (.02), values turned to 0 (.03). -/
structure Stats where
  sat : Nat := 0
  nanBlocks : Nat := 0
  zeroed : Nat := 0

/-- Add two counts. -/
def Stats.plus (a b : Stats) : Stats := ⟨a.sat + b.sat, a.nanBlocks + b.nanBlocks, a.zeroed + b.zeroed⟩

/-- Encode one element under RNE or with a stochastic byte (R89 to R92). -/
def encodeElem (f : Fmt) (sat : Bool) (r : Option Nat) (v : Fp) : Nat × Stats :=
  match f.float with
  | some x => let e := encodeFloat x sat r v; (e.1, { sat := bn e.2 })
  | none => let e := encodeInt f.bits f.frac (f.frac ≠ 0) r v; (e.1, { sat := bn e.2.1, zeroed := bn e.2.2 })

/-- The largest magnitude of a list of finite values, as a quotient. -/
def maxMag (vs : List Fp) : Nat × Nat :=
  vs.foldl (fun a v => if ratLe a.1 a.2 v.mag.1 v.mag.2 then v.mag else a) (0, 1)

/-- The exponent of an element's largest normal value (R94). -/
def emaxElem (c : Nat) : Int := if c = 8 then 8 else if c = 9 then 15 else if c = 10 then 4 else if c = 13 then 0 else 2

/-- An exponent clamped to the range of E8M0. -/
def clampScale (x : Int) : Int := if x < -127 then -127 else if 127 < x then 127 else x

/-- The smallest X with 6 × 2^X at least a positive magnitude (R97). -/
def yb4Exp (a : Nat × Nat) : Int :=
  let x := floorLog2 a.1 (a.2 * 6)
  let six := (pow2 x).mul (.fin false 6 1)
  if Fp.le (.fin false a.1 a.2) six then x else x + 1

/-- Divide an exact value by an exact positive one. -/
def divBy (v d : Fp) : Fp := v.div d

/-- Add a list of counts. -/
def sumStats (l : List Stats) : Stats := l.foldl Stats.plus {}

/-- Encode the elements of a list with their stochastic bytes. -/
def encodeElems (f : Fmt) (sat : Bool) (vs : List (Fp × Option Nat)) : List Nat × Stats :=
  let es := vs.map fun v => encodeElem f sat v.2 v.1
  (es.map (·.1), sumStats (es.map (·.2)))

/-- Encode one block of an MX format (R94, R95), a YB4 block (R97) or a G64 group (R96): elements, metadata, counts. The
zeros of an all-zero block keep their signs where the element is a float (R78). Two points the manual leaves open are the
model's (DESIGN CHOICE, log entry 94): the sub-scale byte of a YB4 block encoded as NaN is 0x00, and a group scale that
overflows BF16 follows R90 under the controlling SAT. -/
def encodeBlock (c : Nat) (sat : Bool) (vs : List (Fp × Option Nat)) : List Nat × Bytes × Stats :=
  let f := fmtOf c
  let special := vs.any fun v => v.1.special
  let zeros := vs.map fun _ => (0 : Nat)
  if special then
    (zeros, if f.cls = 3 then leBytes 4 (nanBits fmtBf16) else 0xFF#8 :: List.replicate (f.metaBytes - 1) 0#8, { nanBlocks := 1 })
  else if f.cls = 3 then
    let lo := vs.foldl (fun a v => if Fp.lt v.1 a then v.1 else a) (.fin false 0 1)
    let hi := vs.foldl (fun a v => if Fp.lt a v.1 then v.1 else a) (.fin false 0 1)
    let range := hi.add lo.neg
    if range.mag.1 = 0 then (zeros, List.replicate 4 0#8, {})
    else
      let s0 := encodeFloat fmtBf16 sat none (divBy range (.fin false 15 1))
      let sb := if s0.1 = 0 then 1 else s0.1
      let sc := decodeFloat fmtBf16 sb
      let q0 := fun (v : Fp) (r : Option Nat) (shift : Int) =>
        let x := divBy v sc
        let n : Int := match x with
          | .fin neg a b => if neg then -(roundQuot r a b : Int) else (roundQuot r a b : Int)
          | _ => 0
        n + shift
      let z0 := -8 - q0 lo none 0
      let z := if z0 < -8 then -8 else if 7 < z0 then 7 else z0
      let qs := vs.map fun v => q0 v.1 v.2 z
      let cl := qs.map fun q => if q < -8 then (-8, 1) else if 7 < q then (7, 1) else (q, 0)
      (cl.map fun q => (q.1 % 16).toNat, leBytes 4 (sb + (z % 16).toNat * 2 ^ 16), { sat := bn s0.2 + (cl.map (·.2)).foldl (· + ·) 0 })
  else
    let amax := maxMag (vs.map (·.1))
    if amax.1 = 0 then
      let es := encodeElems f sat (vs.map fun v => (v.1, none))
      (es.1, List.replicate f.metaBytes 0#8, {})
    else if c = 15 then
      let x := clampScale (yb4Exp amax)
      let subs := (pieces 8 4 vs).map fun sb =>
        let a := maxMag (sb.map (·.1))
        let u := ((([3, 2, 1] : List Nat).find? fun u =>
          Fp.le (.fin false a.1 a.2) ((pow2 x).mul (.fin false (6 * yb4Eighths u) 8)))).getD 0
        let d := (pow2 x).mul (.fin false (yb4Eighths u) 8)
        (u, encodeElems f sat (sb.map fun v => (divBy v.1 d, v.2)))
      let ub := (subs.zipIdx.map fun u => u.1.1 <<< (2 * u.2)).foldl (· + ·) 0
      ((subs.map (·.2.1)).flatten, [BitVec.ofNat 8 (x + 127).toNat, BitVec.ofNat 8 ub], sumStats (subs.map (·.2.2)))
    else
      let x := clampScale (floorLog2 amax.1 amax.2 - emaxElem c)
      let es := encodeElems f sat (vs.map fun v => (divBy v.1 (pow2 x), v.2))
      (es.1, [BitVec.ofNat 8 (x + 127).toNat], es.2)

/-- Pair values with stochastic bytes; without bytes every element rounds to nearest (R89, R92). -/
def withBytes (vs : List Fp) (rs : Option Bytes) : List (Fp × Option Nat) :=
  match rs with
  | none => vs.map fun v => (v, none)
  | some b => vs.zipIdx.map fun v => (v.1, some (b.getD v.2 0#8).toNat)

/-- Encode a row of exact values in a format: element bytes, metadata bytes, counts (R94 to R99). -/
def encodeRow (c : Nat) (sat : Bool) (rs : Option Bytes) (vs : List Fp) : Bytes × Bytes × Stats :=
  let f := fmtOf c
  let ps := withBytes vs rs
  if f.block = 0 then
    let es := encodeElems f sat ps
    (pack f.bits es.1, [], es.2)
  else
    let bs := (pieces f.block ps.length ps).map (encodeBlock c sat)
    (pack f.bits (bs.map (·.1)).flatten, (bs.map (·.2.1)).flatten, sumStats (bs.map (·.2.2)))

/-- Does a stochastic ROUND govern a conversion (Table 4.5): an integer source goes to a float target under RNE (R99). DESIGN CHOICE
(log entry 94): a conversion of one integer format to the other, for which Table 4.5 names no rounding, draws its bytes as others do. -/
def takesBytes (src dst : Nat) : Bool := src ≠ dst && !(decide ((fmtOf src).cls = 1) && decide ((fmtOf dst).cls = 0))

/-- Convert a row: an identity copy carries every bit (R98), any other pair goes through exact values. A value decoded
from a 0xFF scale and turned to 0 counts in 0x2040.03 with the NaNs (Table 4.5). -/
def convertRow (src dst n : Nat) (sat : Bool) (rs : Option Bytes) (data md : Bytes) : Bytes × Bytes × Stats :=
  if src = dst then
    (data.take ((n * (fmtOf src).bits + 7) / 8), md.take (if (fmtOf src).block = 0 then 0 else n / (fmtOf src).block * (fmtOf src).metaBytes), {})
  else encodeRow dst sat (if takesBytes src dst then rs else none) (decodeRow src n data md)

/-- Bytes of `n` elements of a format. -/
def rowBytes (c n : Nat) : Nat := (n * (fmtOf c).bits + 7) / 8
/-- Metadata bytes of `n` elements of a format. -/
def rowMeta (c n : Nat) : Nat := if (fmtOf c).block = 0 then 0 else n / (fmtOf c).block * (fmtOf c).metaBytes

/-- Count what a conversion met (R105). -/
def State.countStats (s : State) (x : Stats) : State :=
  ((s.bumpBy 0x2040 1 x.sat).bumpBy 0x2040 2 x.nanBlocks).bumpBy 0x2040 3 x.zeroed

/-! ## The palette (R100 to R104) -/

/-- The first reason that refuses a declared entry (R101, R102): 0 none. -/
def paletteWhy (mask : Nat) (stochOk : Bool) (p : Palette) : Nat :=
  if !bit p.accept p.pref || !bit p.accept p.result then 1
  else if !bit mask p.pref || !bit mask p.result then 2
  else if (fmtOf p.result).cls ≠ 0 then 3
  else if p.round = 1 && (!stochOk || p.pref = 0 || p.pref = 5 || p.result = 0 || p.result = 5) then 4
  else if 2 ≤ p.round then 5
  else 0

/-- Evaluate a non-empty entry (R102, R103). -/
def State.evalPalette (s : State) (c : Nat) (p : Palette) : Palette :=
  let why := paletteWhy (s.setting 0x2020 (c + 1)) (s.setting 0x2030 1 = 1) p
  { p with state := if why = 0 then 1 else 2, why }

/-- A palette entry as 0x2010 reads it (Table 4.8). -/
def paletteWord (p : Palette) : Nat :=
  p.pref % 256 + p.result % 256 * 2 ^ 8 + p.round % 4 * 2 ^ 16 + bn p.sat * 2 ^ 18 + p.state * 2 ^ 24 + p.accept * 2 ^ 32 + p.why * 2 ^ 48

end Sys2Proof.Machine
end

