-- ==== Sys2Proof/Machine/Keys.lean ====
section
/-! DEFINITION. Sys2Proof/Machine/Keys.lean: the key slot tree, its derivations, the key-slot port and the scrubber
(R320 to R340, R347). -/
namespace Sys2Proof.Machine

/-- The index of the root slot (Table 13.1). -/
def rootSlot : Nat := 0x10000
/-- The index of the domain slot. -/
def domainSlot : Nat := 0x10001
/-- The index of partition P's slot. -/
def partSlot (p : Nat) : Nat := 0x10100 + p

/-- A slot's directory and cells. -/
def State.slot (s : State) (i : Nat) : KeySlot := tblGet s.keys.slots i {}

/-- Change the key store. -/
def State.modKeys (s : State) (f : KeyStore → KeyStore) : State := { s with keys := f s.keys }

/-- The physical row of a leaf cell (R337): its index through a four-round Feistel permutation on 16 bits under the scramble key. -/
def State.cellRow (s : State) (i : Nat) : Nat :=
  let r := (List.range 4).foldl (fun (x : BitVec 8 × BitVec 8) n => (x.2, x.1 ^^^ Config.feistel s.keys.scramble n x.2))
    (BitVec.ofNat 8 (i / 256), BitVec.ofNat 8 i)
  r.1.toNat * 256 + r.2.toNat

/-- A slot as it stands in the store: a leaf that is not free has its cell's row. -/
def State.placed (s : State) (i : Nat) (k : KeySlot) : KeySlot := if i < 65536 && k.state ≠ 0 then { k with row := s.cellRow i } else k

/-- Write a slot. -/
def State.putSlot (s : State) (i : Nat) (k : KeySlot) : State :=
  s.modKeys fun ks => { ks with slots := tblSet ks.slots i (s.placed i k) {} }

/-- The slot that a PARENT code names (Table 13.3). -/
def parentSlot (code : Nat) : Nat := if code = 0x41 then rootSlot else if code = 0x40 then domainSlot else partSlot code

/-- Is the root usable: Test or Production, and its slot live or retiring (R325). -/
def State.rootUsable (s : State) : Bool :=
  (s.life.state = .test || s.life.state = .production) && ((s.slot rootSlot).state = 1 || (s.slot rootSlot).state = 2)

/-- Is a slot usable (R325): its state, its PGEN against the parent's GEN, and its parent. The tree is three levels
deep above a leaf. -/
def State.usableAux (s : State) : Nat → Nat → Bool
  | 0, _ => s.rootUsable
  | n + 1, i =>
    let k := s.slot i
    if i = rootSlot then s.rootUsable
    else (k.state = 1 || k.state = 2) && k.pgen = (s.slot (parentSlot k.parent)).gen &&
      s.usableAux n (parentSlot k.parent)

@[inherit_doc State.usableAux] def State.usable (s : State) (i : Nat) : Bool := s.usableAux 3 i

/-- Is a usable slot one under which new keys may be derived: retiring nowhere above (R330). -/
def State.fertileAux (s : State) : Nat → Nat → Bool
  | 0, _ => true
  | n + 1, i => (s.slot i).state = 1 && (i = rootSlot || s.fertileAux n (parentSlot (s.slot i).parent))

@[inherit_doc State.fertileAux] def State.fertile (s : State) (i : Nat) : Bool := s.fertileAux 3 i

/-- A key as the cells hold it: XOR the mask M (R337). -/
def State.masked (s : State) (b : Bytes) : Bytes := xorBytes b (padTo 32 s.keys.mask)

/-- The key or seed a slot holds, unmasked inside the key store. -/
def State.slotKey (s : State) (i : Nat) : Bytes := s.masked (s.slot i).cell

/-- The device serial (fuse words 0x18 and 0x19, R51). -/
def State.serial (s : State) : Nat := tblGet s.fuses 0x18 0 + tblGet s.fuses 0x19 0 * 2 ^ 32

/-- The state code of the life cycle (Table 18.1). -/
def lifeCode : Life → Nat
  | .blank => 0
  | .test => 1
  | .production => 2
  | .endOfLife => 3

/-- The seed of generation `g` of a derived leaf, from its parent's key (Table 13.5). -/
def State.derivedSeed (s : State) (i g : Nat) (k : KeySlot) : Bytes :=
  let ki := s.slotKey (parentSlot k.parent)
  if k.kind = 1 then
    kdf ki "SH9v2 region" (leBytes 2 k.member ++ leBytes 1 k.port ++ leBytes 1 k.region ++ leBytes 2 i ++
      leBytes 8 k.nonce ++ leBytes 4 g) 256
  else if k.kind = 2 then kdf ki "SH9v2 tree" (leBytes 8 s.serial ++ leBytes 1 k.port ++ leBytes 8 k.nonce) 256
  else kdf ki "SH9v2 firmware" (leBytes 8 k.nonce) 256

/-- The seed a slot holds for generation `g`: the current cell, or generation GEN + 1 by R328. -/
def State.seedOf (s : State) (i g : Nat) : Bytes :=
  let k := s.slot i
  if g = k.gen then s.slotKey i
  else if k.kind = 3 || k.kind = 4 then s.masked k.nextSeed
  else s.derivedSeed i g k

/-- Engine material of a slot's generation: the expansion of Table 13.7. -/
def State.material (s : State) (i g : Nat) : Bytes :=
  let kind := (s.slot i).kind
  let l := if kind = 1 || kind = 2 then 512 else if kind = 3 || kind = 4 then 576 else 256
  kdf (s.seedOf i g) "SH9v2 expand" (leBytes 1 kind) l

/-- Refuse a use of a slot: 0x4000.04 counts it (R325, R326). -/
def State.refuseUse (s : State) (err : Nat) : State := (s.bump 0x4000 4).error 8 0 none err 0

/-- A use of a slot by an engine class: the error code that refuses it, or the state with the engine's key cache
loaded (R325, R326, R329). `engine` numbers the engine that holds the cache. -/
def State.useKey (s : State) (engine cls i g : Nat) : Except Nat State :=
  if !s.usable i then .error 0x8001
  else if !bit (s.slot i).use cls then .error 0x8002
  else .ok (s.modKeys fun ks =>
    if ks.caches.contains (engine, i, g) then ks else { ks with caches := (engine, i, g) :: ks.caches })

/-- The number of the general cipher engine's key cache. -/
def gceEngine : Nat := 0xFF

/-- The broadcast of R329: every cache drops the entries of a destroyed generation, and every entry whose slot is no
longer usable, and with its entry the general cipher engine drops its expanded key and H (R20); the IDE key cells of an unusable host session leaf are zeroed (R322). -/
def State.dropCaches (s : State) (i g : Nat) : State :=
  let s0 := s.modKeys fun ks =>
    { ks with caches := ks.caches.filter fun c => s.usable c.2.1 && !(c.2.1 = i && c.2.2 = g) }
  let s1 := if s0.keys.caches.any fun c => c.1 = gceEngine then s0 else { s0 with gce := { s0.gce with key := none, h := [] } }
  { s1 with slots := s1.slots.map fun kv =>
      if kv.2.held && !s.usable kv.2.leaf then (kv.1, { kv.2 with cells := [], keyGen := none, binding := [] }) else kv }

/-- Default use masks of Table 13.2; the mask of a region is its KIND's, plus bit 7 (Table 8.4). -/
def regionUse (kind : Nat) : Nat :=
  if kind = 0 then 0x10BF else if kind = 1 then 0x0081 else if kind = 2 then 0x0092 else 0x0C80

@[inherit_doc regionUse] def kindUse (kind : Nat) : Nat :=
  if kind = 2 then 0x100 else if kind = 3 then 0x10 else if kind = 4 then 0x40 else if kind = 5 then 0x20 else 0x200

/-- CREATE_DERIVED of a leaf (R339): a free leaf of kind 1, 2 or 6 under a usable parent; the NONCE is drawn by the key
store for kinds 1 and 2. Answers the cause of class 0x8 that refuses it. -/
def State.createLeaf (s : State) (i kind parent nonce use member port region : Nat) : Except Nat State :=
  if !(kind = 1 || kind = 2 || kind = 6) || 65536 ≤ i || (s.slot i).state ≠ 0 || 0x41 < parent then .error 6
  else if (kind = 1 && 0x40 ≤ parent) || (kind ≠ 1 && parent ≠ 0x41) then .error 6
  else if !s.usable (parentSlot parent) then .error 1
  else if !s.fertile (parentSlot parent) then .error 7
  else
    let drawn := if kind = 6 then some (nonce, s) else match s.drawMaster 8 with
      | some (b, t) => some (leNat b, t)
      | none => none
    match drawn with
    | none => .error 8
    | some (n, t) =>
      let k : KeySlot := { state := 1, kind, parent, use, dfltUse := use, pgen := (t.slot (parentSlot parent)).gen,
                           nonce := n, member, port, region }
      let seed := t.derivedSeed i 0 k
      .ok (t.putSlot i { k with cell := t.masked seed })

/-- Partition creation (R339, R419): the partition key at a generation it names. -/
def State.createPartKey (s : State) (p g : Nat) : Except Nat State :=
  let i := partSlot p
  let k := s.slot i
  if s.cfg.partitions ≤ p || k.state ≠ 0 then .error 6
  else if !s.usable domainSlot then .error 1
  else if !s.fertile domainSlot then .error 7
  else if g = 0xFFFFFFFF then .error 4
  else if g < k.gen then .error 6
  else
    let key := kdf (s.slotKey domainSlot) "SH9v2 partition" (leBytes 1 p ++ leBytes 4 g) 256
    .ok (s.putSlot i { state := 1, parent := 0x40, pgen := (s.slot domainSlot).gen, gen := g, cell := s.masked key })

/-- CREATE_SEED (R339): a leaf of kind 3, 4 or 5 under a usable parent, or the domain slot at a generation at least its
own. -/
def State.createSeedKey (s : State) (i kind parent nonce gen : Nat) (seed : Bytes) : Except Nat State :=
  if i = domainSlot then
    if (s.slot i).state ≠ 0 then .error 6
    else if !s.usable rootSlot then .error 1
    else if !s.fertile rootSlot then .error 7
    else if gen = 0xFFFFFFFF then .error 4
    else if gen < (s.slot i).gen then .error 6
    else .ok (s.putSlot i { state := 1, parent := 0x41, pgen := (s.slot rootSlot).gen, gen, nonce := nonce % 2 ^ 64,
                            cell := s.masked (padTo 32 seed) })
  else if !(kind = 3 || kind = 4 || kind = 5) || 65536 ≤ i || (s.slot i).state ≠ 0 || 0x41 < parent then .error 6
  else if (kind = 3 && 0x40 ≤ parent) || (kind ≠ 3 && parent ≠ 0x41) then .error 6
  else if !s.usable (parentSlot parent) then .error 1
  else if !s.fertile (parentSlot parent) then .error 7
  else match s.drawMaster 8 with
    | none => .error 8
    | some (b, t) =>
      .ok (t.putSlot i { state := 1, kind, parent, use := kindUse kind, dfltUse := kindUse kind,
                         pgen := (t.slot (parentSlot parent)).gen, nonce := leNat b, cell := t.masked (padTo 32 seed) })

/-- The lowest next cell not in use (R328); the pool of 64 never runs out. -/
def State.freeCell (s : State) : Nat :=
  let busy := (s.keys.slots.filter fun kv => kv.2.next && (kv.2.kind = 3 || kv.2.kind = 4)).map (·.2.nextCell)
  ((List.range 64).find? fun c => !busy.contains c).getD 0

/-- SET_NEXT (R328): generation GEN + 1, refused at the generation end (R327), and for a slot of a kind that R328 gives no
way to a next generation (log entry 63). -/
def State.setNextGen (s : State) (i : Nat) (seed : Bytes) : Except Nat State :=
  let k := s.slot i
  if 65536 ≤ i then .error 6
  else if !s.usable i then .error 1
  else if !(1 ≤ k.kind && k.kind ≤ 4 || k.kind = 6) then .error 6
  else if k.state = 2 || !s.fertile i then .error 7
  else if k.next then .error 6
  else if 0xFFFFFFFE ≤ k.gen then .error 4
  else if k.kind = 3 || k.kind = 4 then
    .ok (s.putSlot i { k with next := true, nextCell := s.freeCell, nextSeed := s.masked (padTo 32 seed) })
  else .ok (s.putSlot i { k with next := true })

/-- ADVANCE (R327, R328): generation GEN + 1 becomes current, GEN is destroyed everywhere (R329). -/
def State.advanceGen (s : State) (i : Nat) : Except Nat State :=
  let k := s.slot i
  if !s.usable i then .error 1
  else if !k.next then .error 6
  else if k.state = 2 || !s.fertile i then .error 7
  else
    let seed := s.seedOf i (k.gen + 1)
    let k1 : KeySlot := { k with gen := k.gen + 1, next := false, nextCell := 0, nextSeed := [], cell := s.masked seed }
    .ok (((s.putSlot i k1).dropCaches i k.gen).bump 0x4000 3)

/-- INVALIDATE (R327, R329, R347): GEN increments and no key remains; an internal slot returns to free at once, a leaf
waits for the scrubber; nothing changes for a slot that holds no key. -/
def State.invalidateSlot (s : State) (i : Nat) : State :=
  let k := s.slot i
  if k.state = 0 || k.state = 3 then s.bump 0x4000 3
  else
    let k1 : KeySlot := if i < 65536 then
        { k with state := 3, gen := k.gen + 1, next := false, nextCell := 0, cell := [], nextSeed := [] }
      else { gen := k.gen + 1 }
    (((s.putSlot i k1).dropCaches i k.gen).bump 0x4000 3)

/-- RETIRE (R330). -/
def State.retireSlot (s : State) (i : Nat) : Except Nat State :=
  if !s.usable i then .error 6 else .ok (s.putSlot i { s.slot i with state := 2 })

/-- SET_USE (R339): narrow a live slot's mask or restore it to the default. -/
def State.setUseMask (s : State) (i use : Nat) : Except Nat State :=
  let k := s.slot i
  if !s.usable i || k.state ≠ 1 then .error 6
  else if use = k.dfltUse || use &&& k.use = use then .ok (s.putSlot i { k with use })
  else .error 6

/-- A directory entry as READ_DIR returns it (Table 13.3). -/
def State.dirBytes (s : State) (i : Nat) : Bytes :=
  let k := s.slot i
  let orphan := (k.state = 1 || k.state = 2) && !s.usable i
  leBytes 4 (k.state + k.kind * 2 ^ 3 + k.parent * 2 ^ 7 + bn k.next * 2 ^ 14 + bn orphan * 2 ^ 15 + k.use * 2 ^ 16) ++
  leBytes 4 k.pgen ++ leBytes 4 k.gen ++ leBytes 4 k.nextCell ++ leBytes 8 k.nonce ++ List.replicate 8 0#8

/-- A refusal by the key store of cause `c`: of a use of an unusable slot (cause 1) 0x4000.04 counts it (R325). -/
def State.keyRefused (s : State) (c : Nat) : State := if c = 1 then s.refuseUse 0x8001 else s.error 8 0 none (0x8000 + c) 0

/-- The registers of the key-slot port after a command (Tables 13.8 to 13.10): KSP_SEED is cleared. A command that names an
unusable slot reports cause 0x006 (R340). -/
def State.kspDone (s : State) (op slot kind arg ctx : Nat) (r : Except Nat State) : State :=
  match r with
  | .ok t => (t.modKeys fun ks => { ks with cmd := op + kind * 2 ^ 8, slotReg := slot, arg, ctx, seed := [], done := true }).trace
      9 8 0 none 0 [slot + op * 2 ^ 16 + (t.slot slot).gen * 2 ^ 32]
  | .error c => (s.modKeys fun ks => { ks with cmd := op + kind * 2 ^ 8, slotReg := slot, arg, ctx, seed := [], err := true,
                                               cause := if (op = 3 || op = 4) && c = 1 then 6 else c }).keyRefused c

/-- Does the key store serve the security controller: not while the block is held in reset or halted (R529, R532). -/
def State.alive (s : State) : Bool := !s.bring.por && !s.bring.halted

/-- Run a change where the block is out of reset. -/
def State.whenAlive (s : State) (f : State → State) : State := if s.alive then f s else s

/-! ## Which clocks run (Table 3.4) -/

/-- Do the units on F-clk run: in every power state but S3. -/
def State.fclk (s : State) : Bool := decide (s.power.state ≤ 2)

/-- Do the sealing engines, line ports, links and chiplet ports run: in S0 and S1. -/
def State.sealing (s : State) : Bool := decide (s.power.state ≤ 1)

/-- Do the attention units, samplers, bridge lanes and reduction lanes run: in S0. -/
def State.computing (s : State) : Bool := decide (s.power.state = 0)

/-- Run a change that something outside asks for, which wakes the block (R72): in S3 the ready signals are low and the sender holds what
it has. -/
def State.woken (s : State) (f : State → State) : State := if s.fclk then f s.beginExit else s.beginExit

/-- Do the engines and queues take work: out of reset, clocked, and no block fault has quiesced the block (R478). -/
def State.running (s : State) : Bool := s.alive && s.faults.phase = 0 && s.fclk

/-- Run a change where the engines and queues take work. -/
def State.whenRunning (s : State) (f : State → State) : State := if s.running then f s else s

/-- Run a change of a unit on F-clk. -/
def State.whenClocked (s : State) (f : State → State) : State := if s.alive && s.fclk then f s else s

/-- Run a change that something outside asks of the engines or queues. -/
def State.whenAsked (s : State) (f : State → State) : State := if s.alive && s.faults.phase = 0 then s.woken f else s

/-- Is a command arithmetic: executed by AUs, samplers, bridge lanes or the reduction engine. -/
def arithmetic (op : Nat) : Bool := decide (0x21 ≤ op ∧ op ≤ 0x26)

/-- Does an arithmetic command execute or wait: accepted and not done, or fetched. -/
def State.arithWork (s : State) : Bool :=
  (s.cmds.any fun kv => arithmetic kv.2.opcode && kv.2.phase ≠ 2) ||
  s.queues.any fun kv => match kv.2.fetched with | some b => arithmetic (leNat (b.take 1)) | none => false

/-- Run a step of an arithmetic unit; while its clock is stopped its work is what brings the block back to S0 (DEDUCED, log entry 106). -/
def State.whenComputing (s : State) (f : State → State) : State := if s.computing then f s else if s.arithWork then s.beginExit else s

/-- The outcome of a command that always completes. -/
def done (s : State) : Host.Outcome State Fault Refusal := .next s

/-- CREATE_DERIVED through the key-slot port (R338, R339). The registers carry no port, region or region KIND: a region
leaf made this way takes open values for them. -/
def execCreateDerived (slot kind parent nonce gen : Nat) (s : State) : Host.Outcome State Fault Refusal :=
  done (s.whenAlive fun s =>
    let r := if 0x10100 ≤ slot then s.createPartKey (slot - 0x10100) gen
      else if kind = 1 then
        let (v, s1) := s.free
        s1.createLeaf slot kind parent nonce (regionUse (v % 4)) s1.memberField (v / 4 % 8) (v / 32 % 256)
      else if kind = 2 then
        let (v, s1) := s.free
        s1.createLeaf slot kind parent nonce (kindUse kind) s1.memberField (v % 8) 0
      else s.createLeaf slot kind parent nonce (kindUse kind) s.memberField 0 0
    s.kspDone 1 slot kind parent (nonce % 2 ^ 64 + gen % 2 ^ 32 * 2 ^ 64) r)

/-- CREATE_SEED through the key-slot port (R339). -/
def execCreateSeed (slot kind parent nonce gen : Nat) (seed : Bytes) (s : State) : Host.Outcome State Fault Refusal :=
  done (s.whenAlive fun s =>
    s.kspDone 2 slot kind parent (nonce % 2 ^ 64 + gen % 2 ^ 32 * 2 ^ 64) (s.createSeedKey slot kind parent nonce gen seed))

/-- SET_NEXT through the key-slot port (R328). -/
def execSetNext (slot : Nat) (seed : Bytes) (s : State) : Host.Outcome State Fault Refusal :=
  done (s.whenAlive fun s => s.kspDone 3 slot (s.slot slot).kind s.keys.arg s.keys.ctx (s.setNextGen slot seed))

/-- ADVANCE through the key-slot port (R327). -/
def execAdvance (slot : Nat) (s : State) : Host.Outcome State Fault Refusal :=
  done (s.whenAlive fun s => s.kspDone 4 slot (s.slot slot).kind s.keys.arg s.keys.ctx (s.advanceGen slot))

/-- INVALIDATE through the key-slot port (R327). -/
def execInvalidate (slot : Nat) (s : State) : Host.Outcome State Fault Refusal :=
  done (s.whenAlive fun s => s.kspDone 5 slot (s.slot slot).kind s.keys.arg s.keys.ctx (.ok (s.invalidateSlot slot)))

/-- RETIRE through the key-slot port (R330). -/
def execRetire (slot : Nat) (s : State) : Host.Outcome State Fault Refusal :=
  done (s.whenAlive fun s => s.kspDone 6 slot (s.slot slot).kind s.keys.arg s.keys.ctx (s.retireSlot slot))

/-- SET_USE through the key-slot port (R339). -/
def execSetUse (slot use : Nat) (s : State) : Host.Outcome State Fault Refusal :=
  done (s.whenAlive fun s => s.kspDone 7 slot (s.slot slot).kind (use % 2 ^ 16 * 2 ^ 8) s.keys.ctx (s.setUseMask slot use))

/-- READ_DIR through the key-slot port (R323, R339). -/
def execReadDir (slot : Nat) (s : State) : Host.Outcome State Fault Refusal :=
  done (s.whenAlive fun s => s.kspDone 8 slot (s.slot slot).kind s.keys.arg s.keys.ctx
    (if s.usable slot then .ok (s.modKeys fun ks => { ks with dir := s.dirBytes slot }) else .error 6))

/-- A W1C write to KSP_STATUS clears DONE (bit 1) and ERR (bit 2) where they were set (R340). -/
def execKspStatusClear (w : Nat) (s : State) : Host.Outcome State Fault Refusal :=
  done (s.whenAlive fun s => s.modKeys fun ks => { ks with done := ks.done && !bit w 1, err := ks.err && !bit w 2 })

/-- The scrubber's visit (R331): the next leaf cell in index order, zeroed and freed where it is invalidated or
orphaned. -/
def execScrubberVisit (s : State) : Host.Outcome State Fault Refusal :=
  done (s.whenAlive fun s =>
    let i := s.keys.scrubAt
    let s1 := if (s.slot i).state ≠ 0 && !s.usable i then s.putSlot i {} else s
    s1.modKeys fun ks => { ks with scrubAt := (i + 1) % 65536 })

end Sys2Proof.Machine
end

