-- ==== Sys2Proof/Machine/Messages.lean ====
section
/-! DEFINITION. Sys2Proof/Machine/Messages.lean: the messages of Spaek links and chiplet ports, their transmit queues,
and the routes (R248 to R251, R268 to R271, R304). -/
namespace Sys2Proof.Machine

/-! ## Messages of a Spaek link (Tables 10.2 and 10.3) -/

/-- The virtual channel of a message type. -/
def mtypeVc (t : Nat) : Nat := if t < 0x10 then 0 else if t < 0x20 then 1 else if t < 0x30 then 2 else 3

/-- The units a message type must have; none where the length varies (chunks, MCTP). -/
def mtypeUnits (t : Nat) : Option Nat :=
  match t with
  | 0x01 => some 1
  | 0x02 => some 9
  | 0x03 => some 10
  | 0x04 => some 2
  | 0x05 => some 1
  | 0x10 => some 9
  | 0x11 => some 1
  | 0x12 => some 2
  | 0x13 => some 2
  | 0x20 => some 2
  | 0x31 => some 2
  | 0x32 => some 1
  | 0x33 => some 1
  | _ => none

/-- Is a message type one of Table 10.3. -/
def mtypeKnown (t : Nat) : Bool := t = 0 || t = 0x30 || (mtypeUnits t).isSome

/-- A message as its units carry it: the header, then its content. A chunk's body starts with its own header. -/
def msgBytes (m : Msg) : Bytes :=
  if m.mtype = 0 then m.body
  else leBytes 16 (m.addr % 2 ^ 48 + m.src * 2 ^ 48 + m.dst * 2 ^ 64 + m.otag * 2 ^ 80 + bn m.adapt * 2 ^ 98 + m.part * 2 ^ 99 +
    m.pgen * 2 ^ 105 + m.cls * 2 ^ 113 + m.body.length / 16 * 2 ^ 115 + m.mtype * 2 ^ 120) ++ m.body

/-- HOME and PART of a chunk header (Table 7.2). -/
def chunkHome (b : Bytes) : Nat := bits (leNat (b.take 16)) 111 96
@[inherit_doc chunkHome] def chunkPart (b : Bytes) : Nat := bits (leNat (b.take 16)) 117 112

/-- A message from its bytes. -/
def msgOf (b : Bytes) : Msg :=
  let h := leNat (b.take 16)
  if bits h 127 120 = 0 then { mtype := 0, dst := chunkHome b, part := chunkPart b, body := b }
  else { mtype := bits h 127 120, addr := bits h 47 0, src := bits h 63 48, dst := bits h 79 64, otag := bits h 97 80,
         adapt := bit h 98, part := bits h 104 99, pgen := bits h 112 105, cls := bits h 114 113, body := b.drop 16 }

/-- Does a message take any permitted route candidate (R269): stores, atomics, invalidations and chunks never do, whatever ADAPT says. -/
def Msg.adaptive (m : Msg) : Bool := m.adapt && !(m.mtype = 0 || decide (2 ≤ m.mtype ∧ m.mtype ≤ 5))

/-- Format class and sizes that a chunk's length needs: element bits, block, metadata bytes (Tables 4.1 to 4.3). -/
def chunkShape (c : Nat) : Nat × Nat × Nat :=
  match c with
  | 0 => (32, 0, 0)
  | 1 => (16, 0, 0)
  | 2 => (16, 0, 0)
  | 3 => (8, 0, 0)
  | 4 => (8, 0, 0)
  | 5 => (32, 0, 0)
  | 6 => (8, 0, 0)
  | 7 => (4, 0, 0)
  | 8 => (8, 32, 1)
  | 9 => (8, 32, 1)
  | 10 => (6, 32, 1)
  | 11 => (6, 32, 1)
  | 12 => (4, 32, 1)
  | 13 => (8, 32, 1)
  | 14 => (4, 64, 4)
  | _ => (4, 32, 2)

/-- Bytes rounded up to units. -/
def unitUp (n : Nat) : Nat := (n + 15) / 16 * 16

/-- Units of a chunk, from its header (R175). -/
def chunkUnits (b : Bytes) : Nat :=
  let h := leNat (b.take 16)
  let n := bits h 75 68 + 1
  let x := chunkShape (bits h 27 24)
  let md := if x.2.1 = 0 then 0 else n / x.2.1 * x.2.2
  (16 + unitUp md + unitUp ((n * x.1 + 7) / 8)) / 16

/-- Units of a message by its first unit; none where it is malformed (R249). -/
def msgUnits (vc : Nat) (first : Bytes) : Option Nat :=
  let h := leNat first
  let t := bits h 127 120
  if !mtypeKnown t || mtypeVc t ≠ vc then none
  else if t = 0 then some (chunkUnits first)
  else
    let n := bits h 119 115 + 1
    if t = 0x30 then (if 2 ≤ n then some n else none)
    else if mtypeUnits t = some n then some n else none

/-- A chunk from its message bytes (Table 7.2). DESIGN CHOICE (log entry 97): a FMT of 0x10 to 0xFF, for which R177 names no refusal, is
laid out by its low nibble, and its elements decode as the last format of the table. -/
def chunkOf (b : Bytes) : Chunk :=
  let h := leNat (b.take 16)
  let n := bits h 75 68 + 1
  let x := chunkShape (bits h 27 24)
  let md := if x.2.1 = 0 then 0 else n / x.2.1 * x.2.2
  { slot := bits h 15 0, epoch := bits h 23 16, fmt := bits h 31 24, index := bits h 43 32, count := bits h 64 48, op := bits h 66 65,
    combine := bit h 67, elems := n, home := bits h 111 96, part := bits h 117 112,
    md := (b.drop 16).take md, data := (b.drop (16 + unitUp md)).take ((n * x.1 + 7) / 8) }

/-- A chunk as its message carries it; of a count of joined contributions past 131,071 the 17 bits of COUNT carry the low bits (DESIGN
CHOICE, log entry 97: R179 bounds no sum). -/
def chunkBytes (c : Chunk) : Bytes :=
  leBytes 16 (c.slot + c.epoch * 2 ^ 16 + c.fmt * 2 ^ 24 + c.index * 2 ^ 32 + c.count % 2 ^ 17 * 2 ^ 48 + c.op * 2 ^ 65 + bn c.combine * 2 ^ 67 +
    (c.elems - 1) * 2 ^ 68 + c.home * 2 ^ 96 + c.part * 2 ^ 112) ++
  padTo (unitUp c.md.length) c.md ++ padTo (unitUp c.data.length) c.data

/-- Bytes cut into 16-byte units, the first marked as the start of a message. -/
def startUnits (b : Bytes) : List (Bool × Bytes) := (chunks 16 b).zipIdx.map fun u => (decide (u.2 = 0), u.1)

/-- The completion code of a number (Table 15.8). -/
def codeOf (n : Nat) : Code :=
  match n with
  | 0 => .ok | 1 => .wrongState | 2 => .staleObject | 3 => .access | 4 => .integrity | 5 => .poison | 6 => .timeout
  | 7 => .squashed | 8 => .resource | 9 => .format | 10 => .counterEnd | _ => .aborted

/-- The number of a completion code (Table 15.8). -/
def codeNum : Code → Nat
  | .ok => 0
  | .wrongState => 1
  | .staleObject => 2
  | .access => 3
  | .integrity => 4
  | .poison => 5
  | .timeout => 6
  | .squashed => 7
  | .resource => 8
  | .format => 9
  | .counterEnd => 10
  | .aborted => 11

/-! ## Links, ranks and routes -/

/-- A link. -/
def State.link (s : State) (l : Nat) : Link := tblGet s.links l {}

/-- Change a link. -/
def State.modLink (s : State) (l : Nat) (f : Link → Link) : State := { s with links := tblMod s.links l f {} }

/-- The generation byte of a partition's key (PGEN, Table 10.2). -/
def State.pgenOf (s : State) (p : Nat) : Nat := (s.slot (partSlot p)).gen % 256

/-- Is a peer of higher rank than this hub: LEVEL, then member ID, of its last HELLO (R268, R270). -/
def State.peerHigher (s : State) (l : Nat) : Option Bool :=
  (s.link l).rank.map fun r =>
    let own := s.setting 0x3210 1
    decide (own < r.1) || (decide (own = r.1) && decide (s.bring.memberId < r.2))

/-- Reserved units of each channel (Table 10.5). -/
def vcReserve (vc : Nat) : Nat := if vc < 2 then 512 else 256

/-- Free units of a channel, with operation credits: each unit returns as shared credit while the channel's occupancy
after the free exceeds its reserve, else as reserved credit of the channel (R252, R253). -/
def State.freeUnits (s : State) (l vc units ops : Nat) : State :=
  (if units = 0 then s else s.touch 4 l).modLink l fun k =>
    let occ := tblGet k.occupied vc 0
    let n := min units occ
    let shared := ((List.range n).filter fun i => decide (vcReserve vc < occ - (i + 1))).length
    let o := min ops k.vc0Held
    { k with occupied := tblSet k.occupied vc (occ - n) 0, owedShared := k.owedShared + shared, owed := tblMod k.owed vc (· + (n - shared)) 0, vc0Held := k.vc0Held - o, owedOpc := k.owedOpc + o }

/-- Free what a message of a keyed session held: nothing where the link has begun another session since. -/
def State.freeHeld (s : State) (l sess vc units ops : Nat) : State := if (s.link l).sess = sess then s.freeUnits l vc units ops else s

/-! ## Transmit queues (R254, R302) -/

/-- Units in the transmit queues of a link or port. -/
def FrameSide.queued (f : FrameSide) : Nat := (f.txq.map fun kv => kv.2.length).foldl (· + ·) 0

/-- Is there room for units in the 32 KB of transmit queues: 2,048 of them. -/
def FrameSide.room (f : FrameSide) (units : Nat) : Bool := decide (f.queued + units ≤ 2048)

/-- Queue a message's units on a channel; where the queues are full, or its source already holds an older message of the channel, the
source holds it (DEDUCED, log entry 107). -/
def FrameSide.push (f : FrameSide) (vc : Nat) (us : List (Bool × Bytes)) : FrameSide :=
  if f.room us.length && f.held.all (fun h => decide (h.1 ≠ vc)) then { f with txq := tblMod f.txq vc (· ++ us) [] }
  else { f with held := f.held ++ [(vc, us)] }

/-- Messages that their sources hold enter the queues, in order on each channel, as far as there is room. -/
def FrameSide.letIn (f : FrameSide) : FrameSide := f.held.foldl (fun f h => f.push h.1 h.2) { f with held := [] }

/-- Units queued on a link (R269). -/
def Link.queued (k : Link) : Nat := k.fs.queued

/-- The link a message takes (R268, R269), none where the entry names no link that the configuration has (R6): the fixed link of its phase, or, with ADAPT, the least loaded of the permitted
candidates, the lower on a tie. A message that came down from a peer of higher rank is in down phase. -/
def State.routeOf (s : State) (arrived : Option Nat) (dst : Nat) (adapt : Bool) : Option Nat :=
  let e := tblGet s.liveRoutes dst 0
  let down := match arrived with
    | none => false
    | some l => s.peerHigher l = some true
  let fixed := if down then (if bit e 11 then some (bits e 9 5) else none) else (if bit e 10 then some (bits e 4 0) else none)
  match fixed.filter fun f => decide (f < s.cfg.links) with
  | none => none
  | some f =>
    if !adapt then some f
    else
      let mask := s.setting 0x3221 (bits e 15 12 + 1)
      let more := (List.range s.cfg.links).filter fun l => bit mask l && (!down || s.peerHigher l = some false)
      argMin (fun l => (s.link l).queued * 64 + l) (dedup (f :: more))

/-- Queue a message on a link's channel (R251): a link that is neither up nor idle-low carries no fabric message, and one
sent toward it is lost, as R263 leaves it. -/
def State.sendOn (s : State) (l : Nat) (m : Msg) : State :=
  let vc := mtypeVc m.mtype
  let k := s.link l
  if vc = 3 || k.state = 4 || k.state = 5 then
    s.modLink l fun k => { k with fs := k.fs.push vc (startUnits (msgBytes m)) }
  else s

/-- The body of an MCTP message of VC3: a packet, padded to whole units, 31 at most (R249). -/
def mctpBody (p : Bytes) : Bytes := padTo (unitUp (max 1 (min p.length 496))) (p.take 496)

/-- The SPDM message that the security controller sends over a link, if it is one. -/
def Out.linkSpdm : Out → Option (Nat × Nat × Bytes)
  | .spdm (.link l) what b => some (l, what, b)
  | .spdmRequest (.link l) what b => some (l, what, b)
  | _ => none

/-- The SPDM versions offered as requester, in order: 1.3, then 1.2 (Table 14.2). -/
def offeredVersions : Bytes := [0x13#8, 0x12#8]

/-- The head of a vendor-defined message (R355): StandardID 0x0004, and the Vyram enterprise number of 0x4100.09 after its length (the
layout is PRESUMED from DSP0274, log entry 41). -/
def vendorHeader : Bytes := leBytes 2 4 ++ leBytes 1 4 ++ leBytes 4 Config.enterprise.toNat

/-- Send an SPDM message: toward a link's peer it travels in MCTP packets on VC3 (R247, R249); what the packets hold is open to this
manual (log entry 107). -/
def State.say (s : State) (o : Out) : State :=
  let s1 := s.emit o
  match o.linkSpdm with
  | none => s1
  | some (l, what, b) => (Config.spdmPackets what b).foldl (fun s p => s.sendOn l { mtype := 0x30, src := s.memberField, body := mctpBody p }) s1

/-- A COMPLETION toward an issuer. -/
def State.completionMsg (s : State) (dst otag part : Nat) (c : Code) (e : Nat) : Msg :=
  { mtype := 0x11, addr := codeNum c + e * 2 ^ 8, src := s.bring.memberId, dst, otag, part, pgen := s.pgenOf part }

/-- An operation of this hub's own issue leaves by a link: its OTAG remembers it. -/
def State.leftBy (s : State) (arrived : Option Nat) (m : Msg) (l : Nat) : State :=
  if mtypeVc m.mtype = 0 && m.mtype ≠ 0 && (arrived.isNone || m.src = s.bring.memberId) then
    { s with otags := s.otags.map fun kv => if kv.1 = m.otag then (kv.1, { kv.2 with via := some l }) else kv }
  else s

/-- Does a message wait out the hold of R271: a fixed-route message for a member whose fixed entries changed. -/
def State.holdsRoute (s : State) (m : Msg) : Bool := s.routeHeld.contains m.dst && !m.adaptive

/-- Send a message toward its destination: the fixed messages for members whose fixed entries changed wait out the hold
of R271; a request without a permitted route is answered ACCESS, 0x200A, delivered here where this hub issued it (R19, R269). -/
def State.sendToward (s : State) (arrived : Option Nat) (m : Msg) : State :=
  if s.holdsRoute m then { s with routeHold := s.routeHold ++ [{ arrived, msg := m }] }
  else match s.routeOf arrived m.dst m.adaptive with
    | some l => (s.leftBy arrived m l).sendOn l m
    | none =>
      let s1 := s.error 2 (arrived.getD 0) (some m.part) 0x200A m.addr
      if mtypeVc m.mtype ≠ 0 || m.mtype = 0 then s1
      else if arrived.isNone || m.src = s1.bring.memberId then s1.reply (.otag m.otag) .access 0x200A []
      else
        let r := s1.completionMsg m.src m.otag m.part .access 0x200A
        match s1.routeOf none r.dst false with
        | some l => s1.sendOn l r
        | none => s1

/-- Does a message end at this hub, or concern the link's two ends alone; chunks are taken by their own row. -/
def State.endsHere (s : State) (m : Msg) : Bool := m.mtype = 0 || 2 ≤ mtypeVc m.mtype || m.dst = s.memberField

/-! ## Messages of a chiplet port (R304, Table 12.5) -/

/-- A chiplet port. -/
def State.chip (s : State) (c : Nat) : Chip := tblGet s.chips c {}

/-- Change a chiplet port. -/
def State.modChip (s : State) (c : Nat) (f : Chip → Chip) : State := { s with chips := tblMod s.chips c f {} }

/-- A chiplet port message as its units carry it. -/
def chipMsgBytes (m : ChipMsg) : Bytes :=
  if m.mtype = 0 then m.body
  else leBytes 16 (m.addr % 2 ^ 64 + m.otag * 2 ^ 64 + m.code * 2 ^ 88 + m.err * 2 ^ 96 + m.body.length / 16 % 256 * 2 ^ 112 +
    m.mtype * 2 ^ 120) ++ m.body

/-- A chiplet port message from its bytes. -/
def chipMsgOf (b : Bytes) : ChipMsg :=
  let h := leNat (b.take 16)
  if bits h 127 120 = 0 then { mtype := 0, body := b }
  else { mtype := bits h 127 120, addr := bits h 63 0, otag := bits h 81 64, code := bits h 95 88, err := bits h 111 96, body := b.drop 16 }

/-- Units of a message a chiplet sends, by its first unit; none where it is malformed. -/
def chipMsgUnits (first : Bytes) : Option Nat :=
  let h := leNat first
  let n := bits h 119 112 + 1
  match bits h 127 120 with
  | 0x00 => some (chunkUnits first)
  | 0x01 => if n = 1 then some 1 else none
  | 0x02 => if n = 9 then some 9 else none
  | 0x03 => if n = 10 then some 10 else none
  | 0x04 => if n = 2 then some 2 else none
  | 0x06 => if n = 1 then some 1 else none
  | 0x07 => if n = 1 then some 1 else none
  | _ => none

/-- Free what a chiplet's request held: its units of the receive buffer and its operation credit (R302). -/
def State.freeChip (s : State) (c units : Nat) : State :=
  s.modChip c fun k => { k with owed := k.owed + min units k.rxUnits, rxUnits := k.rxUnits - units, owedOpc := k.owedOpc + min 1 k.opsHeld, opsHeld := k.opsHeld - 1 }

/-- Queue a message for a chiplet; a port that is not in state 4 sends nothing (R295). -/
def State.sendChip (s : State) (c : Nat) (m : ChipMsg) : State :=
  if (s.chip c).state = 4 then
    let u := startUnits (chipMsgBytes m)
    s.modChip c fun k => { k with fs := k.fs.push 0 u, unitsIn := k.unitsIn + u.length }
  else s

end Sys2Proof.Machine
end

