-- ==== Sys2Proof/Machine/Ide.lean ====
section
/-! DEFINITION. Sys2Proof/Machine/Ide.lean: session slots with their selective IDE streams, and the sealing of host port TLPs,
which the hub core applies and removes itself (R22, R47, R309 to R311, R315). -/
namespace Sys2Proof.Machine

/-- A host port. -/
def State.host (s : State) (h : Nat) : HostPort := tblGet s.hosts h {}
/-- Change a host port. -/
def State.modHost (s : State) (h : Nat) (f : HostPort → HostPort) : State := { s with hosts := tblMod s.hosts h f {} }

/-- A session slot. -/
def State.hslot (s : State) (i : Nat) : HostSlot := tblGet s.slots i {}

/-- Change a session slot. -/
def State.modSlot (s : State) (i : Nat) (f : HostSlot → HostSlot) : State := { s with slots := tblMod s.slots i f {} }

/-- The sub-streams of a selective IDE stream (R309): posted requests, non-posted requests, completions. -/
def subPr : Nat := 0
@[inherit_doc subPr] def subNpr : Nat := 1
@[inherit_doc subPr] def subCpl : Nat := 2

/-- The key of an IDE key cell: sub-stream 0 to 2, direction, key set. -/
def ideCell (sub : Nat) (rx : Bool) (set : Nat) : Nat := sub * 4 + bn rx * 2 + set

/-- The secure stream of a number on a host port, and the slot that carries it. -/
def State.streamSlot (s : State) (h stream : Nat) : Option (Nat × HostSlot) :=
  s.slots.find? fun kv => kv.2.held && kv.2.port = h && kv.2.secure && kv.2.stream = some stream

/-! ## The IDE capability of function 0 (R48, R309; its layout is PRESUMED from PCIe 6.x, log entry 42) -/

/-- The dword of the capability's header in the window, and the selective stream register blocks it has: 11 dwords each, with two
address association blocks. -/
def ideCap : Nat := 0x208
@[inherit_doc ideCap] def ideBlocks : Nat := 16

/-- The dword of a stream block's capability register; its control, status, RID and address association registers follow. -/
def ideBlock (b : Nat) : Nat := ideCap + 3 + 11 * b

/-- The control register of a stream block of a port: bit 8 enables PCRC, bits [31:24] name the stream. -/
def State.ideControl (s : State) (h b : Nat) : Nat := tblGet (s.host h).cfg (ideBlock b + 1) 0

/-- Does a stream carry a PCRC (R309). -/
def State.pcrcOn (s : State) (h stream : Nat) : Bool :=
  (List.range ideBlocks).any fun b => bit (s.ideControl h b) 0 && bit (s.ideControl h b) 8 && bits (s.ideControl h b) 31 24 = stream

/-- The text of a TLP with its PCRC, where the stream carries one and the TLP has data. -/
def State.pcrcAdd (s : State) (h stream : Nat) (text : Bytes) : Bytes :=
  if s.pcrcOn h stream && !text.isEmpty then text ++ padTo 4 (Config.pcrc text) else text

/-- The text without its PCRC; none where the check fails. -/
def State.pcrcTake (s : State) (h stream : Nat) (text : Bytes) : Option Bytes :=
  if s.pcrcOn h stream && !text.isEmpty then
    let body := text.take (text.length - 4)
    if text = body ++ padTo 4 (Config.pcrc body) then some body else none
  else some text

/-- What an IDE MAC covers beside the data: the TLP's header and prefixes, which PCIe lays out (log entry 103). -/
def ideHeader (kind fn addr be tag stream n : Nat) (tbit : Bool) : Bytes :=
  Config.standardBody 0x300 [leBytes 1 kind, leBytes 2 fn, leBytes 8 addr, leBytes 8 be, leBytes 2 tag, leBytes 1 stream, leBytes 2 n, leBytes 1 (bn tbit)]

/-- The IV of an IDE TLP: a zero fixed field and the invocation count of its sub-stream and direction, which starts at 1
(PRESUMED from PCIe 6.x, log entry 103). -/
def ideIv (n : Nat) : Bytes := List.replicate 4 0#8 ++ beBytes 8 (n + 1)

/-- The IDE MAC: the first 96 bits of the GCM tag. -/
def ideMac (key : Bytes) (n : Nat) (hdr ct : Bytes) : Bytes := (gcmTag key (ideIv n) hdr ct).take 12

/-- The key of a stream's sub-stream and direction in its active set. -/
def State.ideKey (s : State) (k : HostSlot) (sub : Nat) (rx : Bool) : Option Bytes :=
  match k.activeSet with
  | some set => (tblFind k.cells (ideCell sub rx set)).map s.masked
  | none => none

/-- Seal an outbound TLP of a stream: ciphertext, MAC and the state with the invocation counted; none where the stream is not
secure, for the hub core transmits nothing else on it (R22). -/
def State.ideSeal (s : State) (h stream sub : Nat) (hdr text : Bytes) : Option (Bytes × Bytes × State) :=
  match s.streamSlot h stream with
  | none => none
  | some (i, k) => match s.ideKey k sub false with
    | none => none
    | some key =>
      let n := tblGet k.txCount sub 0
      let ct := gcmCrypt key (ideIv n) (s.pcrcAdd h stream text)
      some (ct, ideMac key n hdr ct, s.modSlot i fun k => { k with txCount := tblSet k.txCount sub (n + 1) 0 })

/-- The outcome of an IDE check: the text, a failed MAC, or a stream that is not secure here. -/
inductive IdeCheck where
  | passed (text : Bytes)
  | failed
  | unknown
  deriving DecidableEq, Repr

/-- Open an inbound TLP of a stream: its text is released only after its MAC verifies (R22), and its PCRC where
the stream carries one (R309). Injection point 0x14 fails the check
of one (Table 21.4). -/
def State.ideOpen (s : State) (h stream sub : Nat) (hdr ct mac : Bytes) : IdeCheck × State :=
  match s.streamSlot h stream with
  | none => (.unknown, s)
  | some (i, k) => match s.ideKey k sub true with
    | none => (.unknown, s)
    | some key =>
      let n := tblGet k.rxCount sub 0
      match s.takeInjection 0x14 h with
      | some u => (.failed, u)
      | none =>
        if ideMac key n hdr ct = mac then match s.pcrcTake h stream (gcmCrypt key (ideIv n) ct) with
          | some text => (.passed text, s.modSlot i fun k => { k with rxCount := tblSet k.rxCount sub (n + 1) 0 })
          | none => (.failed, s)
        else (.failed, s)

/-- Send a request TLP of a function on a stream, sealed, with the T bit set (R315): writes are posted; none where the stream is not
secure, or the port is in reset (R40). -/
def State.sendTlp (s : State) (h fn : Nat) (write : Bool) (addr : Nat) (data : Bytes) (stream tag : Nat) : Option State :=
  if (s.host h).inReset then none
  else match s.ideSeal h stream (if write then subPr else subNpr) (ideHeader (bn write) fn addr (2 ^ data.length - 1) tag stream data.length true) data with
  | some (ct, mac, t) => some (t.emit (.tlp h fn write addr ct (some stream) tag mac))
  | none => none

/-- Send an MSI-X message (R47): a memory-write TLP whose address and data the vector's table entry gives, which the host writes
and the manual does not place (log entry 103). -/
def State.sendMsix (s : State) (h fn vec : Nat) (stream : Option Nat) : State :=
  let v := Config.msixEntry h fn vec
  match stream with
  | none => if (s.host h).inReset then s else s.emit (.tlp h fn true (v % 2 ^ 64) (leBytes 4 (v / 2 ^ 64)) none 0 [])
  | some x => (s.sendTlp h fn true (v % 2 ^ 64) (leBytes 4 (v / 2 ^ 64)) x 0).getD s

end Sys2Proof.Machine
end

