-- ==== Sys2Proof/Machine/Contexts.lean ====
section
/-! DEFINITION. Sys2Proof/Machine/Contexts.lean: contexts, partitions, queues, objects and commands as the other units
name them, the TDI a context is bound to, and context faults (R312, R315, R369, R396). -/
namespace Sys2Proof.Machine

/-- A context. -/
def State.ctx (s : State) (n : Nat) : Ctx := tblGet s.ctxs n {}
/-- Change a context. -/
def State.modCtx (s : State) (n : Nat) (f : Ctx → Ctx) : State := { s with ctxs := tblMod s.ctxs n f {} }
/-- A partition. -/
def State.partn (s : State) (p : Nat) : Part := tblGet s.parts p {}
/-- Change a partition. -/
def State.modPart (s : State) (p : Nat) (f : Part → Part) : State := { s with parts := tblMod s.parts p f {} }
/-- A queue. -/
def State.queue (s : State) (q : Nat) : Queue := tblGet s.queues q {}
/-- Change a queue. -/
def State.modQueue (s : State) (q : Nat) (f : Queue → Queue) : State := { s with queues := tblMod s.queues q f {} }
/-- A command. -/
def State.cmd (s : State) (c : Nat) : Cmd := tblGet s.cmds c {}
/-- Change a command. -/
def State.modCmd (s : State) (c : Nat) (f : Cmd → Cmd) : State := { s with cmds := tblMod s.cmds c f {} }
/-- A TDI: host port h, number t. -/
def tdiKey (h t : Nat) : Nat := h * 256 + t
/-- A TDI by its key. -/
def State.tdi (s : State) (k : Nat) : Tdi := tblGet s.tdis k {}
/-- Change a TDI. -/
def State.modTdi (s : State) (k : Nat) (f : Tdi → Tdi) : State := { s with tdis := tblMod s.tdis k f {} }

/-- Does a TDI's record name a context. -/
def Tdi.names (t : Tdi) (n : Nat) : Bool := decide (t.ctxBase ≤ n ∧ n < t.ctxBase + t.ctxCount)

/-- The TDI a context is bound to: the one that is locked, else the first whose record names it (R312, R313). -/
def State.tdiOf (s : State) (n : Nat) : Option (Nat × Tdi) :=
  match s.tdis.find? fun kv => kv.2.names n && kv.2.state ≠ 0 with
  | some x => some x
  | none => s.tdis.find? fun kv => kv.2.names n

/-- Send a vector for a context (R315, R396): by its RUN TDI's function on its stream, by function 0 of H0 for a context
bound to no TDI, not at all for a TDI that is not in RUN. -/
def State.sendVector (s : State) (n vec : Nat) : State :=
  match s.tdiOf n with
  | none => s.sendMsix 0 0 vec none
  | some (k, t) => if t.state = 2 then s.sendMsix (k / 256) (k % 256 + 1) vec (some t.stream) else s

/-- A value that stops at its width. -/
def sat32 (n : Nat) : Nat := if n < 2 ^ 32 - 1 then n else 2 ^ 32 - 1

/-- A context fault (R396, R474, R476): FAULT and its error code, the counts, FAULT_VEC, a notice of kind 0x01; at the
threshold of 0x6001.01 a notice with 0xA007, and the context's reset falls due, where none runs already. -/
def State.ctxFault (s : State) (n err queue detail : Nat) : State :=
  let c := s.ctx n
  let s1 := s.modCtx n fun c =>
    { c with fault := true, faultErr := err, faults := sat32 (c.faults + 1), faultsSinceReset := c.faultsSinceReset + 1 }
  let s2 := ((s1.bump 0x6000 1).note 1 1 err (some c.part) n queue detail).sendVector n c.faultVec
  let lim := s.setting 0x6001 1
  if lim ≠ 0 && c.faultsSinceReset + 1 = lim then
    (s2.note 1 1 0xA007 (some c.part) n 0 0).modCtx n fun c => { c with resetDue := c.resetDue || decide (c.state ≠ 2) }
  else s2

/-- The context that owns a queue (R372). -/
def State.ownerOf (s : State) (q : Nat) : Option Nat :=
  (s.ctxs.find? fun kv => kv.2.state ≠ 0 && decide (kv.2.qbase ≤ q ∧ q < kv.2.qbase + kv.2.qcount)).map (·.1)

end Sys2Proof.Machine
end

