-- ==== Sys2Proof/Machine/ReedSolomon.lean ====
section
/-! DEFINITION. Sys2Proof/Machine/ReedSolomon.lean: the code over GF(2^8) that protects every half-line inside the block (R56,
R223). -/
namespace Sys2Proof.Machine

/-- Multiplication by α = 0x02 in the field of 0x11D. -/
def gfDouble (a : Nat) : Nat := if a < 128 then 2 * a else (2 * a) ^^^ 0x11D

/-- Product in the field, by the bits of the second factor from the highest down. -/
def gfMul (a b : Nat) : Nat := (List.range 8).foldr (fun i acc => gfDouble acc ^^^ (if bit b i then a else 0)) 0

/-- α raised to a power. -/
def gfPow : Nat → Nat
  | 0 => 1
  | n + 1 => gfDouble (gfPow n)

/-- The inverse of a nonzero element: its 254th power, from its squares. -/
def gfInv (a : Nat) : Nat := ((List.range 7).foldl (fun (x : Nat × Nat) _ => let q := gfMul x.1 x.1; (q, gfMul x.2 q)) (a, 1)).2

/-- A polynomial, highest coefficient first, times x + r. -/
def gfTimesRoot (g : List Nat) (r : Nat) : List Nat := ((g ++ [0]).zip (0 :: g)).map fun (x : Nat × Nat) => x.1 ^^^ gfMul r x.2

/-- The generator polynomial: the product of x + α^i for i from 0 to 3. -/
def rsGenerator : List Nat := (List.range 4).foldl (fun g i => gfTimesRoot g (gfPow i)) [1]

/-- The four check symbols of a half-line: the remainder of its polynomial, byte 0 the highest coefficient, shifted by four places
(DESIGN CHOICE, log entry 99: R223 does not say which end of the half-line is the highest). -/
def rsCheck (data : Bytes) : Bytes :=
  (data.foldl (fun (r : List Nat) b =>
    let f := b.toNat ^^^ r.headD 0
    ((r.drop 1 ++ [0]).zip (rsGenerator.drop 1)).map fun (x : Nat × Nat) => x.1 ^^^ gfMul f x.2) [0, 0, 0, 0]).map fun v => BitVec.ofNat 8 v

/-- The codeword of a half-line: bytes 0 to 63 are data, 64 to 67 check symbols. -/
def rsEncode (data : Bytes) : Bytes := data ++ rsCheck data

/-- Syndrome `j` of a received word: its value at α^j. -/
def rsSyndrome (word : Bytes) (j : Nat) : Nat := word.foldl (fun acc b => gfMul acc (gfPow j) ^^^ b.toNat) 0

/-- The place of a symbol by the power of α that locates it: byte 67 is place 0. -/
def rsPlace (x : Nat) : Option Nat := (List.range 68).find? fun p => gfPow p = x

/-- The error pattern of at most two symbols with the syndromes given, as (byte, value) pairs; none where there is none. -/
def rsErrors (s0 s1 s2 s3 : Nat) : Option (List (Nat × Nat)) :=
  let at_ := fun (p v : Nat) => (67 - p, v)
  let x := gfMul s1 (gfInv s0)
  let d := gfMul s0 s2 ^^^ gfMul s1 s1
  if s0 = 0 && s1 = 0 && s2 = 0 && s3 = 0 then some []
  else if s0 ≠ 0 && s2 = gfMul s1 x && s3 = gfMul s2 x && (rsPlace x).isSome then some [at_ ((rsPlace x).getD 0) s0]
  else if d = 0 then none
  else
    let l1 := gfMul (gfMul s0 s3 ^^^ gfMul s1 s2) (gfInv d)
    let l2 := gfMul (gfMul s1 s3 ^^^ gfMul s2 s2) (gfInv d)
    match (List.range 68).filter fun p => gfMul (gfPow p) (gfPow p) ^^^ gfMul l1 (gfPow p) ^^^ l2 = 0 with
    | [a, b] =>
      let eb := gfMul (s1 ^^^ gfMul s0 (gfPow a)) (gfInv (gfPow a ^^^ gfPow b))
      some [at_ a (s0 ^^^ eb), at_ b eb]
    | _ => none

/-- Decode a received word: the half-line of the one codeword within two symbols of it, or none: uncorrectable. -/
def rsDecode (word : Bytes) : Option Bytes :=
  (rsErrors (rsSyndrome word 0) (rsSyndrome word 1) (rsSyndrome word 2) (rsSyndrome word 3)).map fun es =>
    ((word.zipIdx.map fun b => es.foldl (fun v e => if e.1 = b.2 then v ^^^ BitVec.ofNat 8 e.2 else v) b.1).take 64)

/-- What a reader gets of a line whose first half-line has its first `n` bytes flipped in its memory: the line as it was written,
corrected, or none where a codeword is uncorrectable. -/
def rsLine (n : Nat) (line : Bytes) : Option Bytes :=
  let flip := fun (b : Bytes) => b.zipIdx.map fun x => if x.2 < n then ~~~x.1 else x.1
  match rsDecode (flip (rsEncode (line.take 64))), rsDecode (rsEncode (line.drop 64)) with
  | some a, some b => some (a ++ b)
  | _, _ => none

end Sys2Proof.Machine
end

