-- ==== Sys2Proof/Machine/Cipher.lean ====
section
/-! DEFINITION. Sys2Proof/Machine/Cipher.lean: the general cipher engine (R344 to R346) and the DRBG instances with
their entropy input (R341 to R343). -/
namespace Sys2Proof.Machine

/-- Change the general cipher engine. -/
def State.modGce (s : State) (f : Gce → Gce) : State := { s with gce := f s.gce }

/-- A command of the engine (R344, R346): it writes the data registers it names, then GO. While FAULT is set GO is ignored and counted
in 0x4000.05, and the registers stay as written; otherwise GCE_CTRL holds OP and the operation runs. DONE is set where it completed: a
refused one has set ERR, or FAULT, instead (Table 13.10). -/
def State.gceGo (s : State) (op : Nat) (wide : Bool) (regs : Gce → Gce) (f : State → State × Bool) : State :=
  s.whenAlive fun s =>
    let s1 := s.modGce regs
    if s.gce.fault then s1.bump 0x4000 5
    else
      let r := f (s1.modGce fun g => { g with ctrl := op + bn wide * 2 ^ 5 })
      if r.2 then r.1.modGce fun g => { g with done := true } else r.1

/-- A write of GCE_DIN. -/
def Gce.withDin (din : Bytes) (g : Gce) : Gce := { g with din := padTo 16 din }

/-- A register of the engine after a write of it, where there is one. -/
def regWritten (old : Bytes) (v : Option Bytes) : Bytes := match v with | some b => padTo 16 b | none => old

/-- An operation that completes. -/
def State.gceDone (s : State) (f : Gce → Gce) : State × Bool := (s.modGce f, true)

/-- An operation refused with ERR and a cause of class 0x8. -/
def State.gceErr (s : State) (cause : Nat) : State × Bool := (s.modGce fun g => { g with err := true, cause := cause }, false)

/-- An operation that needs the engine's key: where none is loaded, because no leaf was named or the named one became unusable
(R20), the use is refused and counted, with ERR and cause 0x001 (R325; DEDUCED, log entry 102). -/
def State.gceKeyed (s : State) (f : Bytes → Gce → Gce) : State × Bool :=
  match s.gce.key with
  | some k => s.gceDone (f k)
  | none => (s.refuseUse 0x8001).gceErr 1

/-- A write to GCE_KEYSEL (R344): the leaf must be usable and carry use bit 9; otherwise no key is loaded. -/
def execGceKeysel (leaf : Nat) (s : State) : Host.Outcome State Fault Refusal :=
  done (s.whenAlive fun s =>
    let i := leaf % 65536
    let s1 := s.modGce fun g => { g with keysel := i }
    let s2 := s1.modKeys fun ks => { ks with caches := ks.caches.filter fun c => decide (c.1 ≠ gceEngine) }
    match s2.useKey gceEngine 9 i (s2.slot i).gen with
    | .ok t => t.modGce fun g => { g with key := some (padTo 32 (t.material i (t.slot i).gen)), done := true }
    | .error e => (s2.refuseUse e).modGce fun g => { g with key := none, err := true, cause := e % 2 ^ 12 })

/-- ENC: DOUT = AES of DIN (R345). -/
def execEnc (din : Bytes) (s : State) : Host.Outcome State Fault Refusal :=
  done (s.gceGo 1 false (Gce.withDin din) fun s => s.gceKeyed fun k g => { g with dout := aesEnc k g.din })

/-- DEC: DOUT = inverse AES of DIN (R345). -/
def execDec (din : Bytes) (s : State) : Host.Outcome State Fault Refusal :=
  done (s.gceGo 2 false (Gce.withDin din) fun s => s.gceKeyed fun k g => { g with dout := aesDec k g.din })

/-- Are the width-selected counter bits all ones (R346). -/
def ctrAtEnd (wide : Bool) (ctr : Bytes) : Bool :=
  (if wide then ctr else ctr.drop 12).all fun b => b = 0xFF#8

/-- CTR after one block (Table 13.13). -/
def ctrNext (wide : Bool) (ctr : Bytes) : Bytes := if wide then beBytes 16 (beNat ctr + 1) else inc32 ctr

/-- CTR_ENC, after a write of GCE_CTR where the command carries one: DOUT = AES of CTR, XOR DIN, and CTR increments; at the counter
end, or under injection point 0x16, FAULT is set with cause 0x005 and CTR and DOUT stay (R345, R346, R504). -/
def execCtrEnc (r : GceIn) (wide : Bool) (s : State) : Host.Outcome State Fault Refusal :=
  done (s.gceGo 3 wide (fun g => { g.withDin r.din with ctr := regWritten g.ctr r.reg }) fun s =>
    let c := padTo 16 s.gce.ctr
    let inj := s.takeInjection 0x16 0
    let s1 := inj.getD s
    if ctrAtEnd wide c || inj.isSome then
      ((s1.modGce fun g => { g with fault := true, cause := 5 }).error 8 0 none 0x8005 0, false)
    else s1.gceKeyed fun k g => { g with dout := xorBytes (aesEnc k c) g.din, ctr := ctrNext wide c })

/-- GHASH, after a write of GCE_Y where the command carries one: Y = (Y XOR DIN) times H (R345). -/
def execGhash (r : GceIn) (s : State) : Host.Outcome State Fault Refusal :=
  done (s.gceGo 4 false (fun g => { g.withDin r.din with y := regWritten g.y r.reg }) fun s => s.gceDone fun g =>
    { g with y := ghashMul (xorBytes (padTo 16 g.y) g.din) (padTo 16 g.h) })

/-- LOAD_H: H = AES of zero, never readable (R345). -/
def execLoadH (s : State) : Host.Outcome State Fault Refusal :=
  done (s.gceGo 5 false id fun s => s.gceKeyed fun k g => { g with h := aesEnc k (List.replicate 16 0#8) })

/-- SHA_INIT: DIGEST = the SHA-384 initial value (R345). -/
def execShaInit (s : State) : Host.Outcome State Fault Refusal :=
  done (s.gceGo 6 false id fun s => s.gceDone fun g => { g with digest := Sys2Proof.Machine.shaInit })

/-- SHA_BLOCK: one compression of GCE_SHA_BLK into DIGEST (R345). -/
def execShaBlock (blk : Bytes) (s : State) : Host.Outcome State Fault Refusal :=
  done (s.gceGo 7 false (fun g => { g with shaBlk := padTo 128 blk }) fun s => s.gceDone fun g =>
    { g with digest := shaCompress (if g.digest = [] then List.replicate 8 0 else g.digest) g.shaBlk })

/-- DRBG: DOUT = 128 bits of the engine's child; with the DRBGs stopped the command ends with ERR and cause 0x008
(R343, R345). -/
def execDrbg (s : State) : Host.Outcome State Fault Refusal :=
  done (s.gceGo 8 false id fun s => match s.drawChild drbgGce 16 with
    | some (b, t) => t.gceDone fun g => { g with dout := b }
    | none => (s.error 8 0 none 0x8008 0).gceErr 8)

/-- SHA_CLEAR: DIGEST, GCE_SHA_BLK and H zeroed (R345). -/
def execShaClear (s : State) : Host.Outcome State Fault Refusal :=
  done (s.gceGo 9 false id fun s => s.gceDone fun g => { g with digest := [], shaBlk := [], h := [] })

/-- A W1C write to GCE_STATUS clears DONE (1), ERR (2) and FAULT (3) where they were set (R340, R346). -/
def execGceStatusClear (w : Nat) (s : State) : Host.Outcome State Fault Refusal :=
  done (s.whenAlive fun s => s.modGce fun g =>
    { g with done := g.done && !bit w 1, err := g.err && !bit w 2, fault := g.fault && !bit w 3 })

/-! ## DRBG instances -/

/-- Change the DRBG instances. -/
def State.modRandom (s : State) (f : Random → Random) : State := { s with random := f s.random }

/-- An entropy word arrives: en_ready is high while the sixth word of a seed is still due (R342). -/
def execEntropyWord (word : Nat) (s : State) : Host.Outcome State Fault Refusal :=
  done (if s.bring.por || s.random.stopped || s.random.seed.isSome then s
    else s.modRandom fun r =>
      let ws := r.words ++ [word % 2 ^ 64]
      if ws.length = 6 then { r with words := [], seed := some (ws.flatMap (leBytes 8)) } else { r with words := ws })

/-- The master reseeds from the 384 entropy bits received (R341). -/
def execMasterReseed (s : State) : Host.Outcome State Fault Refusal :=
  done (match s.random.seed with
    | some seed =>
      if s.random.stopped || s.bring.por then s
      else s.reseedMaster seed
    | none => s)

/-- A child instance reseeds from the master (R341). -/
def execChildReseed (child : Nat) (s : State) : Host.Outcome State Fault Refusal :=
  done (if child = 0 || 46 < child || s.bring.por then s else (s.seedChild child).getD s)

/-- Every instance is uninstantiated at once and the entropy alarm is raised (R343). -/
def State.stopDrbgs (s : State) : State :=
  if s.random.stopped then s
  else ((s.modRandom fun _ => { stopped := true }).alarm 5 none 0 0x9014).error 8 0 none 0x8008 0

/-- en_fail held, a failed continuous test, or a reseed unanswered: the DRBGs stop; before blk_ready the ROM halts with
0x9014 in blk_err_code (R343, R532). -/
def execDrbgStop (s : State) : Host.Outcome State Fault Refusal :=
  done (if s.bring.por then s
    else
      let t := s.stopDrbgs
      if s.bring.ready then t
      else { t with bring := { t.bring with halted := true }, faults := { t.faults with errCode := 0x9014 } })

/-- A READ of 0x4030.01 (R343, R349, R455): 32 fresh bytes of the cipher engine's instance, refused with 0x0802 while the
DRBGs are stopped. -/
def execRandomRead (m : Mgmt) (offset length : Nat) (s : State) : Host.Outcome State Fault Refusal :=
  done (if !s.serving then s
    else if s.roleOf m = .none then s.answer m 0x4030 1 0x0501 []
    else if 32 ≤ offset || 32 < offset + length then s.answer m 0x4030 1 0x0605 []
    else match s.drawChild drbgGce 32 with
      | none => s.answer m 0x4030 1 0x0802 []
      | some (b, t) => t.answer m 0x4030 1 0 ((b.drop offset).take (if length = 0 then 32 else length)))

end Sys2Proof.Machine
end

