-- ==== Sys2Proof/Machine/SealCore.lean ====
section
/-! DEFINITION. Sys2Proof/Machine/SealCore.lean: a memory port's layout, the sealing of its lines, its metadata cache
and its lanes (R191 to R213). -/
namespace Sys2Proof.Machine

/-- A memory port. -/
def State.port (s : State) (m : Nat) : MemPort := tblGet s.mem m {}

/-- Change a memory port. -/
def State.modPort (s : State) (m : Nat) (f : MemPort → MemPort) : State := { s with mem := tblMod s.mem m f {} }

/-! ## Layout (R192, R193) -/

/-- A size rounded up to whole lines. -/
def lineUp (n : Nat) : Nat := (n + 127) / 128 * 128

/-- Bytes of data that one metadata line of a level covers: level 0 is the counter line (R192). -/
def metaSpan (lvl : Nat) : Nat := 2 ^ (14 + 4 * lvl)

/-- Bytes of a level's area: a 128-byte line for each span begun, which is the size of Table 8.1 rounded up. -/
def metaSize (d lvl : Nat) : Nat := 128 * ((d + metaSpan lvl - 1) / metaSpan lvl)

/-- Base of a level's area; level 5 is the end of metadata. -/
def metaBase (d : Nat) : Nat → Nat
  | 0 => d + lineUp (d / 16)
  | n + 1 => metaBase d n + metaSize d n

/-- The metadata line of a level that covers data address `a`. -/
def metaLine (d lvl a : Nat) : Nat := metaBase d lvl + 128 * (a / metaSpan lvl)

/-- The counter line and nodes of a data address, from the counter line upward. -/
def metaChain (d a : Nat) : List Nat := (List.range 5).map fun l => metaLine d l a

/-- The tag line of a data address, and the byte of its tag in it. -/
def tagLine (d a : Nat) : Nat := d + a / 16 / 128 * 128
@[inherit_doc tagLine] def tagByte (a : Nat) : Nat := a / 16 % 128

/-- The level of a counter line or node address. -/
def metaLevel (d x : Nat) : Nat := ((List.range 5).filter fun l => decide (metaBase d l ≤ x)).length - 1

/-- The index of a counter line or node within its level. -/
def metaIndex (d x : Nat) : Nat := (x - metaBase d (metaLevel d x)) / 128

/-- The chain of lines from a counter line or node upward, itself first. -/
def metaUp (d x : Nat) : List Nat :=
  let l := metaLevel d x
  (List.range (5 - l)).map fun k => metaBase d (l + k) + 128 * (metaIndex d x / 16 ^ k)

/-- Bytes of memory a data capacity needs in a mode. -/
def spaceNeeded (tree : Bool) (d : Nat) : Nat := if tree then metaBase d 5 else d + lineUp (d / 16)

/-- The largest number below `2 ^ k` of 2 MB units that fits, by bisection. -/
def fitUnits (tree : Bool) (installed : Nat) : Nat → Nat → Nat
  | 0, lo => lo
  | k + 1, lo =>
    let mid := lo + 2 ^ k
    fitUnits tree installed k (if mid ≤ 2097152 ∧ spaceNeeded tree (mid * 2 ^ 21) ≤ installed then mid else lo)

/-- DCAP of an installed size (R193). -/
def dataCapacity (tree : Bool) (installed : Nat) : Nat := fitUnits tree installed 22 0 * 2 ^ 21

/-! ## Counter lines, nodes and the root store (R204) -/

/-- MAJOR of a counter line. -/
def ctrMajor (b : Bytes) : Nat := bits (leNat b) 55 0
/-- NEXT_GEN of a counter line. -/
def ctrNextGen (b : Bytes) : Bool := bit (leNat b) 56
/-- The minor of line `j`. -/
def ctrMinor (b : Bytes) (j : Nat) : Nat := bits (leNat b) (70 + 7 * j) (64 + 7 * j)
/-- A line with bits replaced. -/
def setField (b : Bytes) (hi lo v : Nat) : Bytes := leBytes 128 (setBits (leNat b) hi lo v)
/-- The counter of child `j` of a node. -/
def nodeCount (b : Bytes) (j : Nat) : Nat := bits (leNat b) (56 * j + 55) (56 * j)

/-- The end of a node, root or major counter. -/
def end56 : Nat := 2 ^ 56 - 1

/-- The counter that the root store or a cached parent holds for a line of the chain; none where the entry is not valid
or the parent is not at hand. -/
def parentCount (p : MemPort) (extra : Tbl Bytes) (x : Nat) : Option Nat :=
  match metaUp p.dcap x with
  | _ :: y :: _ =>
    let i := metaIndex p.dcap x % 16
    match tblFind p.cache y with
    | some c => some (nodeCount c.data i)
    | none => (tblFind extra y).map fun b => nodeCount b i
  | _ => let e := tblGet p.root (metaIndex p.dcap x) 0
         if bit e 63 then some (bits e 55 0) else none

/-! ## Sealing (R200 to R203) -/

/-- The AES input of Table 8.5. -/
def counterBlock (blk nonce line mode gen : Nat) : Bytes :=
  leBytes 16 (blk + nonce % 2 ^ 64 * 2 ^ 4 + line % 2 ^ 41 * 2 ^ 68 + mode * 2 ^ 109 + gen % 2 ^ 16 * 2 ^ 112)

/-- LINE of a data line: local address bits [47:7]. -/
def dataLine (m a : Nat) : Nat := (m * 2 ^ 43 + a) / 128

/-- The eight keystream blocks of a line. -/
def lineStream (kd : Bytes) (nonce line mode gen : Nat) : Bytes :=
  (List.range 8).flatMap fun k => aesEnc kd (counterBlock (k + 1) nonce line mode gen)

/-- H of a tag key. -/
def hashKey (kt : Bytes) : Bytes := aesEnc kt (List.replicate 16 0#8)

/-- The tag of a data line: tree mode over the ciphertext, tag mode over the plaintext (R201, R202). -/
def lineTag (kt : Bytes) (tree : Bool) (nonce line gen : Nat) (text : Bytes) : Bytes :=
  if tree then (xorBytes (ghash (hashKey kt) [] text) (aesEnc kt (counterBlock 0 nonce line 0 gen))).take 8
  else
    let b0 := counterBlock 0 0 line 1 gen
    (xorBytes (ghash (hashKey kt) b0 text) (aesEnc kt b0)).take 8

/-- Seal a line: ciphertext and tag. `mat` is the slot's material of Table 13.7. -/
def sealLine (mat : Bytes) (tree : Bool) (nonce line gen : Nat) (plain : Bytes) : Bytes × Bytes :=
  let kd := mat.take 32
  let kt := (mat.drop 32).take 32
  if tree then
    let c := xorBytes plain (lineStream kd nonce line 0 gen)
    (c, lineTag kt true nonce line gen c)
  else
    let t := lineTag kt false 0 line gen plain
    (xorBytes plain (lineStream kd (leNat t) line 1 gen), t)

/-- Open a line: its plaintext where the tag verifies. -/
def openLine (mat : Bytes) (tree : Bool) (nonce line gen : Nat) (c tag : Bytes) : Option Bytes :=
  let kd := mat.take 32
  let kt := (mat.drop 32).take 32
  let p := xorBytes c (if tree then lineStream kd nonce line 0 gen else lineStream kd (leNat tag) line 1 gen)
  if lineTag kt tree nonce line gen (if tree then c else p) = tag then some p else none

/-- The tag of a counter line or node at port-relative address `x`, under its parent's counter `p` (R203). -/
def metaTag (mat : Bytes) (p x : Nat) (body : Bytes) : Bytes :=
  let km := mat.take 32
  let hm := hashKey ((mat.drop 32).take 32)
  (xorBytes (ghash hm [] (body.take 120)) (aesEnc km (counterBlock 0xF p (x / 128) 0 0))).take 8

/-- The tree keys of a port. -/
def State.treeKeys (s : State) (m : Nat) : Bytes :=
  let i := (s.port m).treeSlot
  s.material i (s.slot i).gen

/-! ## Regions and requests (R195, R196) -/

/-- The region of a port that holds a data address and is not free. -/
def regionAt (p : MemPort) (a : Nat) : Option (Nat × Region) :=
  p.regions.find? fun kv => kv.2.state ≠ 0 && decide (kv.2.base * 2 ^ 14 ≤ a ∧ a < (kv.2.base + kv.2.pages) * 2 ^ 14)

/-- Does a request write. -/
def Access.writes : Access → Bool
  | .load => false
  | _ => true

/-- The engine classes that read and write a region KIND (Table 8.4), by their bits of Table 13.4. -/
def kindReaders (kind : Nat) : List Nat := if kind = 0 then [0, 1, 2, 3, 4, 5, 12] else if kind = 1 then [0] else if kind = 2 then [1] else [10, 11]
@[inherit_doc kindReaders] def kindWriters (kind : Nat) : List Nat := if kind = 0 then [0, 1, 3, 4, 5, 12] else if kind = 1 then [0] else if kind = 2 then [4] else [10, 11]

/-- Is a class served by a region: Table 8.4 and the use mask; code 0b11 of CLS, class 16, stands for host ports, bridge
lanes, the reduction engine and the queue manager together, and no remote request reads KV or sampler input regions or
writes a KV region (R196). -/
def classServed (kind use cls : Nat) (writes remote : Bool) : Bool :=
  let one := fun c => bit use c && (if writes then (kindWriters kind).contains c else (kindReaders kind).contains c)
  let all := if cls = 16 then (if writes then [5, 3, 12] else [5, 2, 3, 12]).all one else one cls
  all && !(remote && (kind = 1 || (kind = 2 && !writes)))

/-- The error code with which the key store refuses a port's tree leaf (R325, R326). -/
def State.treeRefuse (s : State) (m : Nat) : Option Nat :=
  let i := (s.port m).treeSlot
  if !s.usable i then some 0x8001 else if !bit (s.slot i).use 8 then some 0x8002 else none

/-- The code that refuses a request before any line port request (R191, R196, R206), none where it is served. -/
def State.lineRefusal (s : State) (m : Nat) (q : LineReq) : Option (Code × Nat) :=
  let p := s.port m
  if p.state = 4 then some (.timeout, 0x100F)
  else if p.dcap ≤ q.line then some (.access, 0x100B)
  else match regionAt p q.line with
    | none => some (.access, 0x100B)
    | some (_, g) =>
      if !(g.part = q.part && (g.state = 2 || g.state = 3)) then some (.access, 0x100B)
      else if !s.usable g.slot then some (.access, 0x8001)
      else if !classServed g.kind (s.slot g.slot).use q.cls q.acc.writes q.remote then some (.access, 0x100B)
      else if p.mode = 1 then (s.treeRefuse m).map fun e => (.access, e)
      else none

/-- Entries of the poison list of a tag-mode port (R207). -/
def poisonKey (p : MemPort) (a : Nat) : Option Nat :=
  (p.root.find? fun kv => bit kv.2 63 && bits kv.2 35 0 = a / 128).map (·.1)

/-- The data that goes with a failed outcome: the poison value for a load or an atomic (R288). -/
def failData : Access → Bytes
  | .load => List.replicate 128 0xFF#8
  | .atomic _ wide _ _ => List.replicate (if wide then 8 else 4) 0xFF#8
  | _ => []

/-- End a request with a failure. -/
def State.failLine (s : State) (q : LineReq) (c : Code) (e : Nat) : State := s.reply q.reply c e (failData q.acc)

/-- An integrity event of a memory port (R220): 0x3042 counts it, alarm source .06. -/
def State.portEvent (s : State) (m : Nat) (part : Option Nat) (e a : Nat) : State :=
  s.integrity 0x3042 (m + 1) 0 m part e a 6

/-- The partition a line's region belongs to. -/
def State.partAt (s : State) (m a : Nat) : Option Nat := (regionAt (s.port m) a).map (·.2.part)

/-- A request arrives at its home port (R196, R207): refused at once, or waiting at its line's order point. Behind a full-line
write that waits, a listed line is judged when its turn comes (Table 8.13). -/
def State.lineAccept (s : State) (m : Nat) (q : LineReq) : State :=
  match s.lineRefusal m q with
  | some (c, e) =>
    let s1 := if e = 0x8001 || e = 0x8002 then s.refuseUse e else s.error 0 m (some q.part) e q.line
    s1.failLine q c e
  | none =>
    let full := match q.acc with | .store _ => true | _ => false
    let clears := (s.port m).waiting.any fun x => x.line = q.line && (match x.acc with | .store _ => true | _ => false)
    if (s.port m).mode = 2 && (poisonKey (s.port m) q.line).isSome && !full && !clears then
      (s.error 0 m (some q.part) 0x1003 q.line).failLine q .poison 0x1003
    else ({ s with clock := s.clock + 1 } : State).modPort m fun p => { p with waiting := p.waiting ++ [{ q with seq := s.clock }] }

/-! ## The metadata cache (R208) -/

/-- The set of a metadata line. -/
def cacheSet (x : Nat) : Nat := x / 128 % 2048

/-- Is a cached line never chosen for replacement. -/
def CacheLine.pinned (c : CacheLine) : Bool := decide (0 < c.pins) || decide (0 < c.fails) || c.writing || c.ended

/-- Mark a cached line as made dirty by a class: that of a sweep or of an initialisation stays with it (R237). -/
def cacheSwept (p : MemPort) (x : Nat) (cls : LaneClass) : MemPort :=
  match tblFind p.cache x with
  | none => p
  | some c => if cls = .sweep || cls = .init then { p with cache := tblPut p.cache x { c with cls } } else p

/-- Mark a line used. -/
def cacheTouch (p : MemPort) (x : Nat) : MemPort :=
  match tblFind p.cache x with
  | none => p
  | some c => { p with cache := tblPut p.cache x { c with lru := p.clock }, clock := p.clock + 1 }

/-- Change a cached line's data and mark it dirty. -/
def cacheWrite (p : MemPort) (x : Nat) (f : Bytes → Bytes) : MemPort :=
  match tblFind p.cache x with
  | none => p
  | some c => cacheTouch { p with cache := tblPut p.cache x { c with data := f c.data, dirty := true } } x

/-- Change the pins of a cached line. -/
def cachePin (p : MemPort) (x : Nat) (up : Bool) : MemPort :=
  match tblFind p.cache x with
  | none => p
  | some c => { p with cache := tblPut p.cache x { c with pins := if up then c.pins + 1 else c.pins - 1 } }

/-- The line of a chain where a walk stops: the first held in the cache (R205). -/
def firstCached (p : MemPort) (chain : List Nat) : List Nat := (chain.find? fun x => (tblFind p.cache x).isSome).toList

/-- The cached lines that the operation at an order point relies on: the tag line and where its walk stops; for a metadata line
being written back, the line itself and where its parent's walk stops. -/
def opUses (p : MemPort) (a : Nat) : List Nat :=
  if p.dcap ≤ a then a :: firstCached p ((metaUp p.dcap a).drop 1)
  else tagLine p.dcap a :: (if p.mode = 1 then firstCached p (metaChain p.dcap a) else [])

/-- Is a cached line in use by an operation: it stays until the operation ends (R205, R225). -/
def lineInUse (p : MemPort) (x : Nat) : Bool := p.points.any fun kv => kv.2.op.isSome && (opUses p kv.1).contains x

/-- An operation has used its cached lines (R208). -/
def cacheUse (p : MemPort) (a : Nat) : MemPort := (opUses p a).foldl cacheTouch p

/-- What a set does for a new line: room, a clean victim, a dirty victim, or every way pinned. -/
inductive WayFor where
  | room
  | clean (x : Nat)
  | dirty (x : Nat)
  | full

/-- The way a new line takes: least recently used among tag lines, then counter lines, then nodes. -/
def cacheWay (p : MemPort) (x : Nat) : WayFor :=
  let set := p.cache.filter fun kv => cacheSet kv.1 = cacheSet x
  if set.length < 16 then .room
  else match argMin (fun kv => kv.2.kind * 2 ^ 64 + kv.2.lru) (set.filter fun kv => !kv.2.pinned && !lineInUse p kv.1) with
    | none => .full
    | some (y, c) => if c.dirty then .dirty y else .clean y

/-- The kind of a metadata line: 0 tag line, 1 counter line, 2 node. -/
def metaKind (p : MemPort) (x : Nat) : Nat :=
  if x < metaBase p.dcap 0 then 0 else if x < metaBase p.dcap 1 then 1 else 2

/-- Install a line where its set has a way: the port after, or the dirty line that must leave first (none: every way is
pinned). -/
def cacheInstall (p : MemPort) (x : Nat) (b : Bytes) (dirty : Bool) : Except (Option Nat) MemPort :=
  if (tblFind p.cache x).isSome then .ok p
  else
    let put := fun (q : MemPort) =>
      { q with cache := tblPut q.cache x { data := b, kind := metaKind p x, dirty, lru := q.clock }, clock := q.clock + 1 }
    match cacheWay p x with
    | .room => .ok (put p)
    | .clean y => .ok (put { p with cache := tblDel p.cache y })
    | .dirty y => .error (some y)
    | .full => .error none

/-! ## The lanes (R41) -/

/-- The lane of a port-relative address. -/
def laneOf (a : Nat) : Nat := a / 128 % 8

/-- Offer a request to its lane. -/
def State.offer (s : State) (m : Nat) (r : LaneReq) : State := s.modPort m fun p => { p with offered := p.offered ++ [r] }

/-! ## The easel (R209, R210) -/

/-- Entries of a lane in use: those of hits, or those reserved by reads that missed with the plaintext held ahead of the edge. -/
def easelLoad (p : MemPort) (lane : Nat) (missed : Bool) : Nat :=
  (p.easel.filter fun e => laneOf e.addr = lane && e.missed = missed).length +
  (if missed then (p.sweep.ahead.filter fun kv => laneOf kv.1 = lane).length else 0)

/-- The read that takes the next reserved entry: the oldest that waits on a lane with one free. -/
def easelNext (p : MemPort) : Option EaselEntry := p.easelWait.find? fun e => decide (easelLoad p (laneOf e.addr) true < 240)

/-- Free the entries of an order point's operation. -/
def easelFree (p : MemPort) (line : Nat) : MemPort := { p with easel := p.easel.filter fun e => decide (e.line ≠ line) }

/-- Offer a read to its lane: a data line for its order point, a metadata line for all that wait for it. -/
def State.offerRead (s : State) (m : Nat) (e : EaselEntry) (cls : LaneClass) : State :=
  let mdata := decide ((s.port m).dcap ≤ e.addr)
  s.offer m { write := false, addr := e.addr, mdata, data := [], why := if mdata then .fetch e.line else .op e.line, cls }

/-- Is a metadata line being read: offered, waiting for an easel entry, or outstanding and not late. -/
def fetching (p : MemPort) (x : Nat) : Bool :=
  (p.offered.any fun r => r.addr = x && !r.write) || (p.easelWait.any fun e => e.addr = x) || p.tags.any fun kv => kv.2.addr = x && !kv.2.write && !kv.2.late

/-- The lowest tag of a lane not in use (R41). -/
def freeTag (p : MemPort) (lane : Nat) : Option Nat :=
  (List.range 512).find? fun t => (tblFind p.tags (lane * 512 + t)).isNone

/-- Requests outstanding on a lane, late ones included (R43). -/
def laneLoad (p : MemPort) (lane : Nat) : Nat := (p.tags.filter fun kv => kv.1 / 512 = lane).length

end Sys2Proof.Machine
end

