-- ==== Sys2Proof/Machine/Seal.lean ====
section
/-! DEFINITION. Sys2Proof/Machine/Seal.lean: the order point of a line and what it serves: reads, writes, partial
writes, atomics, moves, poisoning and write-backs (R204 to R222, R278 to R282). -/
namespace Sys2Proof.Machine

/-- A line's order point. -/
def State.point (s : State) (m a : Nat) : OrderPoint := tblGet (s.port m).points a {}

/-- Change a line's order point. -/
def State.modPoint (s : State) (m a : Nat) (f : OrderPoint → OrderPoint) : State :=
  s.modPort m fun p => { p with points := tblMod p.points a f {} }

/-- Contenders beyond the 40 of R525 stand for the engine itself: a page move, a read ahead of the wet edge, a retried
counter line, a parent line being fetched for a write-back, the write of a merged held copy, a scrub's counter line, a metadata line that the
sweep reads on its own. -/
def byMove : Nat := 100
@[inherit_doc byMove] def byAhead : Nat := 101
@[inherit_doc byMove] def byPoison : Nat := 102
@[inherit_doc byMove] def byParent : Nat := 103
@[inherit_doc byMove] def byHeld : Nat := 104
@[inherit_doc byMove] def byScrub : Nat := 105
@[inherit_doc byMove] def byPage : Nat := 106

/-! ## Generations and pages (R218, R229) -/

/-- The transition register of a page, by its counter line (R218). -/
def transitionOf (p : MemPort) (ctr : Nat) : Option Transition := p.transitions.find? fun t => t.page = ctr

/-- Change a transition register. -/
def modTransition (p : MemPort) (ctr : Nat) (f : Transition → Transition) : MemPort :=
  { p with transitions := p.transitions.map fun t => if t.page = ctr then f t else t }

/-- Does the wet edge stand above a line: the line is already under g + 1 (Table 9.1). -/
def belowEdge (p : MemPort) (r a : Nat) : Bool :=
  (p.sweep.region = r) && (p.sweep.state = 1 || p.sweep.state = 2 || p.sweep.state = 3 || p.sweep.state = 4) && decide (a < p.sweep.edge)

/-- The generation that seals a data line (Table 9.1); in a region whose sweep was interrupted, the edge stands where it stood
(R238, R239). -/
def State.lineGen (s : State) (m r : Nat) (g : Region) (a : Nat) (nextGen : Bool) : Nat :=
  let k := s.slot g.slot
  if (g.state = 3 && belowEdge (s.port m) r a) || ((g.state = 3 || g.state = 4) && decide (a < g.edge)) || nextGen then k.gen + 1 else k.gen

/-- MAJOR and generation under which a line of a tree-mode page is read now (R218, R219). -/
def State.pageParams (s : State) (m r : Nat) (g : Region) (a : Nat) : Nat × Nat :=
  let p := s.port m
  let x := metaLine p.dcap 0 a
  let b := (tblGet p.cache x {}).data
  let gen := s.lineGen m r g a (ctrNextGen b)
  match transitionOf p x with
  | none => (ctrMajor b, gen)
  | some t => if t.moved.contains (a / 128 % 128) then (ctrMajor b, if t.toNext then (s.slot g.slot).gen + 1 else gen) else (t.oldMajor, gen)

/-! ## Write-backs (R206) -/

/-- The port enters the failed state (R206, R220); a running sweep stops and keeps its edge (Table 9.4). -/
def State.failPort (s : State) (m : Nat) : State :=
  ((s.modPort m fun p =>
    { p with state := 4, sweep := { p.sweep with state := if p.sweep.state = 0 then 0 else 4 } }).stateTrace 0 m (s.port m).state 4).error 0 m none 0x100F 0

/-- A write-back attempt of a line failed: counted, retried once per 1 µs, the sixteenth fails the port. -/
def State.writeBackFailed (s : State) (m x : Nat) : State :=
  let c := tblGet (s.port m).cache x {}
  let s1 := (s.bump 0x3042 (m + 1)).modPort m fun p =>
    { p with cache := tblPut p.cache x { c with fails := c.fails + 1, writing := false, dirty := true } }
  if 16 ≤ c.fails + 1 then s1.failPort m else s1

/-- Write back a dirty line whose parent, if it has one, is at hand: the parent's counter advances, the tag is sealed
under it and the line is offered; at the counter's end the line stays pinned. Where the key store refuses the tree leaf, the attempt
counts as a write-back failure (R325; DEDUCED, log entry 99: no chapter gives a write-back a code for it). -/
def State.writeBackNow (s : State) (m x : Nat) : State :=
  let p := s.port m
  let c := tblGet p.cache x {}
  if c.kind = 0 then
    (s.modPort m fun p => { p with cache := tblPut p.cache x { c with writing := true, dirty := false, snap := c.data } }).offer m
      { write := true, addr := x, mdata := true, data := c.data, why := .writeBack, cls := c.cls }
  else match s.treeRefuse m with
  | some e => (s.refuseUse e).writeBackFailed m x
  | none =>
    let inj := s.takeInjection 0x15 m
    let s0 := inj.getD s
    match parentCount p [] x with
    | none => s0
    | some n =>
      if n = end56 || inj.isSome then
        (s0.modPort m fun p => { p with cache := tblPut p.cache x { c with ended := true } }).error 0 m none 0x1009 x
      else
        let i := metaIndex p.dcap x
        let up := fun (p : MemPort) => match metaUp p.dcap x with
          | _ :: y :: _ => cacheSwept (cacheWrite p y fun b => setField b (56 * (i % 16) + 55) (56 * (i % 16)) (n + 1)) y c.cls
          | _ => { p with root := tblPut p.root i (2 ^ 63 + (n + 1)) }
        let body := c.data.take 120
        let sealed := body ++ metaTag (s0.treeKeys m) (n + 1) x body
        (s0.modPort m fun p =>
          let p1 := up p
          { p1 with cache := tblPut p1.cache x { c with writing := true, dirty := false, snap := sealed } }).offer m
            { write := true, addr := x, mdata := true, data := sealed, why := .writeBack, cls := c.cls }

/-- The lane class of what an operation reads and writes (R217, R237, R429). -/
def State.opClass (s : State) (m : Nat) (q : LineReq) : LaneClass :=
  if q.contender = byMove then .move
  else if q.contender = byAhead || q.contender = byPage then .sweep
  else if q.contender = byParent then (tblGet (s.port m).cache q.line {}).cls
  else if ((regionAt (s.port m) q.line).map (·.2.state)) = some 1 then .init
  else if q.cls = 10 then .writer else .master

/-- Give easel entries to the reads that wait for one, in order, and offer them (R209). -/
def easelGrantN (m : Nat) : Nat → State → State
  | 0, s => s
  | n + 1, s => match easelNext (s.port m) with
    | none => s
    | some e =>
      let cls := match (s.point m e.line).op with | some o => s.opClass m o.req | none => .master
      easelGrantN m n ((s.modPort m fun p => { p with easelWait := p.easelWait.erase e, easel := p.easel ++ [e] }).offerRead m e cls)

@[inherit_doc easelGrantN] def State.easelGrant (s : State) (m : Nat) : State := easelGrantN m (s.port m).easelWait.length s

/-- Hold an operation at its order point for the lines it needs (R205, R209, R214): a metadata line that another operation is
reading is not asked for twice; where metadata is missing, or for a read ahead of the edge, each read waits for a reserved easel
entry; with all metadata cached the reads are offered at once. -/
def State.holdOp (s : State) (m : Nat) (q : LineReq) (need : List Nat) : State :=
  let p := s.port m
  let missed := q.contender = byAhead || need.any fun a => decide (p.dcap ≤ a)
  let asks := (need.filter fun a => a < p.dcap || !fetching p a).map fun a => (⟨q.line, a, missed⟩ : EaselEntry)
  let s1 := s.modPoint m q.line fun o => { o with op := some { req := q, need, got := [], fail := none } }
  if missed then (s1.modPort m fun p => { p with easelWait := p.easelWait ++ asks }).easelGrant m
  else asks.foldl (fun s e => s.offerRead m e (s.opClass m q)) s1

/-- The missing lines of a chain, from its bottom up to the first line held in the cache. -/
def missing (p : MemPort) (chain : List Nat) : List Nat := chain.takeWhile fun x => (tblFind p.cache x).isNone

/-- Count cache hits and misses of a walk (0x3040, 0x3041): one hit where it met a cached line. -/
def State.countCache (s : State) (m hits misses : Nat) : State := (s.bumpBy 0x3040 (m + 1) hits).bumpBy 0x3041 (m + 1) misses

/-- Start a write-back (R206): the parent is brought into the cache first if it is absent. -/
def State.writeBack (s : State) (m x : Nat) : State :=
  let p := s.port m
  let c := tblGet p.cache x {}
  if !c.dirty || c.writing || c.ended then s
  else if c.kind = 0 then s.writeBackNow m x
  else
    let need := missing p ((metaUp p.dcap x).drop 1)
    if need.isEmpty then s.writeBackNow m x
    else if (s.point m x).op.isSome then s
    else (s.countCache m 0 need.length).holdOp m ⟨x, .load, 0, 8, byParent, .none, 0, false, 0⟩ need

/-- Retry a failed write-back: the write as it was sealed, or the parent fetch that failed. -/
def State.writeBackAgain (s : State) (m x : Nat) : State :=
  let c := tblGet (s.port m).cache x {}
  if c.fails = 0 || c.writing || (s.port m).state = 4 then s
  else if c.snap.isEmpty then s.writeBack m x
  else
    let n := if c.kind = 0 then 128 else 120
    let same := decide (c.snap.take n = c.data.take n)
    (s.modPort m fun p => { p with cache := tblPut p.cache x { c with writing := true, dirty := !same } }).offer m
      { write := true, addr := x, mdata := true, data := c.snap, why := .writeBack, cls := c.cls }

/-- A write-back's response is good: the line leaves the cache unless it is pinned, in use or was written meanwhile. -/
def State.writeBackDone (s : State) (m x : Nat) : State :=
  s.modPort m fun p => match tblFind p.cache x with
    | none => p
    | some c =>
      if c.dirty || 0 < c.pins || lineInUse p x then
        { p with cache := tblPut p.cache x { c with writing := false, fails := 0, snap := [], cls := if c.dirty then c.cls else .master } }
      else { p with cache := tblDel p.cache x }

/-! ## Poison (R207, R220) -/

/-- Record that a line of a tree-mode port becomes poisoned, or ceases to be (0x3046). -/
def State.poisonCount (s : State) (m a : Nat) (up : Bool) : State :=
  s.modPort m fun p =>
    let rest := p.poisoned.filter (· ≠ a)
    { p with poisoned := if up then a :: rest else rest }

/-- Set a line's minor in its cached counter line. -/
def State.setMinor (s : State) (m a v : Nat) : State :=
  s.modPort m fun p => cacheWrite p (metaLine p.dcap 0 a) fun b =>
    let j := a / 128 % 128
    setField b (70 + 7 * j) (64 + 7 * j) v

/-- The minor of a line in its cached counter line. -/
def State.minor (s : State) (m a : Nat) : Nat :=
  ctrMinor (tblGet (s.port m).cache (metaLine (s.port m).dcap 0 a) {}).data (a / 128 % 128)

/-- Poison a line (R220): minor 0x7F, or a poison entry; plaintext held of it ahead of the wet edge goes. The error code that the event then carries in place of `e` is
0x100C when the list is full. A counter line that is not at hand is fetched, and the line's order point holds. -/
def State.poison (s0 : State) (m a e : Nat) : Nat × State :=
  let s := s0.modPort m fun p => { p with sweep := { p.sweep with ahead := tblDel p.sweep.ahead a } }
  let p := s.port m
  if p.mode = 2 then
    if (poisonKey p a).isSome then (e, s)
    else match (List.range 4096).find? fun i => (tblFind p.root i).isNone with
      | none => (0x100C, s)
      | some i => (e, (s.modPort m fun p => { p with root := tblPut p.root i (2 ^ 63 + a / 128) }))
  else if (tblFind p.cache (metaLine p.dcap 0 a)).isSome then
    if s.minor m a = 0x7F then (e, s) else (e, (s.setMinor m a 0x7F).poisonCount m a true)
  else (e, (s.modPoint m a fun o => { o with poisonTry := some 0 }).holdOp m ⟨a, .load, 0, 8, byPoison, .none, 0, false, 0⟩
    (missing p (metaChain p.dcap a)))

/-- Poison a line and report the integrity event that caused it. -/
def State.poisonEvent (s : State) (m a e : Nat) : State :=
  let r := s.poison m a e
  r.2.portEvent m (s.partAt m a) r.1 a

/-- Forget a line's poison entry in tag mode (R221). -/
def State.clearPoison (s : State) (m a : Nat) : State :=
  match poisonKey (s.port m) a with
  | none => s
  | some i => s.modPort m fun p => { p with root := tblDel p.root i }

/-! ## Writes -/

/-- Put a request back in front of those that wait. -/
def State.requeue (s : State) (m : Nat) (q : LineReq) : State := s.modPort m fun p => { p with waiting := q :: p.waiting }

/-- End everyone who waits for the write of a line's held copy, and drop the copy. -/
def State.failHeld (s : State) (m a : Nat) (c : Code) (e : Nat) : State :=
  let o := s.point m a
  o.nextAcks.foldl (fun s w => s.reply w.1 c e (if w.2.isEmpty then [] else w.2.map fun _ => 0xFF#8))
    (s.modPoint m a fun o => { o with held := none, unwritten := false, full := false, nextAcks := [] })

/-- End a write with a failure: the request, or all that its held copy merged. -/
def State.failWrite (s : State) (m : Nat) (q : LineReq) (c : Code) (e : Nat) : State :=
  let s1 := s.error 0 m (some q.part) e q.line
  if q.contender = byHeld then s1.failHeld m q.line c e else s1.failLine q c e

/-- Seal a line, place its tag in the cached tag line, hold the copy and offer the write (R211, R214). -/
def State.putLine (s : State) (m : Nat) (q : LineReq) (g : Region) (plain answer : Bytes) (minor major gen : Nat) : State :=
  let p := s.port m
  let a := q.line
  let tree := decide (p.mode = 1)
  let r := sealLine (s.material g.slot gen) tree (major * 128 + minor) (dataLine m a) gen plain
  let tl := tagLine p.dcap a
  let b := tagByte a
  let cls := s.opClass m q
  let acks := if 100 ≤ q.contender then (s.point m a).nextAcks else [(q.reply, answer)]
  let s1 := s.modPort m fun p =>
    let p1 := cacheSwept (cacheWrite p tl fun x => x.take b ++ r.2 ++ x.drop (b + 8)) tl cls
    let p2 := if (tblFind p1.sweep.ahead a).isSome then { p1 with sweep := { p1.sweep with ahead := tblPut p1.sweep.ahead a plain } } else p1
    { p2 with sweep := { p2.sweep with skip := p2.sweep.skip.filter (· ≠ a) } }
  let s2 := s1.modPoint m a fun o =>
    { o with held := some plain, outstanding := true, unwritten := false, full := false, acks, nextAcks := [], sweepWrite := q.contender = byAhead }
  s2.offer m { write := true, addr := a, mdata := false, data := r.1, why := .data a, cls }

/-- Lines of a page still to move (R217): unmoved, with a minor in 1 to 126. -/
def stillToMove (p : MemPort) (t : Transition) : List Nat :=
  let b := (tblGet p.cache t.page {}).data
  (List.range 128).filter fun j => !t.moved.contains j && decide (1 ≤ ctrMinor b j ∧ ctrMinor b j ≤ 126)

/-- The data address of line `j` of a counter line's page. -/
def pageLine (p : MemPort) (ctr j : Nat) : Nat := metaIndex p.dcap ctr * 2 ^ 14 + 128 * j

/-- A line whose held copy has stores merged that no write carries yet moves with them (R218), once its tag line is at hand: the copy
is sealed at minor 1 under the new MAJOR or generation, and its write, a move's (R217), answers whoever waits for the copy. -/
def State.moveHeld (s : State) (m a : Nat) : State :=
  let p := s.port m
  let x := metaLine p.dcap 0 a
  let q : LineReq := ⟨a, .load, 0, 7, byMove, .none, 0, false, 0⟩
  match regionAt p a, missing p [tagLine p.dcap a] with
  | none, _ => s
  | some _, y :: _ => s.holdOp m q [y]
  | some (r, g), [] =>
    if !s.usable g.slot then (s.refuseUse 0x8001).failHeld m a .access 0x8001 else
    let s1 := (s.modPort m fun p =>
      modTransition { p with waiting := p.waiting.filter fun q => !(q.line = a && q.contender = byHeld) } x fun t => { t with moved := a / 128 % 128 :: t.moved }).setMinor m a 1
    let pr := s1.pageParams m r g a
    s1.putLine m q g ((s.point m a).held.getD []) [] 1 pr.1 pr.2

/-- Start the move reads of a transition whose lines' order points are free (R217), and end it when none is left; a wet edge that
waited for the page goes on (R235, R241). -/
def State.pumpMoves (s : State) (m : Nat) (t : Transition) : State :=
  let p := s.port m
  match stillToMove p t with
  | [] =>
    let resume := fun (w : Sweep) => if w.state = 2 && metaLine p.dcap 0 w.edge = t.page then { w with state := 1 } else w
    let s1 := s.modPort m fun p => cachePin { p with transitions := p.transitions.filter fun u => u.page ≠ t.page, sweep := resume p.sweep } t.page false
    if t.toNext then
      (s1.modPort m fun p => cacheWrite p t.page fun b => setField b 56 56 1).bump 0x3044 (m + 1)
    else s1.bump 0x3043 (m + 1)
  | js => js.foldl (fun s j =>
      let p := s.port m
      let a := pageLine p t.page j
      let o := s.point m a
      if o.op.isSome || o.outstanding || o.poisonTry.isSome || tblGet t.fails j 0 ≠ 0 then s
      else if o.unwritten then s.moveHeld m a
      else s.holdOp m ⟨a, .load, 0, 7, byMove, .none, 0, false, 0⟩ (a :: missing p [tagLine p.dcap a])) s

/-- Move a port's waiting work on: reads that wait for easel entries, and the moves of every transition. -/
def State.pump (s : State) (m : Nat) : State := (s.port m).transitions.foldl (fun s t => s.pumpMoves m t) (s.easelGrant m)

/-- Start a page re-encryption for the line being written (R217), or a local page sweep at the end of MAJOR (R219). The
write goes on, waits, or ends. -/
def State.startTransition (s : State) (m : Nat) (q : LineReq) (r : Nat) (g : Region) : Except (Code × Nat) (Bool × State) :=
  let p := s.port m
  let x := metaLine p.dcap 0 q.line
  let b := (tblGet p.cache x {}).data
  let j := q.line / 128 % 128
  if ctrMajor b = end56 && (ctrNextGen b || g.state = 3) then .error (.counterEnd, 0x100A)
  else if 16 ≤ p.transitions.length then .ok (false, s)
  else if ctrMajor b = end56 then
    let k := if (s.slot g.slot).next then Except.ok s else s.setNextGen g.slot []
    match k with
    | .error e => .error (if e = 4 then (.counterEnd, 0x8004) else (.access, 0x8000 + e))
    | .ok s1 =>
      let queued := p.sweep.queued.contains r || (p.sweep.region = r && (p.sweep.state = 1 || p.sweep.state = 2 || p.sweep.state = 3))
      let t : Transition := { page := x, oldMajor := end56, moved := [], toNext := true, fails := [] }
      .ok (false, s1.modPort m fun p =>
        let p1 := cachePin (cacheWrite p x fun b => setField b 55 0 0) x true
        { p1 with transitions := p1.transitions ++ [t],
                  sweep := if queued || g.state ≠ 2 then p1.sweep else { p1.sweep with queued := r :: p1.sweep.queued } })
  else
    let t : Transition := { page := x, oldMajor := ctrMajor b, moved := [j], toNext := false, fails := [] }
    .ok (true, s.modPort m fun p =>
      let p1 := cachePin (cacheWrite p x fun b => setField b 55 0 (ctrMajor b + 1)) x true
      { p1 with transitions := p1.transitions ++ [t] })

/-- Is a line of the chain kept pinned at its parent's counter end (R206). -/
def chainEnded (p : MemPort) (a : Nat) : Bool := (metaChain p.dcap a).any fun x => (tblGet p.cache x {}).ended

/-- Write a line whose metadata is at hand (R215, R217 to R219, R221): the next minor, a new MAJOR at 126 or after poison,
or a wait for a running transition. `answer` is what the writer is told with OK. -/
def State.writeLine (s : State) (m : Nat) (q : LineReq) (r : Nat) (g : Region) (plain answer : Bytes) : State :=
  let p := s.port m
  let a := q.line
  if p.mode = 2 then
    let s1 := s.clearPoison m a
    s1.putLine m q g plain answer 0 0 (s.lineGen m r g a false)
  else if chainEnded p a then s.failWrite m q .counterEnd 0x1009
  else
    let x := metaLine p.dcap 0 a
    let j := a / 128 % 128
    let old := s.minor m a
    let go := fun (s : State) (minor : Nat) =>
      let s1 := if old = 0x7F then s.poisonCount m a false else s
      let s2 := s1.setMinor m a minor
      let pr := s2.pageParams m r g a
      s2.putLine m q g plain answer minor pr.1 pr.2
    match transitionOf p x with
    | some t =>
      if t.toNext then s.requeue m q
      else if t.moved.contains j then (if old = 126 || old = 0x7F then s.requeue m q else go s (old + 1))
      else go (s.modPort m fun p => modTransition p x fun t => { t with moved := j :: t.moved }) 1
    | none =>
      if old = 126 || old = 0x7F then
        match s.startTransition m q r g with
        | .error e => s.failWrite m q e.1 e.2
        | .ok (true, s1) => (go s1 1).pump m
        | .ok (false, s1) => (s1.requeue m q).pump m
      else go s (old + 1)

/-! ## Reads, merges and atomics -/

/-- The bytes of `d` where the mask is set, those of `old` elsewhere (R216). -/
def mergeBytes (mask : Nat) (old d : Bytes) : Bytes := old.zipIdx.map fun b => if bit mask b.2 then d.getD b.2 0#8 else b.1

/-- The new value of an atomic (Table 11.2). -/
def atomicValue (op : Nat) (wide : Bool) (old x : Nat) : Nat :=
  let w := if wide then 64 else 32
  let a := x % 2 ^ w
  match op with
  | 1 => (old + a) % 2 ^ w
  | 2 => (f32Add (BitVec.ofNat 32 old) (BitVec.ofNat 32 a)).toNat
  | 3 => if sltW w a old then a else old
  | 4 => if sltW w old a then a else old
  | 5 => old &&& a
  | 6 => old ||| a
  | 7 => old ^^^ a
  | _ => a

/-- What an access makes of a line's plaintext, and what it answers. -/
def accessOn (acc : Access) (plain : Bytes) : Bytes × Bytes :=
  match acc with
  | .load => (plain, plain)
  | .store d => (padTo 128 d, [])
  | .partialStore mask d => (mergeBytes mask plain d, [])
  | .atomic op wide off x =>
    let n := if wide then 8 else 4
    let old := leNat ((plain.drop off).take n)
    (plain.take off ++ leBytes n (atomicValue op wide old x) ++ plain.drop (off + n), leBytes n old)

/-- Serve a request from the held copy (R214, R280): a read takes it; a write merges into it. -/
def State.serveHeld (s : State) (m : Nat) (q : LineReq) (h : Bytes) : State :=
  let r := accessOn q.acc h
  if q.acc.writes then
    let full := match q.acc with | .store _ => true | _ => false
    (s.modPoint m q.line fun o =>
      { o with held := some r.1, unwritten := true, full := o.full || full, nextAcks := o.nextAcks ++ [(q.reply, r.2)] }).bump 0x3240 7
  else s.reply q.reply .ok 0 r.2

/-- Read a verified line out of its easel entry (R223, R224), with the injection points that flip bytes of its codeword: corrected
and counted, or uncorrectable. Which bytes an injection flips is the model's choice (log entry 99): the first of the line. -/
def State.easelRead (s : State) (m a : Nat) (plain : Bytes) : Except Nat Bytes × State :=
  match s.takeInjection 5 m with
  | some t => (match rsLine 3 plain with | some x => .ok x | none => .error 0xB002, t)
  | none => match s.takeInjection 1 m with
    | some t => (match rsLine 1 plain with | some x => .ok x | none => .error 0xB002, (t.bump 0x3045 (m + 1)).error 0 m none 0xB001 a)
    | none => (.ok plain, s)

/-- Open the data line an operation read (R201, R202, R218), with the injection point of R504 that sits at its compare, and read it
out of its easel entry: the plaintext, or the error code. -/
def State.openData (s : State) (m r : Nat) (g : Region) (a : Nat) (c : Bytes) : Except Nat Bytes × State :=
  let p := s.port m
  let tree := decide (p.mode = 1)
  let tag := ((tblGet p.cache (tagLine p.dcap a) {}).data.drop (tagByte a)).take 8
  let pr := if tree then s.pageParams m r g a else (0, s.lineGen m r g a false)
  let n := if tree then pr.1 * 128 + s.minor m a else 0
  match s.takeInjection 0x10 m with
  | some t => (.error 0x1001, t)
  | none => match openLine (s.material g.slot pr.2) tree n (dataLine m a) pr.2 c tag with
    | some x => s.easelRead m a x
    | none => (.error 0x1001, s)

/-- A read or partial write ends on a line that failed (Table 8.11), or on an uncorrectable codeword (Table 8.12). -/
def State.failOpened (s : State) (m : Nat) (q : LineReq) (e : Nat) : State :=
  if e = 0xB002 then (s.error 0 m (some q.part) e q.line).failLine q .integrity e
  else if q.acc.writes then (s.poisonEvent m q.line 0x1002).failLine q .integrity 0x1002
  else (s.portEvent m (some q.part) e q.line).failLine q .integrity e

/-- A line of a page in transition is poisoned with 0x100E (R218), which no table marks as an integrity event; only the code of a full
poison list is one (R207). -/
def State.poisonMoved (s : State) (m a : Nat) : State :=
  let r := s.poison m a 0x100E
  if r.1 = 0x100E then r.2.error 0 m (s.partAt m a) 0x100E a else r.2.portEvent m (s.partAt m a) r.1 a

/-- Move a line of a page in transition (R217, R218): reseal it at minor 1 under the new MAJOR or generation. One that fails is
poisoned and not moved: a full-line write that clears it takes minor 1 of the page under way. -/
def State.moveLine (s : State) (m : Nat) (q : LineReq) (r : Nat) (g : Region) (c : Bytes) : State :=
  let p := s.port m
  let x := metaLine p.dcap 0 q.line
  let j := q.line / 128 % 128
  match transitionOf p x with
  | none => s
  | some t =>
    if t.moved.contains j then s
    else
      let o := s.openData m r g q.line c
      let s1 := o.2.modPort m fun p => modTransition p x fun t => { t with fails := tblDel t.fails j }
      match o.1 with
      | .error _ => s1.poisonMoved m q.line
      | .ok plain =>
        let s2 := (s1.modPort m fun p => modTransition p x fun t => { t with moved := j :: t.moved }).setMinor m q.line 1
        let pr := s2.pageParams m r g q.line
        s2.putLine m q g plain [] 1 pr.1 pr.2

/-- A move read failed (R218): counted and retried, the sixteenth poisons the line and the move goes on. -/
def State.moveFailed (s : State) (m a : Nat) : State :=
  let p := s.port m
  let x := metaLine p.dcap 0 a
  let j := a / 128 % 128
  match transitionOf p x with
  | none => s
  | some t =>
    let n := tblGet t.fails j 0 + 1
    let s1 := s.bump 0x3042 (m + 1)
    if n < 16 then s1.modPort m fun p => modTransition p x fun t => { t with fails := tblPut t.fails j n }
    else (s1.modPort m fun p => modTransition p x fun t => { t with fails := tblDel t.fails j }).poisonMoved m a

/-- A read ahead of the edge is done (R233, R236): its plaintext is held, or the failure is counted; a line that fails its
tag is poisoned and passed. DESIGN CHOICE (log entry 99): one whose easel codeword is uncorrectable, for which Table 9.3 has no row,
ends as a line that fails its tag, with 0x1010 and no 0xB002. One that the key store refuses stays at the edge. -/
def State.aheadDone (s : State) (m a : Nat) (r : Except Nat Bytes) : State :=
  let s1 := s.modPort m fun p => { p with sweep := { p.sweep with asked := p.sweep.asked.filter (· ≠ a) } }
  let pass := fun (s : State) => s.modPort m fun p => { p with sweep := { p.sweep with skip := a :: p.sweep.skip, fails := tblDel p.sweep.fails a } }
  if !(s.port m).sweep.asked.contains a then s
  else match r with
  | .ok d => s1.modPort m fun p => { p with sweep := { p.sweep with ahead := tblPut p.sweep.ahead a d, fails := tblDel p.sweep.fails a } }
  | .error 0x1001 => (pass s1).poisonEvent m a 0x1010
  | .error 0xB002 => (pass s1).poisonEvent m a 0x1010
  | .error 0x1004 => s1
  | .error 0x8001 => s1
  | .error 0x8002 => s1
  | .error _ =>
    let n := tblGet (s1.port m).sweep.fails a 0
    if 16 ≤ n + 1 then (pass s1).poisonEvent m a 0x1011
    else (s1.modPort m fun p => { p with sweep := { p.sweep with fails := tblPut p.sweep.fails a (n + 1) } }).portEvent m (s1.partAt m a) 0x1011 a

/-- An operation ends because its walk or a read of it failed (Table 8.11). `onData` marks the data line's own read. A counter line or
node that a read ahead cannot read, uncorrectable or timed out, is reported as R220 reports it and asked again with the page's lines,
without the bound of 16: Table 9.3 gives no row for it (DESIGN CHOICE, log entry 99). -/
def State.failOp (s : State) (m : Nat) (q : LineReq) (c : Code) (e : Nat) (onData : Bool) : State :=
  let a := q.line
  let report := fun (s : State) => if c = .integrity then s.portEvent m (s.partAt m a) e a else s.error 0 m (s.partAt m a) e a
  if q.contender = byMove then s.moveFailed m a
  else if q.contender = byAhead then
    if e = 0x1004 then (report s).aheadDone m a (.error e) else s.aheadDone m a (.error e)
  else if q.contender = byParent then (report s).writeBackFailed m a
  else if q.contender = byScrub || q.contender = byPage then report s
  else if q.contender = byPoison then
    let n := (s.point m a).poisonTry.getD 0 + 1
    let s1 := ((report s).bump 0x3042 (m + 1)).modPoint m a fun o => { o with poisonTry := some n }
    if 16 ≤ n then s1.failPort m else s1
  else if q.contender = byHeld then (report s).failHeld m a c e
  else if q.acc.writes && onData && c = .integrity then (s.poisonEvent m a 0x1002).failLine q .integrity 0x1002
  else (report s).failLine q c e

/-- Serve a request whose metadata is all at hand, with the data line where one was read. -/
def State.serveNow (s : State) (m : Nat) (q : LineReq) (data : Option Bytes) : State :=
  let p := s.port m
  let a := q.line
  match regionAt p a with
  | none => s.failOp m q .access 0x100B false
  | some (r, g) =>
    if !s.usable g.slot then (s.refuseUse 0x8001).failOp m q .access 0x8001 false
    else if (q.contender = byAhead || q.contender = byPage) && !bit (s.slot g.slot).use 7 then (s.refuseUse 0x8002).failOp m q .access 0x8002 false
    else if q.contender = byMove then (match data with | some c => s.moveLine m q r g c | none => if (s.point m a).unwritten then s.moveHeld m a else s)
    else
      let minor := if p.mode = 1 then s.minor m a else if (poisonKey p a).isSome then 0x7F else 1
      match q.acc with
      | .store d => s.writeLine m q r g (padTo 128 d) []
      | acc =>
        if minor = 0x7F then
          if q.contender = byAhead then s.modPort m fun p => { p with sweep := { p.sweep with asked := p.sweep.asked.filter (· ≠ a) } }
          else (s.error 0 m (some q.part) 0x1003 a).failLine q .poison 0x1003
        else
          let held := match tblFind p.sweep.ahead a with | some h => some h | none => (s.point m a).held
          let o : Except Nat Bytes × State := if minor = 0 then (.ok (List.replicate 128 0#8), s)
            else match held, data with
              | some h, _ => (.ok h, s)
              | none, some c => s.openData m r g a c
              | none, none => (.error 0x1001, s)
          if q.contender = byAhead then o.2.aheadDone m a o.1
          else match o.1 with
            | .error e => o.2.failOpened m q e
            | .ok plain =>
              let x := accessOn acc plain
              if acc.writes then o.2.writeLine m q r g x.1 x.2 else o.2.reply q.reply .ok 0 x.2

/-- The metadata chain and the tag line that an operation uses, and whether it reads the data line. -/
def State.opNeeds (s : State) (m : Nat) (q : LineReq) : List Nat × Bool :=
  let p := s.port m
  let a := q.line
  let listed := decide (p.mode = 2) && (poisonKey p a).isSome
  let chain := if p.mode = 1 then missing p (metaChain p.dcap a) else []
  let tag := missing p [tagLine p.dcap a]
  let known := p.mode = 1 && chain.isEmpty
  let bare := known && (s.minor m a = 0 || s.minor m a = 0x7F)
  let full := match q.acc with | .store _ => true | _ => false
  let reads := !full && !bare && (tblFind p.sweep.ahead a).isNone
  if (bare && (!q.acc.writes || (!full && s.minor m a = 0x7F))) || (listed && !full) then ([], false) else (chain ++ tag, reads)

/-- Verify the fetched counter lines and nodes of a walk from the top down against the cache (R205); none where one fails,
with injection point 0x11 at the compare. A line that has entered the cache meanwhile is trusted as it is there. -/
def State.verifyChain (s : State) (m : Nat) (xs : List Nat) (got : Tbl Bytes) : Option Bool × State :=
  xs.reverse.foldl (fun (acc : Option Bool × State) x =>
    match acc.1 with
    | some true =>
      let p := acc.2.port m
      if (tblFind p.cache x).isSome then acc
      else match tblFind got x, parentCount p got x with
        | some b, some n => match acc.2.takeInjection 0x11 m with
          | some t => (some false, t)
          | none => (some (decide (metaTag (s.treeKeys m) n x b = (b.drop 120).take 8)), acc.2)
        | _, _ => (none, acc.2)
    | _ => acc) (some true, s)

/-- Install the fetched lines of an operation (R208): the state after, and whether all found a way; a dirty victim is
written back first. -/
def State.installAll (s : State) (m : Nat) (xs : List Nat) (got : Tbl Bytes) : Bool × State :=
  xs.foldl (fun (acc : Bool × State) x =>
    match tblFind got x with
    | none => acc
    | some b => match cacheInstall (acc.2.port m) x b false with
      | .ok p => (acc.1, acc.2.modPort m fun _ => p)
      | .error (some y) => (false, acc.2.writeBack m y)
      | .error none => (false, acc.2)) (true, s)

/-- Take a request at its order point: what it needs is asked for, or it is served at once; a read behind a write is served from
the held copy. A read ahead of the edge whose counter line has left the cache is taken back: the sweep reads that line first
(R232). -/
def State.serve (s0 : State) (m : Nat) (q : LineReq) : State :=
  let s := s0.modPort m fun p => cacheUse p q.line
  let p := s.port m
  let o := s.point m q.line
  if q.contender = byAhead && p.mode = 1 && (tblFind p.cache (metaLine p.dcap 0 q.line)).isNone then
    s.modPort m fun p => { p with sweep := { p.sweep with asked := p.sweep.asked.filter (· ≠ q.line) } }
  else match o.held with
  | some h =>
    if !q.acc.writes && q.contender = byAhead then s.aheadDone m q.line (.ok h)
    else if ((o.outstanding || o.unwritten) && q.contender ≠ byHeld) || !q.acc.writes then s.serveHeld m q h
    else
      let q1 : LineReq := if q.contender = byHeld then { q with acc := .store h } else q
      let n := s.opNeeds m q1
      if n.1.isEmpty then s.serveNow m q1 none else (s.countCache m 0 n.1.length).holdOp m q1 n.1
  | none =>
    let n := s.opNeeds m q
    let need := n.1 ++ (if n.2 then [q.line] else [])
    let s1 := s.countCache m (bn (n.1.length < (if p.mode = 1 then 6 else 1))) n.1.length
    if need.isEmpty then s1.serveNow m q none else s1.holdOp m q need

/-- The error code with which the key store refuses an operation's keys when the engine loads them (R196): the port's tree leaf,
where counter lines or nodes were read, and the region's slot, where the line is sealed. -/
def State.keysRefuse (s : State) (m : Nat) (op : LineOp) : Option Nat :=
  let p := s.port m
  let q := op.req
  let walked := decide (p.mode = 1) && op.got.any fun kv => decide (metaBase p.dcap 0 ≤ kv.1)
  let sealed := decide (q.contender < 100)
  let sweeps := decide (q.contender = byAhead)
  if walked && (s.treeRefuse m).isSome then s.treeRefuse m
  else match regionAt p q.line with
    | some (_, g) => if (sealed || sweeps) && !s.usable g.slot then some 0x8001
        else if sweeps && !bit (s.slot g.slot).use 7 then some 0x8002 else none
    | none => none

/-- The end of the region being swept. -/
def State.sweepEnd (s : State) (m : Nat) : Nat :=
  let p := s.port m
  let g := tblGet p.regions p.sweep.region {}
  (g.base + g.pages) * 2 ^ 14

/-- The metadata lines that the edge at a line pins: the tag line covering it and, in tree mode, its page's counter line. -/
def edgeLines (p : MemPort) (a : Nat) : List Nat := tagLine p.dcap a :: (if p.mode = 1 then [metaLine p.dcap 0 a] else [])

/-- Pin the metadata lines of the edge that are cached, and no other (R233). -/
def State.pinEdge (s : State) (m : Nat) : State :=
  let last := s.sweepEnd m
  s.modPort m fun p =>
    let w := p.sweep
    let edged := decide (w.state = 1 || w.state = 2) && decide (w.edge < last)
    let now := if edged then (edgeLines p w.edge).filter fun x => (tblFind p.cache x).isSome else []
    if w.pinned = now then p
    else
      let p1 := w.pinned.foldl (fun p x => cachePin p x false) p
      let p2 := now.foldl (fun p x => cachePin p x true) p1
      { p2 with sweep := { p2.sweep with pinned := now } }

/-- Everything an operation asked for has arrived: verify, install, serve (R205), and its easel entries are freed. Where the key
store refuses its keys, nothing of the walk is kept (R196); what was read of the chain above the first cached line is not looked at,
since that line is trusted and those above it may have changed. On a failed port one that finds no way ends with TIMEOUT (R206). -/
def State.finishOp (s : State) (m a : Nat) (op : LineOp) : State :=
  let q := op.req
  let clear := fun (s : State) => (s.modPoint m a fun o => { o with op := none }).modPort m fun p => easelFree p a
  match op.fail, s.keysRefuse m op with
  | some (c, e, onData), _ => ((clear s).failOp m q c e onData).pump m
  | none, some e => (((clear s).refuseUse e).failOp m q .access e false).pump m
  | none, none =>
    let p := s.port m
    let chain := if p.mode = 2 || q.contender = byMove then [] else
      if q.contender = byParent then (metaUp p.dcap a).drop 1 else metaChain p.dcap a
    let fresh := missing p chain
    let v := s.verifyChain m (fresh.filter fun x => (tblFind op.got x).isSome) op.got
    match v.1 with
    | none => (clear v.2).serve m q
    | some false => ((clear v.2).failOp m q .integrity 0x1004 false).pump m
    | some true =>
      let i := v.2.installAll m (fresh ++ [tagLine p.dcap a]) op.got
      if !i.1 then (if p.state = 4 then ((clear i.2).failOp m q .timeout 0x100F false).pump m else i.2)
      else
        let s1 := (clear i.2).pinEdge m
        if q.contender = byParent then s1.writeBackNow m a
        else if q.contender = byPoison then
          (((s1.setMinor m a 0x7F).poisonCount m a true).modPoint m a fun o => { o with poisonTry := none }).pump m
        else if q.contender = byScrub || q.contender = byPage then s1.pump m
        else (s1.serveNow m q (tblFind op.got a)).pump m

/-- A read response, or its failure, reaches an operation that waits for it; the response to a read whose metadata was all cached
takes one of the lane's other easel entries (R209). -/
def State.opArrived (s : State) (m line addr : Nat) (r : Except (Code × Nat) Bytes) : State :=
  match (s.point m line).op with
  | none => s
  | some op =>
    let op1 : LineOp := match r with
      | .ok b => { op with need := op.need.filter (· ≠ addr), got := tblPut op.got addr b }
      | .error e => { op with need := op.need.filter (· ≠ addr), fail := some (op.fail.getD (e.1, e.2, decide (addr = line))) }
    let hit := decide (addr = line) && !(s.port m).easel.any fun e => e.line = line && e.addr = addr
    let s0 := if hit then s.modPort m fun p => { p with easel := p.easel ++ [⟨line, addr, false⟩] } else s
    let s1 := s0.modPoint m line fun o => { o with op := some op1 }
    if op1.need.isEmpty then s1.finishOp m line op1 else s1

/-- The response to a metadata read reaches every operation that waits for the line. -/
def State.fetchArrived (s : State) (m addr : Nat) (r : Except (Code × Nat) Bytes) : State :=
  ((s.port m).points.filterMap fun kv => match kv.2.op with
    | some op => if op.need.contains addr then some kv.1 else none
    | none => none).foldl (fun s line => s.opArrived m line addr r) s

/-- Operations that hold all their lines and found no way in the cache try again (R208). -/
def State.retryOps (s : State) (m : Nat) : State :=
  ((s.port m).points.filterMap fun kv => match kv.2.op with
    | some op => if op.need.isEmpty then some (kv.1, op) else none
    | none => none).foldl (fun s x => s.finishOp m x.1 x.2) s

/-- After a write or a failure frees the order point, write the held copy that later stores have changed (R280), or let
the copy go when no request for the line waits (R214). -/
def State.pointFreed (s : State) (m a : Nat) : State :=
  let o := s.point m a
  let waits := (s.port m).waiting.any fun q => q.line = a
  let queued := (s.port m).waiting.any fun q => q.line = a && q.contender = byHeld
  if o.unwritten && !o.outstanding && o.op.isNone && !queued then
    s.serve m ⟨a, .store (o.held.getD []), (s.partAt m a).getD 0, 0, byHeld, .none, 0, false, 0⟩
  else if !o.outstanding && o.op.isNone && !waits then s.modPoint m a fun o => { o with held := none }
  else s

/-- The response of a data write (R42, R220, R278): everyone it carried is answered; a failed write poisons the line. -/
def State.writeDone (s : State) (m a : Nat) (r : Option (Code × Nat)) : State :=
  let o := s.point m a
  let s0 := s.modPoint m a fun o => { o with outstanding := false, acks := [], sweepWrite := false }
  match r with
  | none => ((o.acks.foldl (fun s w => s.reply w.1 .ok 0 w.2) s0).pointFreed m a).pump m
  | some (c, e) =>
    let told := o.acks.foldl (fun s w => s.reply w.1 c e (w.2.map fun _ => 0xFF#8)) s0
    let s1 := told.poisonEvent m a 0x1006
    let s2 := if o.unwritten && !o.full then s1.failHeld m a .poison 0x1003 else if o.unwritten then s1 else s1.modPoint m a fun o => { o with held := none }
    (s2.pointFreed m a).pump m

/-- A data write never reached its lane within its bound (R194): its requesters get TIMEOUT with 0x1007, whose row of Table 8.11
changes nothing and is no integrity event; the line keeps its old ciphertext, which the tag in place no longer matches (log entry
72). A write of the engine's own, which answers nobody, fails as on its response. -/
def State.writeUnsent (s : State) (m a : Nat) : State :=
  let o := s.point m a
  if o.acks.all (fun w => w.1 = .none) then s.writeDone m a (some (.timeout, 0x1006))
  else
    let s0 := (s.modPoint m a fun o => { o with outstanding := false, acks := [], sweepWrite := false, held := if o.unwritten then o.held else none }).error 0 m (s.partAt m a) 0x1007 a
    ((o.acks.foldl (fun s w => s.reply w.1 .timeout 0x1007 (w.2.map fun _ => 0xFF#8)) s0).pointFreed m a).pump m

end Sys2Proof.Machine
end

