-- ==== Sys2Proof/Machine/Fabric.lean ====
section
/-! DEFINITION. Sys2Proof/Machine/Fabric.lean: fabric operations of the hub's own issue, the remote-read cache, read and
atomic combining, and host DMA (R184 to R187, R274 to R291, R309, R315). -/
namespace Sys2Proof.Machine

/-- The lowest key a table does not list, from `n` on. -/
def firstGap {α : Type} : Tbl α → Nat → Nat
  | [], n => n
  | (i, _) :: t, n => if i = n then firstGap t (n + 1) else n

/-- The source of the operations that a combining entry sends (R276): none of the queues, ports and commands. -/
def srcEntry : Nat := 2 ^ 21 - 1

/-- The contender number of a local requester class (R525). -/
def localContender (cls : Nat) : Nat := if cls < 6 then 32 + cls else if cls = 12 then 38 else 39

/-- The CLS code of a requester class (Table 10.2), and the class a code is judged as at the home (R196). -/
def clsCode (cls : Nat) : Nat := if cls = 0 then 0 else if cls = 1 then 1 else if cls = 4 then 2 else 3
@[inherit_doc clsCode] def clsOfCode (code : Nat) : Nat := if code = 0 then 0 else if code = 1 then 1 else if code = 2 then 4 else 16

/-- Member ID and line of a domain address. -/
def homeOf (dom : Nat) : Nat := dom / 2 ^ 48 % 2 ^ 16
@[inherit_doc homeOf] def localLine (dom : Nat) : Nat := dom % 2 ^ 48 / 128 * 128

/-- Is an atomic one that the fabric carries (R281): code, width, alignment. -/
def atomicOk : Access → Bool
  | .atomic op wide off _ => decide (1 ≤ op ∧ op ≤ 8) && !(op = 2 && wide) && decide (off % (if wide then 8 else 4) = 0)
  | _ => true

/-- The mask of all 128 bytes. -/
def allBytes : Nat := 2 ^ 128 - 1

/-- A store whose mask covers the line is a full store (R274). -/
def normalAccess : Access → Access
  | .partialStore m d => if m % 2 ^ 128 = allBytes then .store d else .partialStore (m % 2 ^ 128) d
  | a => a

/-! ## The remote-read cache (R283 to R287) -/

/-- The set of a cached line. -/
def rsetOf (dom : Nat) : Nat := (dom % 2 ^ 20 / 128) ^^^ (homeOf dom % 2 ^ 13)

/-- The key and line that hold a domain line for a partition. -/
def State.rfind (s : State) (dom part : Nat) : Option (Nat × RemoteLine) := s.rcache.find? fun kv => kv.2.addr = dom && kv.2.part = part

/-- Remove the cached lines that a test picks, counting them where an invalidation did it. -/
def State.rdrop (s : State) (counted : Bool) (f : RemoteLine → Bool) : State :=
  let n := (s.rcache.filter fun kv => f kv.2).length
  let s1 : State := { s with rcache := s.rcache.filter fun kv => !f kv.2 }
  if counted then s1.bumpBy 0x3240 3 n else s1

/-- Install a line (R283): the set's least recently used, or the partition's own where it is at its quota; nothing is
installed where a partition at its quota holds no line of the set. -/
def State.rfill (s : State) (dom part : Nat) (d : Bytes) : State :=
  let s0 := s.rdrop false fun r => r.addr = dom && r.part = part
  let set := s0.rcache.filter fun kv => rsetOf kv.2.addr = rsetOf dom
  let own := (s0.rcache.filter fun kv => kv.2.part = part).length
  let atQuota := decide (s.setting 0x3230 3 ≤ own)
  let victims := if atQuota then set.filter fun kv => kv.2.part = part else if 16 ≤ set.length then set else []
  let t := match argMin (fun kv => kv.2.lru) victims with
    | some (k, _) => tblDel s0.rcache k
    | none => s0.rcache
  if atQuota && victims.isEmpty then s0
  else { s0 with rcache := tblPut t (firstGap t 0) ⟨dom, part, d, s0.clock⟩, clock := s0.clock + 1 }

/-- Mark the fills in flight of the lines a test picks, so that they are delivered and not installed. -/
def State.noFills (s : State) (f : Otag → Bool) : State :=
  { s with otags := s.otags.map fun kv => if f kv.2 then (kv.1, { kv.2 with noInstall := true }) else kv }

/-- Does an invalidation's scope take a line (R286, R287): 15 takes every line, from any home. -/
def inScope (home base scope dom : Nat) : Bool :=
  scope = 15 || (homeOf dom = home && decide ((dom % 2 ^ 48) / 2 ^ (20 + scope) = base / 2 ^ scope))

/-- Close the read entries of a line that a store, atomic or invalidation passes (R185). -/
def State.closeReads (s : State) (f : Nat → Bool) : State :=
  { s with comb := s.comb.map fun kv => if kv.2.kind = 0 && f kv.2.addr then (kv.1, { kv.2 with closed := true }) else kv }

/-- Serve an invalidation at this hub (R285, R287): a partition's lines in the scope go, its fills in flight are not installed, and the
open read entries of the lines take no more joiners, so that a later load reads anew. -/
def State.invalidateScope (s : State) (part home base scope : Nat) : State :=
  (((s.closeReads (inScope home base scope)).rdrop true fun r => r.part = part && inScope home base scope r.addr).noFills
    fun o => o.part = part && inScope home base scope (o.dst * 2 ^ 48 + o.line))

/-! ## Messages of an operation -/

/-- The message of a fabric operation (Table 10.3): loads carry ADAPT, everything else takes the fixed route. -/
def State.opMsg (s : State) (o : Otag) (tag : Nat) : Msg :=
  let m : Msg := { mtype := 0x01, addr := o.line, src := s.bring.memberId, dst := o.dst, otag := tag, part := o.part,
                   pgen := s.pgenOf o.part, cls := clsCode o.cls }
  match o.acc with
  | .load => { m with adapt := true }
  | .store d => { m with mtype := 0x02, body := padTo 128 d }
  | .partialStore mask d => { m with mtype := 0x03, body := leBytes 16 mask ++ padTo 128 d }
  | .atomic op wide off x =>
    { m with mtype := 0x04, addr := o.line + off,
             body := leBytes 16 (op + bn wide * 2 ^ 8 + bn o.ret * 2 ^ 9 + x % 2 ^ (if wide then 64 else 32) * 2 ^ 64) }

/-- The operand unit of an ATOMIC (R249): operation, width, return requested, operand. -/
def atomicUnit (b : Bytes) : Nat × Bool × Bool × Nat :=
  let v := leNat (b.take 16)
  (bits v 7 0, bit v 8, bit v 9, bits v 127 64)

/-! ## Combining of reads and atomics (R184 to R187) -/

/-- Is there a free combining entry: those of chunks held at their home count too (R179, R184). -/
def State.combRoom (s : State) : Bool := decide (s.comb.length + (s.early.filter fun x => x.acc.isSome).length < s.cfg.comb)

/-- Fold one more operand into an atomic entry (Table 7.4): add, FP32 add, min, max, and, or, xor in joining order; swap
keeps the last. -/
def foldOperand (op : Nat) (wide : Bool) (acc a : Nat) : Nat := if op = 8 then a else atomicValue op wide acc a

/-- What joiner `i` is told when the old value returns (Table 7.4): the value as if the joiners before it had applied. -/
def joinerValue (op : Nat) (wide : Bool) (v : Nat) (before : List Nat) : Nat := before.foldl (fun old a => atomicValue op wide old a) v

/-- Reserve an OTAG for an operation (R276): none when 65,536 are outstanding. -/
def State.takeOtag (s : State) (o : Otag) : Option (Nat × State) :=
  let k := firstGap s.otags 0
  if 65536 ≤ k then none else some (k, { s with otags := tblPut s.otags k o })

/-- The waiting entry that an atomic joins (R186): its key, and room for one more operand. -/
def State.atomicEntry (s : State) (dom part op : Nat) (wide : Bool) : Option (Nat × Comb) :=
  s.comb.find? fun kv => kv.2.kind = 1 && !kv.2.departed && kv.2.addr = dom && kv.2.part = part && kv.2.op = op && kv.2.wide = wide && decide (kv.2.joiners.length < 256)

/-- Does an atomic toward a member wait in an entry, other than the one given, for a joiner that a test picks: a later store or atomic of
the same source may not pass it (R277). -/
def State.atomicWaits (s : State) (dst : Nat) (joins : Option (Nat × Comb)) (f : ReplyTo → Bool) : Bool :=
  s.comb.any fun kv => kv.2.kind = 1 && !kv.2.departed && homeOf kv.2.addr = dst && !(joins.any fun x => x.1 = kv.1) && kv.2.joiners.any fun j => f j.reply

/-- Does a link grant a VC0 message at once: nothing queued ahead, an operation credit and buffer credit. -/
def Link.grants (k : Link) (units : Nat) : Bool :=
  (tblGet k.fs.txq 0 []).isEmpty && decide (1 ≤ k.opc) && decide (units ≤ tblGet k.credits 0 512 + k.shared)

/-- Pass a READ or ATOMIC that is leaving on a link through the combining table: none where it goes on uncombined.
`own` is the OTAG of a request of the hub's own issue, `join` who is answered. A cleared bit of 0x2310.01 stops new entries alone
(R190). The read that opens an entry is the first of its 256 joined reads (DESIGN CHOICE, log entry 97: R185 leaves open whether
it counts). -/
def State.combineRequest (s : State) (arrived : Option Nat) (m : Msg) (own : Option Nat) (join : Joiner) : Option State :=
  let dom := m.dst * 2 ^ 48 + m.addr
  let ctl := s.setting 0x2310 1
  if m.mtype = 0x01 then
    match s.comb.find? fun kv => kv.2.kind = 0 && !kv.2.closed && kv.2.addr = dom && kv.2.part = m.part && decide (kv.2.joiners.length < 256) with
    | some (e, c) => some (({ s with comb := tblPut s.comb e { c with joiners := c.joiners ++ [join] } } : State).bump 0x2300 5)
    | none =>
      if !bit ctl 0 || !s.combRoom then none
      else
        let e := firstGap s.comb 0
        let open_ := fun (s : State) (k : Nat) =>
          let m1 := { m with src := s.bring.memberId, otag := k }
          let c : Comb := { kind := 0, addr := dom, part := m.part, joiners := [join], arrived, msg := m1, opened := s.loc }
          ({ s with comb := tblPut s.comb e c } : State).sendToward arrived m1
        match own with
        | some k => some (open_ { s with otags := tblMod s.otags k (fun o => { o with entry := some e, reply := .none }) {} } k)
        | none => match s.takeOtag { dst := m.dst, line := m.addr, part := m.part, source := srcEntry, entry := some e, noInstall := true } with
          | some (k, s1) => some (open_ s1 k)
          | none => none
  else if m.mtype = 0x04 then
    let u := atomicUnit m.body
    if u.1 = 2 && u.2.2.1 then none
    else match s.atomicEntry dom m.part u.1 u.2.1 with
      | some (e, c) =>
        some (({ s with comb := tblPut s.comb e { c with joiners := c.joiners ++ [join], operand := foldOperand u.1 u.2.1 c.operand u.2.2.2 } } : State).bump 0x2300 6)
      | none =>
        let at_once := s.setting 0x2310 2 = 0 && (match s.routeOf arrived m.dst false with
          | some l => (s.link l).grants 2
          | none => true)
        if !bit ctl 1 || at_once || !s.combRoom then none
        else
          let c : Comb := { kind := 1, addr := dom, part := m.part, op := u.1, wide := u.2.1, operand := u.2.2.2, joiners := [join],
                            arrived, msg := m, opened := s.loc }
          some { s with comb := tblPut s.comb (firstGap s.comb 0) c }
  else none

/-- Count a request that found the table full (0x2300.08): an FP32 add that asks for a return never combines (Table 7.4). -/
def State.countUncombined (s : State) (m : Msg) : State :=
  let u := atomicUnit m.body
  if !s.combRoom && ((m.mtype = 0x01 && bit (s.setting 0x2310 1) 0) || (m.mtype = 0x04 && bit (s.setting 0x2310 1) 1 && !(u.1 = 2 && u.2.2.1))) then
    s.bump 0x2300 8
  else s

/-- Stores, atomics and invalidations that pass close the read entries of their lines. -/
def State.passes (s : State) (m : Msg) : State :=
  if m.mtype = 0x02 || m.mtype = 0x03 || m.mtype = 0x04 then
    s.closeReads fun dom => dom = m.dst * 2 ^ 48 + m.addr / 128 * 128
  else if m.mtype = 0x05 then s.closeReads (inScope (m.addr % 2 ^ 16) (bits m.addr 43 16) (bits m.addr 47 44))
  else s

/-! ## Issue and completion (R275 to R278, R288) -/

/-- Does an operation follow an earlier one of its source toward one member (Table 11.1). -/
def Otag.follows (x o : Otag) : Bool := !x.reserved && !x.inval && !o.inval && x.source = o.source && x.dst = o.dst

/-- Must an operation wait for an earlier one of its source (R277): a load and a store or atomic of one line, until the first has
completed; behind one that itself waits, also a store or atomic behind any other; and a store or atomic behind an atomic that still
waits in a combining entry, unless it joins that entry. -/
def State.ordered (s : State) (o : Otag) : Bool :=
  let joins := match o.acc with
    | .atomic op wide off _ => if op = 2 && o.ret then none else s.atomicEntry (o.dst * 2 ^ 48 + o.line + off) o.part op wide
    | _ => none
  (s.otags.any fun kv => kv.2.follows o && kv.2.line = o.line && kv.2.acc.writes ≠ o.acc.writes) ||
  (s.heldOps.any fun x => x.follows o && ((x.line = o.line && x.acc.writes ≠ o.acc.writes) || (x.acc.writes && o.acc.writes))) ||
  (o.acc.writes && s.atomicWaits o.dst joins fun r => match r with
    | .otag k => (match tblFind s.otags k with | some x => x.follows o | none => false)
    | _ => false)

/-- An operation that no route takes, or of a hub that is no member, completes with ACCESS (R6, R18, R19). -/
def State.routeless (s : State) (o : Otag) : State :=
  (s.error 2 0 (some o.part) 0x200A (o.dst * 2 ^ 48 + o.line)).reply o.reply .access 0x200A (failData o.acc)

/-- Issue an operation to another member: the remote-read cache, the route, the OTAG, the combining table, the link. A load whose line
is in the cache is answered from it, whether or not it may fill the cache, and whatever its member's route (DESIGN CHOICE, log entry
98: R283 says that a hit answers, R19 that a member without an installed route gives ACCESS); one that misses counts once. -/
def State.issueRemote (s : State) (o0 : Otag) : State :=
  let o := { o0 with missed := true }
  let dom := o.dst * 2 ^ 48 + o.line
  let hit := if o.acc.writes then none else s.rfind dom o.part
  match hit with
  | some (k, r) =>
    (({ s with rcache := tblPut s.rcache k { r with lru := s.clock }, clock := s.clock + 1 } : State).bump 0x3240 1).reply o.reply .ok 0 r.data
  | none =>
    let s1 := if o.acc.writes then (s.rdrop false fun r => r.addr = dom).noFills fun x => x.dst = o.dst && x.line = o.line
      else if o0.missed || s.cfg.links = 0 then s else s.bump 0x3240 2
    if (s1.routeOf none o.dst (!o.acc.writes)).isNone then s1.routeless o
    else match s1.takeOtag o with
      | none => { s1 with heldOps := s1.heldOps ++ [o] }
      | some (k, s2) =>
        let m := s2.opMsg o k
        let s3 := s2.passes m
        let op := match o.acc with | .atomic _ _ _ x => x | _ => 0
        let join : Joiner := if m.mtype = 0x01 then
            (match s3.comb.find? fun kv => kv.2.kind = 0 && !kv.2.closed && kv.2.addr = dom && kv.2.part = m.part && decide (kv.2.joiners.length < 256) with
             | some _ => ⟨.otag k, 0, true⟩
             | none => ⟨o.reply, 0, true⟩)
          else ⟨.otag k, op, o.ret⟩
        match s3.combineRequest none m (some k) join with
        | some t => t
        | none => (s3.countUncombined m).sendToward none m

/-- Issue an operation to this hub's own memory (R275): under an OTAG as any other (R276, R288), straight to the memory port. -/
def State.issueLocal (s : State) (o : Otag) : State :=
  let w := o.line / 2 ^ 43
  if 8 ≤ w then s.reply o.reply .access 0x7008 (failData o.acc)
  else if s.cfg.memPorts ≤ w then (s.error 0 w (some o.part) 0x100B o.line).reply o.reply .access 0x100B (failData o.acc)
  else match s.takeOtag { o with cacheable := false } with
    | none => { s with heldOps := s.heldOps ++ [o] }
    | some (k, t) => t.lineAccept w ⟨o.line % 2 ^ 43, o.acc, o.part, o.cls, localContender o.cls, .otag k, 0, false, 0⟩

/-- Issue an operation whose turn it is. A hub that is no member issues none (R18; DEDUCED that this holds for its own member's lines
too, log entry 101). -/
def State.issueNow (s : State) (o : Otag) : State :=
  if !s.bring.member then s.routeless o else if o.dst = s.memberField then s.issueLocal o else s.issueRemote o

/-- Issue a fabric operation of the hub's own (R275 to R277, R281). -/
def State.fabricIssue (s : State) (o : Otag) : State :=
  if !atomicOk o.acc then s.reply o.reply .format 0x2023 []
  else if s.ordered o then { s with heldOps := s.heldOps ++ [o] }
  else s.issueNow o

/-- Issue the held operations that may go now, in order (Table 11.1, R276). -/
def State.releaseHeld (s : State) : State := s.heldOps.foldl (fun s o => if s.ordered o then { s with heldOps := s.heldOps ++ [o] } else s.issueNow o) { s with heldOps := [] }

/-- Answer the joiners of an entry and free it (R185, R187). -/
def State.answerEntry (s : State) (e : Nat) (r : Result) : State :=
  match tblFind s.comb e with
  | none => s
  | some c =>
    let s0 : State := { s with comb := tblDel s.comb e }
    let ops := c.joiners.map (·.operand)
    c.joiners.zipIdx.foldl (fun s j =>
      if c.kind = 1 && r.code = .ok then
        s.reply j.1.reply .ok 0 (if j.1.ret then leBytes (if c.wide then 8 else 4) (joinerValue c.op c.wide (leNat r.data) (ops.take j.2)) else [])
      else s.reply j.1.reply r.code r.err r.data) s0

/-- An own operation times out (R288): its OTAG stays reserved, the timeout is counted, the issuing context faults, and its requester
is told. An operation of a combining entry has no context of its own. -/
def State.otagTimeout (s : State) (k : Nat) (o : Otag) : State :=
  let err := if o.inval then 0x2022 else 0x2020
  let s0 : State := { s with otags := tblPut s.otags k { o with reserved := true, timed := true, noInstall := true, reply := .none, entry := none } }
  let s1 := (s0.bump 0x3240 4).error 2 0 (some o.part) err o.line
  let s2 := match o.ctx with | some n => if o.inval || o.source = srcEntry then s1 else s1.ctxFault n err 0 0 | none => s1
  s2.reply o.reply .timeout err (failData o.acc)

/-- The joiners of a combining entry whose operation timed out end with TIMEOUT (R185, R187); those of this hub's own issue as any
operation that times out (R288, R289). -/
def State.entryTimeout (s : State) (e : Nat) (acc : Access) : State :=
  match tblFind s.comb e with
  | none => s
  | some c => c.joiners.foldl (fun s j => match j.reply with
      | .otag k => (match tblFind s.otags k with | some o => if o.reserved then s else s.otagTimeout k o | none => s)
      | r => s.reply r .timeout 0x2020 (failData acc)) { s with comb := tblDel s.comb e }

/-- The outcome of an own operation (R278, R283): its requester, the cache, a combining entry's joiners, those it held. One that comes
after the timeout from this hub's own memory is discarded and counted, also once its OTAG has returned to the pool (R289). -/
def State.otagDone (s : State) (k : Nat) (r : Result) : State :=
  match tblFind s.otags k with
  | none => (s.error 2 0 none 0x2021 k).bump 0x3240 5
  | some o =>
    if o.reserved then (if o.dst = s.memberField && o.entry.isNone then (s.error 2 0 (some o.part) 0x2021 k).bump 0x3240 5 else s) else
    let s0 : State := { s with otags := tblDel s.otags k }
    let dom := o.dst * 2 ^ 48 + o.line
    let s1 := if r.code = .ok && o.cacheable && !o.noInstall && !o.acc.writes && !o.inval then s0.rfill dom o.part r.data else s0
    let data := if r.code = .ok then r.data else failData o.acc
    let s2 := s1.reply o.reply r.code r.err data
    let s3 := match o.entry with
      | some e => s2.answerEntry e { r with data }
      | none => s2
    (s3.trace 5 2 0 (some o.part) r.err [dom, k + (s.opMsg o k).mtype * 2 ^ 18]).releaseHeld

/-! ## Host DMA (R309, R315) -/

/-- The runs of bytes that a mask selects: first byte and length. -/
def maskRuns (mask : Nat) : List (Nat × Nat) :=
  (List.range 128).reverse.foldl (fun acc i =>
    if bit mask i then
      match acc with
      | (j, n) :: rest => if j = i + 1 then (i, n + 1) :: rest else (i, 1) :: acc
      | [] => [(i, 1)]
    else acc) []

/-- Count the data bytes of a DMA access on its host port (Tables 17.5 and 22.1). -/
def State.dmaBytes (s : State) (h ctx n : Nat) : State := (s.charge (40 + h) (s.ctx ctx).part n).bumpBy 0x6203 (h + 1) n

/-- DMA that no RUN TDI with a secure stream can carry (R315). -/
def State.dmaRefused (s : State) (h addr : Nat) (acc : Access) (reply : ReplyTo) : State :=
  (s.error 3 h none 0x4008 addr).reply reply .access 0x4008 (failData acc)

/-- Access a host line for a context: sealed on the stream of its RUN TDI (R22, R315); a write is posted, a read takes a tag
(R309). -/
def State.hostAccess (s : State) (ctx addr : Nat) (acc : Access) (reply : ReplyTo) : State :=
  match s.tdiOf ctx with
  | some (k, t) =>
    let h := k / 256
    let fn := k % 256 + 1
    if t.state ≠ 2 || (s.streamSlot h t.stream).isNone then s.dmaRefused h addr acc reply
    else match acc with
      | .load =>
        let tag := firstGap (s.host h).dma 0
        if 4096 ≤ tag then s.modHost h fun p => { p with dmaWaiting := p.dmaWaiting ++ [(reply, ctx, addr)] }
        else match s.sendTlp h fn false addr [] t.stream tag with
          | some u => (u.modHost h fun p => { p with dma := tblPut p.dma tag { reply, ctx } }).dmaBytes h ctx 128
          | none => s.dmaRefused h addr acc reply
      | .store d => match s.sendTlp h fn true addr d t.stream 0 with
        | some u => (u.dmaBytes h ctx 128).reply reply .ok 0 []
        | none => s.dmaRefused h addr acc reply
      | .partialStore mask d =>
        ((maskRuns mask).foldl (fun s r => match s.sendTlp h fn true (addr + r.1) ((d.drop r.1).take r.2) t.stream 0 with
          | some u => u.dmaBytes h ctx r.2
          | none => s) s).reply reply .ok 0 []
      | .atomic _ _ _ _ => s.reply reply .access 0x7009 (failData acc)
  | none => s.dmaRefused 0 addr acc reply

end Sys2Proof.Machine
end

