-- ==== Sys2Proof/Machine/Translate.lean ====
section
/-! DEFINITION. Sys2Proof/Machine/Translate.lean: device addresses, the two translation levels and walks (R401 to
R414). -/
namespace Sys2Proof.Machine

/-- First-level buffer numbers (R408): AUs 0 to 31, samplers, bridge lanes, host ports, chiplet ports, the queue manager,
the reduction engine. -/
def bufSampler (n : Nat) : Nat := 32 + n
@[inherit_doc bufSampler] def bufLane (c : Nat) : Nat := 36 + c
@[inherit_doc bufSampler] def bufHost (h : Nat) : Nat := 44 + h
@[inherit_doc bufSampler] def bufChip (c : Nat) : Nat := 48 + c
@[inherit_doc bufSampler] def bufQueues : Nat := 56
@[inherit_doc bufSampler] def bufReduction : Nat := 57

/-- Source numbers (R276): a queue, a chiplet port, a host port, an engine acting for a command. -/
def srcQueue (q : Nat) : Nat := q
@[inherit_doc srcQueue] def srcChip (c : Nat) : Nat := 2 ^ 20 + c
@[inherit_doc srcQueue] def srcHost (h : Nat) : Nat := 2 ^ 20 + 16 + h
@[inherit_doc srcQueue] def srcCmd (cmd : Nat) : Nat := 2 ^ 21 + cmd

/-- A partition's translation record. -/
def State.transOf (s : State) (p : Nat) : Trans := tblGet s.trans p {}
/-- Change a translation record. -/
def State.modTrans (s : State) (p : Nat) (f : Trans → Trans) : State := { s with trans := tblMod s.trans p f {} }

/-- The device page of a device address. -/
def pageOf (dev : Nat) : Nat := dev / 2 ^ 21

/-- Fail a request by Table 16.4: its outcome, 0x5100.05, and a context fault where a command asked. A fetch and a record raise their
own (R398), and a command raises one for its first failing request, when that ends it (R412). -/
def State.transFail (s : State) (x : XReq) (c : Code) (e : Nat) : State :=
  let s1 := ((s.bump 0x5100 5).error 8 0 (some x.part) e x.dev).reply x.reply c e (failData x.acc)
  let own := match x.reply with | .fetch _ => true | .record _ => true | .cmdLine _ _ => true | .cmdWrite _ => true | _ => false
  match x.ctx with
  | some n => if own then s1 else s1.ctxFault n e 0 0
  | none => s1

/-- A translated request: rows 5 to 8 of Table 16.4, then the host port or the fabric. -/
def State.translated (s : State) (x : XReq) (entry : Nat) : State :=
  let target := bit entry 1
  let isAtomic := match x.acc with | .atomic _ _ _ _ => true | _ => false
  let page := entry / 2 ^ 21 * 2 ^ 21
  let dom := page + x.dev % 2 ^ 21
  if !bit entry 0 then s.transFail x .access 0x7002
  else if x.probe then s.reply x.reply .ok 0 (leBytes 8 entry)
  else if (!x.acc.writes && !bit entry 2) || (x.acc.writes && !bit entry 3) then s.transFail x .access 0x7003
  else if x.cls = 4 && (!bit entry 5 || target) then s.transFail x .access 0x7004
  else if !target && 8 ≤ bits dom 47 43 then s.transFail x .access 0x7008
  else if target && (isAtomic || x.noHost) then s.transFail x .access 0x7009
  else if target then s.hostAccess (x.ctx.getD 0) (dom / 128 * 128) x.acc x.reply
  else
    s.fabricIssue { acc := x.acc, dst := homeOf dom, line := localLine dom, part := x.part, ctx := x.ctx, source := x.source, reply := x.reply,
                    cls := x.cls, ret := x.ret, cacheable := s.setting 0x3230 2 = 1 && bit entry 4 && !x.acc.writes }

/-- Look a page up in a list of entries. -/
def tlbFind (l : List TlbEntry) (p page : Nat) : Option Nat := (l.find? fun e => e.part = p && e.page = page).map (·.entry)

/-- Mark an entry used. -/
def tlbTouch (l : List TlbEntry) (p page now : Nat) : List TlbEntry :=
  l.map fun e => if e.part = p && e.page = page then { e with lru := now } else e

/-- Drop the least recently used of the entries that a test picks. -/
def tlbEvict (l : List TlbEntry) (f : TlbEntry → Bool) : List TlbEntry :=
  match argMin (fun e => e.lru) (l.filter f) with
  | none => l
  | some v => l.filter fun e => e ≠ v

/-- Fill a first-level buffer of 64 entries (R408). -/
def State.fill1 (s : State) (buf p page entry : Nat) : State :=
  let l := (tblGet s.tlb1 buf []).filter fun e => !(e.part = p && e.page = page)
  let l1 := if 64 ≤ l.length then tlbEvict l (fun _ => true) else l
  { s with tlb1 := tblSet s.tlb1 buf (⟨p, page, entry, s.clock⟩ :: l1) [], clock := s.clock + 1 }

/-- The set of a page in the second level (R409). -/
def State.set2 (s : State) (p page : Nat) : Nat := (page % (s.cfg.tlb2 / 16)) ^^^ p

/-- Entries a partition holds in the second level. -/
def State.held2 (s : State) (p : Nat) : Nat := (s.tlb2.map fun kv => (kv.2.filter fun e => e.part = p).length).foldl (· + ·) 0

/-- Evict a partition's least recently used entries of the second level, as many as asked. -/
def evict2 (p : Nat) : Nat → Tbl (List TlbEntry) → Tbl (List TlbEntry)
  | 0, t => t
  | n + 1, t => match argMin (fun e => e.lru) (t.flatMap fun kv => kv.2.filter fun e => e.part = p) with
    | none => t
    | some v => evict2 p n ((t.map fun kv => (kv.1, kv.2.filter fun e => e ≠ v)).filter fun kv => !kv.2.isEmpty)

/-- A partition's quota was written: it never holds more entries than the quota (R409; DESIGN CHOICE, log entry 73, on which go). -/
def State.trim2 (s : State) (p : Nat) : State := { s with tlb2 := evict2 p (s.held2 p - s.setting 0x5130 (p + 1)) s.tlb2 }

/-- Fill the second level (R409): a partition at its quota replaces its own, or is not installed. -/
def State.fill2 (s : State) (p page entry : Nat) : State :=
  let k := s.set2 p page
  let l := (tblGet s.tlb2 k []).filter fun e => !(e.part = p && e.page = page)
  let atQuota := decide (s.setting 0x5130 (p + 1) ≤ s.held2 p)
  let mine := fun (e : TlbEntry) => e.part = p
  if atQuota && !(l.any mine) then s
  else
    let l1 := if atQuota then tlbEvict l mine else if 16 ≤ l.length then tlbEvict l (fun _ => true) else l
    { s with tlb2 := tblSet s.tlb2 k (⟨p, page, entry, s.clock⟩ :: l1) [], clock := s.clock + 1 }

/-- Put a request on the walk of its page, a new walk where none is under way (R410). -/
def State.joinWalk (s : State) (x : XReq) : State :=
  let page := pageOf x.dev
  if s.walks.any fun w => w.part = x.part && w.page = page then
    { s with walks := s.walks.map fun w => if w.part = x.part && w.page = page then { w with waiting := w.waiting ++ [x] } else w }
  else { s with walks := s.walks ++ [{ part := x.part, page, buf := x.buf, issued := false, again := false, line := none, waiting := [x] }] }

/-- Must a request wait behind one that waits for a walk: a store or atomic never passes an earlier one of its source (R410), and a load and
a store or atomic of one line never pass each other (R277). A load waits behind nothing else of another page. -/
def XReq.behind (x y : XReq) : Bool :=
  y.source = x.source && y.part = x.part && !x.probe && !y.probe &&
  ((x.acc.writes && y.acc.writes) || (x.acc.writes ≠ y.acc.writes && y.dev / 128 = x.dev / 128))

/-- Put a request behind those of its source that it may not pass, where one waits for a walk. -/
def State.waitBehind (s : State) (x : XReq) : Option State :=
  (s.walks.find? fun w => w.waiting.any x.behind).map fun w =>
    { s with walks := s.walks.map fun v => if v.part = w.part && v.page = w.page then { v with waiting := v.waiting ++ [x] } else v }

/-- Access a line by device address (R408 to R412). -/
def State.access (s : State) (x : XReq) : State :=
  let t := s.transOf x.part
  let page := pageOf x.dev
  if !t.enable then s.transFail x .access 0x7005
  else if t.dsize * 2 ^ 30 ≤ x.dev then s.transFail x .access 0x7001
  else match s.waitBehind x with
    | some s1 => s1
    | none =>
      match tlbFind (tblGet s.tlb1 x.buf []) x.part page with
      | some e =>
        let s1 := s.bump 0x5100 1
        ({ s1 with tlb1 := tblSet s1.tlb1 x.buf (tlbTouch (tblGet s1.tlb1 x.buf []) x.part page s1.clock) [], clock := s1.clock + 1 } : State).translated x e
      | none =>
        let s1 := s.bump 0x5100 2
        let k := s.set2 x.part page
        match tlbFind (tblGet s1.tlb2 k []) x.part page with
        | some e =>
          let s2 := (s1.bump 0x5100 3).fill1 x.buf x.part page e
          ({ s2 with tlb2 := tblSet s2.tlb2 k (tlbTouch (tblGet s2.tlb2 k []) x.part page s2.clock) [], clock := s2.clock + 1 } : State).translated x e
        | none => s1.joinWalk x

/-- Walks admitted and not complete. -/
def State.walksOut (s : State) (f : Walk → Bool) : Nat := (s.walks.filter fun w => w.issued && f w).length

/-- The live system region that a partition's translation record names (R402). -/
def State.tableRegion (s : State) (p : Nat) : Option Region :=
  let t := s.transOf p
  (tblFind (s.port t.port).regions t.region).filter fun g => g.part = p && g.kind = 3 && (g.state = 2 || g.state = 3)

/-- Admit the next walk (R410, R411): round-robin over streams with misses waiting, at most 32 of a stream and 1,024 in
all; its table line is read for the security controller, from the region that the record names and from no other (R402): where that is
no longer live, the read fails with ACCESS (R412). -/
def State.walkNext (s : State) : State :=
  let stream := fun (w : Walk) => w.buf * 64 + w.part
  let ready := s.walks.filter fun w => !w.issued && w.line.isNone && decide (s.walksOut (fun v => stream v = stream w) < 32)
  if 1024 ≤ s.walksOut (fun _ => true) then s
  else match nextRound s.walkTurn (ready.map stream) with
    | none => s
    | some k => match ready.find? fun w => stream w = k with
      | none => s
      | some w =>
        let n := s.clock
        let mark := fun (line : Option Result) (v : Walk) => if v.part = w.part && v.page = w.page then ({ v with issued := true, read := n, line } : Walk) else v
        match s.tableRegion w.part with
        | none => { s with walkTurn := k, clock := n + 1, walks := s.walks.map (mark (some ⟨.access, 0x7006, []⟩)) }
        | some g => ({ s with walkTurn := k, clock := n + 1, walks := s.walks.map (mark none) } : State).lineAccept (s.transOf w.part).port
            ⟨g.base * 2 ^ 14 + 8 * w.page / 128 * 128, .load, w.part, 11, localContender 11, .walk w.part w.page n, 0, false, 0⟩

/-- A walk's line has come (R411, R412, R414): a walk that read before a mapping changed its page is repeated; otherwise
the entry fills both levels and the waiting requests go on, or they fail. -/
def State.finishWalk (s : State) (p page : Nat) : State :=
  match s.walks.find? fun w => w.part = p && w.page = page with
  | none => s
  | some w => match w.line with
    | none => s
    | some r =>
      if w.again then
        { s with walks := s.walks.map fun v => if v.part = p && v.page = page then { v with issued := false, again := false, line := none } else v }
      else
        let s0 : State := { s with walks := s.walks.filter fun v => !(v.part = p && v.page = page) }
        let e := leNat ((r.data.drop (8 * page % 128)).take 8)
        let s1 := if r.code = .ok then s0.bump 0x5100 4 else s0
        let s2 := if r.code = .ok && bit e 0 then
            (w.waiting.filter fun x => pageOf x.dev = page).foldl (fun s x => s.fill1 x.buf p page e) (s1.fill2 p page e) else s1
        w.waiting.foldl (fun s x =>
          if pageOf x.dev ≠ page || x.part ≠ p then s.access x
          else if r.code ≠ .ok then s.transFail x r.code 0x7006
          else match s.waitBehind x with
            | some t => t
            | none => s.translated x e) s2

/-- An engine leaves a partition (R413): the partition's entries in both levels are dropped, and what the engine's own stream waits for
is squashed (DEDUCED, log entry 73: "its outstanding walks" are the engine's, so that a resize or a sampler's change of partition
ends no request of an engine that the partition keeps). -/
def State.dropEngine (s : State) (p buf : Nat) : State :=
  let gone := fun (w : Walk) => if w.part = p then w.waiting.filter fun x => x.buf = buf else []
  let kept := (s.walks.map fun w => if w.part = p then { w with waiting := w.waiting.filter fun x => x.buf ≠ buf } else w).filter fun w => !w.waiting.isEmpty
  (s.walks.flatMap gone).foldl (fun s x => s.reply x.reply .squashed 0 (failData x.acc)) { s with walks := kept }

/-- Drop the translations of a partition, of one page or of every page (R403, R407, R413), and squash or repeat its
walks. -/
def State.dropTlb (s : State) (p : Nat) (page : Option Nat) : State :=
  let gone := fun (e : TlbEntry) => e.part = p && (match page with | some n => e.page = n | none => true)
  let clean := fun (t : Tbl (List TlbEntry)) => (t.map fun kv => (kv.1, kv.2.filter fun e => !gone e)).filter fun kv => !kv.2.isEmpty
  { s with tlb1 := clean s.tlb1, tlb2 := clean s.tlb2 }

/-- Squash the walks of a partition (R413): the requests that wait complete with SQUASHED. -/
def State.squashWalks (s : State) (p : Nat) : State :=
  let mine := s.walks.filter fun w => w.part = p
  let s0 : State := { s with walks := s.walks.filter fun w => w.part ≠ p }
  mine.foldl (fun s w => w.waiting.foldl (fun s x => s.reply x.reply .squashed 0 (failData x.acc)) s) s0

end Sys2Proof.Machine
end

