-- ==== Sys2Proof/Machine/Queues.lean ====
section
/-! DEFINITION. Sys2Proof/Machine/Queues.lean: the common header, handles, the end of a command, its record and its
signal, and squashing (R378 to R397, R539). -/
namespace Sys2Proof.Machine

/-! ## The common header (Table 15.3) -/

/-- A command's opcode. -/
def hOpcode (d : Nat) : Nat := bits d 7 0
/-- BARRIER, IRQ, NO_RECORD, WAIT_EN and SIG_EN. -/
def hBarrier (d : Nat) : Bool := bit d 8
@[inherit_doc hBarrier] def hIrq (d : Nat) : Bool := bit d 9
@[inherit_doc hBarrier] def hNoRecord (d : Nat) : Bool := bit d 10
@[inherit_doc hBarrier] def hWaitEn (d : Nat) : Bool := bit d 11
@[inherit_doc hBarrier] def hSigEn (d : Nat) : Bool := bit d 12
/-- The fence slots and deltas of the wait and the signal. -/
def hWaitSlot (d : Nat) : Nat := bits d 21 16
@[inherit_doc hWaitSlot] def hSigSlot (d : Nat) : Nat := bits d 27 22
@[inherit_doc hWaitSlot] def hWaitDelta (d : Nat) : Nat := bits d 45 28
@[inherit_doc hWaitSlot] def hSigDelta (d : Nat) : Nat := bits d 63 46

/-- The opcodes of Table 15.4. -/
def opcodes : List Nat := [0x01, 0x02, 0x03, 0x10, 0x11, 0x21, 0x22, 0x23, 0x24, 0x25, 0x26, 0x27]

/-! ## Objects and handles (R386, R387) -/

/-- The object a handle names; none where the handle is stale (R386). -/
def State.objOf (s : State) (h : Nat) : Option Obj :=
  let i := h % 2 ^ 24
  let o := tblGet s.objs i {}
  if o.live && o.gen = h / 2 ^ 24 % 256 && decide (i < s.setting 0x5010 1) then some o else none

/-- May a context name an object (R387): its owner, or any context of the partition where it is shared. -/
def State.objScope (s : State) (n : Nat) (o : Obj) : Bool :=
  o.owner = n || (o.shared && (s.ctx o.owner).part = (s.ctx n).part)

/-- Use `len` bytes of an object at an offset (R387): its device address, STALE_OBJECT, or ACCESS with the code given. -/
def State.objUse (s : State) (n h off len : Nat) (write : Bool) (err : Nat) : Except (Code × Nat) Nat :=
  match s.objOf h with
  | none => .error (.staleObject, 0x6001)
  | some o =>
    if s.objScope n o && decide (off + len ≤ o.size) && (if write then o.wr else o.rd) then .ok (o.base + off)
    else .error (.access, err)

/-- The fence slot of a context: handle and offset. -/
def Ctx.slotOf (c : Ctx) (i : Nat) : Nat × Nat := (tblGet c.slots i 0 % 2 ^ 32, tblGet c.slots i 0 / 2 ^ 32)

/-- The device address of a fence word (rows 4 and 5 of Table 15.6): a signal needs WR, a wait RD. -/
def State.fenceWord (s : State) (n i : Nat) (write : Bool) : Except (Code × Nat) Nat :=
  let w := (s.ctx n).slotOf i
  match s.objUse n w.1 w.2 8 write 0x6002 with
  | .ok dev => if dev % 8 = 0 then .ok dev else .error (.access, 0x6002)
  | .error e => .error e

/-- The outcome of rows 2 to 5 of Table 15.6 that needs no translation: an error and its code, or the fence words' device
addresses. -/
def State.headerCheck (s : State) (n qb d : Nat) : Except (Code × Nat) (Option Nat × Option Nat) :=
  let c := s.ctx n
  if !opcodes.contains (hOpcode d) || bits d 15 13 ≠ 0 || (hWaitEn d && 2 ^ 63 ≤ qb + hWaitDelta d) then .error (.format, 0x6003)
  else if hSigEn d && 2 ^ 63 ≤ qb + hSigDelta d then .error (.counterEnd, 0x6008)
  else if (hWaitEn d && (s.objOf (c.slotOf (hWaitSlot d)).1).isNone) || (hSigEn d && (s.objOf (c.slotOf (hSigSlot d)).1).isNone) then
    .error (.staleObject, 0x6001)
  else
    let w := if hWaitEn d then (s.fenceWord n (hWaitSlot d) false).map some else .ok none
    let g := if hSigEn d then (s.fenceWord n (hSigSlot d) true).map some else .ok none
    match w, g with
    | .error e, _ => .error e
    | _, .error e => .error e
    | .ok a, .ok b => .ok (a, b)

/-! ## Line requests of a command -/

/-- Ask for one line of a command's operands, unless it has it or has asked. -/
def State.cmdLoad (s : State) (id cls buf dev : Nat) : State :=
  let c := s.cmd id
  let a := dev / 128 * 128
  if (tblFind c.got a).isSome || c.asked.contains a then s
  else (s.modCmd id fun c => { c with asked := c.asked ++ [a] }).access
    { buf, part := c.part, ctx := some c.ctx, dev := a, acc := .load, cls, source := srcCmd id, reply := .cmdLine id a, ret := true }

/-- The line addresses that cover a range of device addresses. -/
def linesOf (dev len : Nat) : List Nat := if len = 0 then [] else (List.range ((dev + len - 1) / 128 + 1 - dev / 128)).map fun i => (dev / 128 + i) * 128

/-- Ask for every line of a range. -/
def State.cmdLoadRange (s : State) (id cls buf dev len : Nat) : State := (linesOf dev len).foldl (fun s a => s.cmdLoad id cls buf a) s

/-- Has a command every line of a range. -/
def Cmd.has (c : Cmd) (dev len : Nat) : Bool := (linesOf dev len).all fun a => (tblFind c.got a).isSome

/-- The bytes of a range that a command has. -/
def Cmd.bytes (c : Cmd) (dev len : Nat) : Bytes :=
  (((linesOf dev len).flatMap fun a => tblGet c.got a []).drop (dev % 128)).take len

/-- Write one line, or part of it, for a command. -/
def State.cmdStore (s : State) (id cls buf dev : Nat) (acc : Access) : State :=
  let c := s.cmd id
  (s.modCmd id fun c => { c with writes := c.writes + 1 }).access
    { buf, part := c.part, ctx := some c.ctx, dev := dev / 128 * 128, acc, cls, source := srcCmd id, reply := .cmdWrite id, ret := false }

/-- Write a run of bytes line by line: whole lines as stores, the rest under a byte mask. -/
def State.cmdWriteBytes (s : State) (id cls buf dev : Nat) (b : Bytes) : State :=
  (linesOf dev b.length).foldl (fun s a =>
    let lo := max dev a
    let hi := min (dev + b.length) (a + 128)
    let run := (b.drop (lo - dev)).take (hi - lo)
    s.cmdStore id cls buf a (normalAccess
      (.partialStore ((2 ^ (hi - lo) - 1) * 2 ^ (lo - a)) (padTo 128 (List.replicate (lo - a) 0#8 ++ run))))) s

/-! ## Records (R383, R384) -/

/-- A record's bytes (Table 15.7). -/
def recBytes (q : Nat) (k : Queue) (r : Rec) : Bytes :=
  leBytes 16 (r.desc % 2 ^ 32 + codeNum r.code * 2 ^ 32 + bn (k.ctail / 2 ^ k.clog % 2 = 0) * 2 ^ 40 + r.err % 2 ^ 16 * 2 ^ 48 +
    r.detail % 2 ^ 32 * 2 ^ 64 + q * 2 ^ 96)

/-- Write the oldest record that waits, one at a time. -/
def State.startRecord (s : State) (q : Nat) : State :=
  let k := s.queue q
  match k.records with
  | [] => s
  | r :: _ =>
    if k.recBusy || s.faults.phase ≠ 0 then s
    else
      let dev := k.cring + 16 * (k.ctail % 2 ^ k.clog)
      let c := s.ownerOf q
      let p := (c.map fun n => (s.ctx n).part).getD 0
      (s.modQueue q fun k => { k with recBusy := true }).access
        { buf := bufQueues, part := p, ctx := c, dev := dev / 128 * 128, cls := 12, source := srcQueue q, reply := .record q, ret := false,
          acc := .partialStore ((2 ^ 16 - 1) * 2 ^ (dev % 128)) (padTo 128 (List.replicate (dev % 128) 0#8 ++ recBytes q k r)) }

/-- The payload words of the command trace records (Table 22.4). -/
def cmdTrace (c : Cmd) : List Nat := [c.q + c.ctx * 2 ^ 32 + c.opcode * 2 ^ 48, c.index % 2 ^ 32]

/-- The counter of a completed command, by its opcode and whether it is OK (Tables 5.8, 6.9, 7.7). -/
def endCounter (op : Nat) (ok : Bool) : Option (Nat × Nat) :=
  match op with
  | 0x21 => some (0x2100, if ok then 1 else 4)
  | 0x22 => some (0x2100, if ok then 3 else 4)
  | 0x23 => some (0x2200, if ok then 1 else 2)
  | 0x25 => some (0x2300, if ok then 1 else 2)
  | 0x26 => some (0x2300, if ok then 4 else 2)
  | _ => none

/-- Take a command's work out of the engines: its shards, its turn in the sampler FIFO, its deliveries and its stream; its
slot closes and its accumulator is freed (R136, R178). -/
def State.releaseWork (s : State) (id : Nat) : State :=
  let part := (s.cmd id).part
  let mine := s.rslots.filter fun kv => kv.2.cmd = id
  let freed := (mine.map fun kv => 4 * kv.2.elems).foldl (· + ·) 0
  let clean := fun (t : Tbl (List Nat)) => (t.map fun kv => (kv.1, kv.2.filter (· ≠ id))).filter fun kv => !kv.2.isEmpty
  let chip := fun (k : Chip) =>
    let on := k.streams.filter (· ≠ id)
    let waits := k.queuedStreams.filter (· ≠ id)
    ({ k with deliveries := k.deliveries.filter (fun x => decide (x.cmd ≠ id)), streams := on ++ waits.take (8 - on.length), queuedStreams := waits.drop (8 - on.length), rows := k.rows.filter (fun x => decide (x.cmd ≠ id)), marks := k.marks.filter (fun x => decide (x.1 ≠ id)), rowMarks := k.rowMarks.filter (fun x => decide (x.1 ≠ id)), midRow := k.midRow.filter (· ≠ id) } : Chip)
  let s1 : State := { s with watch := s.watch.filter (fun w => decide (w.1 ≠ id)), auQueue := clean s.auQueue, samplerFifo := clean s.samplerFifo, chips := s.chips.map fun kv => (kv.1, chip kv.2), rslots := s.rslots.filter fun kv => decide (kv.2.cmd ≠ id) }
  if freed = 0 then s1 else s1.modPart part fun p => { p with stagingUsed := p.stagingUsed - freed }

/-- A command leaves: its record takes its reserved entry, or a free one; a command that finds none ends without a record
(R539), and a NO_RECORD command with OK needs none (R384). -/
def State.leave (s : State) (id : Nat) : State :=
  let c := s.cmd id
  let k := s.queue c.q
  let used := (k.ctail + 2 ^ 32 - k.chead) % 2 ^ 32 + k.reserved
  let s0 : State := { s with cmds := tblDel s.cmds id }
  let sc := match endCounter c.opcode (c.code = .ok) with | some e => s0.bump e.1 e.2 | none => s0
  let s1 := (sc.touch 1 c.q).modQueue c.q fun k => { k with started := k.started.filter (· ≠ id), accepted := if k.accepted = some id then none else k.accepted }
  let s2 := (((if c.code = .ok then s1.bump 0x5000 2 else s1.bump 0x5000 3).trace 3 8 0 (some c.part) (codeNum c.code) (cmdTrace c)))
  let s3 := if c.code = .wrongState then s2.bump 0x5000 4 else if c.code = .staleObject then s2.bump 0x5000 8 else s2
  let s4 := if c.code = .ok then s3 else s3.modQueue c.q fun k => { k with failedAt := some (min id (k.failedAt.getD id)) }
  if c.code = .ok && hNoRecord c.desc then s4.modQueue c.q fun k => { k with reserved := k.reserved - bn c.reserved }
  else if !c.reserved && 2 ^ k.clog ≤ used then s4.bump 0x5000 9
  else
    (s4.modQueue c.q fun k => { k with reserved := k.reserved + bn (!c.reserved),
                                       records := k.records ++ [⟨id, c.index, c.code, c.err, c.detail, hIrq c.desc⟩] }).startRecord c.q

/-- Withhold a command's signal (R393): counted, with a context fault. -/
def State.withhold (s : State) (id : Nat) : State :=
  let c := s.cmd id
  (s.bump 0x5000 7).ctxFault c.ctx 0x600A c.q 0

/-- A sampler hands off the command it held (0x6205): the A-cycles it held it are an open value. -/
def State.samplerFreed (s : State) (id : Nat) : State :=
  match s.samplerCmd.find? fun kv => kv.2 = id && (s.cmd id).stage = 2 && (s.cmd id).opcode = 0x23 with
  | some kv => s.bumpBy 0x6205 (kv.1 + 1) (Config.heldCycles s.loc id)
  | none => s

/-- A command has done its work, or failed (R393): the engines let go of it, and its slot closes (R178). A failed one withholds its signal and leaves; one with OK leaves at
once, or waits until its signal may be issued. -/
def State.finishCmd (s : State) (id : Nat) (code : Code) (err detail : Nat) : State :=
  let c := s.cmd id
  if (tblFind s.cmds id).isNone || c.phase = 2 then s
  else
    let s1 := ((s.releaseWork id).samplerFreed id).modCmd id fun c => { c with phase := 2, code, err, detail, got := [], asked := [] }
    if !hSigEn c.desc then s1.leave id
    else if code ≠ .ok then (s1.withhold id).leave id
    else match (s.queue c.q).failedAt with
      | some f => if f < id then (s1.withhold id).leave id else s1
      | none => s1

/-- End a command with SQUASHED, or with ABORTED where a job abort ends it (R397, R492, R539). One that has finished and
waits for its signal withholds it, unless the signal has been issued. A bridge stream under way ends early at its lane (R168):
its STREAM_END carries the code and the first row not delivered, which its record names too. -/
def State.squashCmd (s : State) (id : Nat) (code : Code) : State :=
  let c := s.cmd id
  if (tblFind s.cmds id).isNone then s
  else if c.phase = 2 then
    let s1 := s.modCmd id fun c => { c with code, err := 0 }
    (if c.sig = 1 then s1 else s1.withhold id).leave id
  else if c.opcode = 0x24 && c.phase = 1 && c.stage ≠ 0 && (c.stage ≠ 99 || (s.chip (bits c.desc 179 177)).rows.any fun x => x.cmd = id) then
    let port := bits c.desc 179 177
    let row := if c.stage = 99 then c.done else c.done - bn ((s.chip port).rows.any fun x => x.cmd = id)
    let s1 := if c.stage = 99 && c.fail.isSome then s else s.bump 0x2221 (port + 1)
    let s2 := if (s.chip port).state = 4 then s1.sendChip port { mtype := 0x19, addr := bits c.desc 287 256 + row % 2 ^ 32 * 2 ^ 32, code := codeNum code } else s1
    s2.finishCmd id code 0 row
  else s.finishCmd id code 0 (if c.opcode = 0x24 && c.phase = 1 && c.stage = 99 then c.done else 0)

/-- A queue enters error (R376, R398): nothing more is accepted, and an accepted command that has not started is
squashed. -/
def State.queueError (s : State) (q err : Nat) (fault : Bool) : State :=
  let p := (s.ownerOf q).map fun n => (s.ctx n).part
  let s1 := (s.error 8 0 p err 0).modQueue q fun k => { k with state := 2, fetching := false, fetched := none, probes := [], probing := [], probeFails := [] }
  let s2 := match (s.queue q).accepted with
    | some id => s1.squashCmd id .squashed
    | none => s1
  match s.ownerOf q with
  | some n => if fault then s2.ctxFault n err q 0 else s2
  | none => s2

/-- A record's write has ended (R384, R398): CTAIL advances and the vector is sent, or the record is lost and the queue
enters error. -/
def State.recordDone (s : State) (q : Nat) (r : Result) : State :=
  let k := s.queue q
  match k.records with
  | [] => s
  | x :: rest =>
    let s1 := s.modQueue q fun k => { k with records := rest, recBusy := false, reserved := k.reserved - 1 }
    if r.code = .ok then
      let s2 := s1.modQueue q fun k => { k with ctail := (k.ctail + 1) % 2 ^ 32 }
      let s3 := match s2.ownerOf q with
        | some n => if x.irq && k.vec < 64 then s2.sendVector n k.vec else s2
        | none => s2
      s3.startRecord q
    else
      (if k.state ≠ 0 then s1.queueError q 0x600D true else s1).startRecord q

/-- Do all of a queue's earlier commands lie behind a command. -/
def State.earlierDone (s : State) (id : Nat) : Bool :=
  !(s.cmds.any fun kv => kv.2.q = (s.cmd id).q && decide (kv.1 < id))

/-- The oldest command of a queue whose signal is due: finished with OK and not signalled (R393). -/
def State.signalDue (s : State) (q : Nat) : Option Nat :=
  (s.cmds.find? fun kv => kv.2.q = q && kv.2.phase = 2 && kv.2.code = .ok && hSigEn kv.2.desc && kv.2.sig = 0).map (·.1)

/-- Issue a due signal (R392, R393): a store-max of QB + SIG_DELTA to the fence word, once every earlier command of the
queue has completed; withheld where one of them failed. -/
def State.signal (s : State) (q : Nat) : State :=
  match s.signalDue q with
  | none => s
  | some id =>
    let c := s.cmd id
    if !s.earlierDone id then s
    else if (match (s.queue q).failedAt with | some f => decide (f < id) | none => false) then (s.withhold id).leave id
    else
      (s.modCmd id fun c => { c with sig := 1 }).access
        { buf := bufQueues, part := c.part, ctx := some c.ctx, dev := c.sigWord / 128 * 128, cls := 12, source := srcQueue q, reply := .signal id, ret := true,
          acc := .atomic 4 true (c.sigWord % 128) (c.qb + hSigDelta c.desc) }

/-- A signal's atomic has ended (R392, R393): a lower value is counted; a failure replaces the command's OK. -/
def State.signalDone (s : State) (id : Nat) (r : Result) : State :=
  let c := s.cmd id
  if (tblFind s.cmds id).isNone then s
  else
    let s1 := s.modCmd id fun c => { c with sig := 2 }
    if r.code = .ok then
      let s2 := if sltW 64 (c.qb + hSigDelta c.desc) (leNat r.data) then (s1.bump 0x5000 5).error 8 0 (some c.part) 0x6009 0 else s1
      s2.leave id
    else
      let s2 := (s1.modCmd id fun c => { c with code := r.code, err := r.err })
      (if r.err / 0x1000 = 7 || r.err = 0x2020 then s2 else s2.ctxFault c.ctx r.err c.q 0).leave id

/-! ## Waits (R394) -/

/-- Read the fence word of the command that a queue holds unstarted. -/
def State.readFence (s : State) (q : Nat) : State :=
  match (s.queue q).accepted with
  | none => s
  | some id =>
    let c := s.cmd id
    if c.waitPassed || c.waitBusy then s
    else (s.modCmd id fun c => { c with waitBusy := true }).access
      { buf := bufQueues, part := c.part, ctx := some c.ctx, dev := c.fenceLine / 128 * 128, acc := .load, cls := 12, source := srcQueue q,
        reply := .fence q, ret := true }

/-- A fence read has ended: the wait passes where the word, signed, is at least the wait value; a failed read ends the
command without access. -/
def State.fenceRead (s : State) (q : Nat) (r : Result) : State :=
  match (s.queue q).accepted with
  | none => s
  | some id =>
    let c := s.cmd id
    let v := leNat ((r.data.drop (c.fenceLine % 128)).take 8)
    let seen := tblGet s.faults.fenceSeen q 0
    let rose := (tblFind s.faults.fenceSeen q).isNone || decide (seen < v)
    let s : State := if r.code = .ok && rose then ({ s with faults := { s.faults with fenceSeen := tblPut s.faults.fenceSeen q v } } : State).touch 2 q else s
    let unwatch := fun (s : State) => { s with watch := s.watch.filter fun w => w.1 ≠ id }
    if r.code ≠ .ok then
      unwatch (s.modCmd id fun c => { c with waitBusy := false, waitPassed := true, fail := some (r.code, r.err) })
    else if !sltW 64 v (c.qb + hWaitDelta c.desc) then unwatch (s.modCmd id fun c => { c with waitBusy := false, waitPassed := true })
    else s.modCmd id fun c => { c with waitBusy := false }

end Sys2Proof.Machine
end

