-- ==== Sys2Proof/Machine/Checks.lean ====
section
/-! DEFINITION. Sys2Proof/Machine/Checks.lean: the fields of each command's descriptor and the checks its own chapter
lays down, in the order of its table (Tables 5.5, 6.6, 6.8, 7.6; R114, R145, R286, R380). -/
namespace Sys2Proof.Machine

/-- The first row of a table of refusals that holds. -/
def firstBad (rows : List (Bool × Code × Nat)) : Option (Code × Nat) := (rows.find? (·.1)).map (·.2)

/-- Is a handle stale (R386). -/
def State.stale (s : State) (h : Nat) : Bool := (s.objOf h).isNone

/-- Does an extent of an object fail scope, rights or bounds (R387). -/
def State.objBad (s : State) (n h off len : Nat) (write : Bool) : Bool :=
  match s.objUse n h off len write 0 with
  | .ok _ => false
  | .error _ => true

/-- The objects that a descriptor's handles name, by the handles' places in it: a command works on the objects as they were
when it was accepted, whatever an OBJ_FREE accepted later retires (R389). -/
def State.objsOf (s : State) (d : Nat) : Tbl Obj := [64, 128, 192].filterMap fun lo => (s.objOf (bits d (lo + 31) lo)).map fun o => (lo, o)

/-- The device address of an offset of the object that the handle at bit `lo` named. -/
def Cmd.objDev (c : Cmd) (lo off : Nat) : Nat := match tblFind c.objs lo with | some o => o.base + off | none => 0

/-- Does a read of the object that the handle at bit `lo` named fail its rights or bounds (R387). -/
def Cmd.objShort (c : Cmd) (lo off len : Nat) : Bool :=
  match tblFind c.objs lo with
  | some o => !(o.rd && decide (off + len ≤ o.size))
  | none => true

/-- Is a chiplet port not in state 4, or not bound to a partition (R295). -/
def State.portBad (s : State) (p c : Nat) : Bool := !((s.chip c).state = 4 && (s.chip c).bound = some p)

/-- Is a palette entry registered (R102). -/
def Palette.registered (p : Palette) : Bool := p.state = 1

/-- An FP32 field that is NaN or infinite. -/
def badFloat (d hi lo : Nat) : Bool := (f32 (BitVec.ofNat 32 (bits d hi lo))).special
/-- An FP32 field as a value. -/
def fieldF (d hi lo : Nat) : Fp := f32 (BitVec.ofNat 32 (bits d hi lo))
/-- Exact zero and one. -/
def fp0 : Fp := .fin false 0 1
@[inherit_doc fp0] def fp1 : Fp := .fin false 1 1

/-! ## Attention steps and KV appends (Tables 5.3 to 5.5) -/

/-- B, G, D, the formats and the mode of an attention step. -/
def aB (d : Nat) : Nat := bits d 334 328
@[inherit_doc aB] def aG (d : Nat) : Nat := bits d 324 320
@[inherit_doc aB] def aD (d : Nat) : Nat := 32 * bits d 315 312
@[inherit_doc aB] def aKv (d : Nat) : Nat := bits d 295 288
@[inherit_doc aB] def aQf (d : Nat) : Nat := bits d 303 296
@[inherit_doc aB] def aQb (d : Nat) : Nat := if aQf d = 2 then 2 else 1
@[inherit_doc aB] def aYb4 (d : Nat) : Bool := bit d 304
@[inherit_doc aB] def aPrefetch (d : Nat) : Bool := bit d 305
@[inherit_doc aB] def aMode (d : Nat) : Nat := bits d 307 306
@[inherit_doc aB] def aPort (d : Nat) : Nat := bits d 310 308

/-- The handle and offset in the two words from bit `lo` on. -/
def hAt (d lo : Nat) : Nat := bits d (lo + 31) lo
@[inherit_doc hAt] def oAt (d lo : Nat) : Nat := bits d (lo + 63) (lo + 32)

/-- The size of a partial record (R121). -/
def partialSize (dim : Nat) : Nat := (4 * dim + 8 + 127) / 128 * 128

/-- The footprint of an attention step in scratch units (R127). -/
def aFoot (d : Nat) : Nat := (aB d * aG d * aD d * aQb d + aB d * aG d * (4 * aD d + 8) + 16383) / 16384

/-- Is a format one of a KV page (R110). -/
def kvFormat (f : Nat) : Bool := f = 8 || f = 9 || f = 12 || f = 15

/-- The checks of an attention step that need no memory: rows 1 to 4 of Table 5.5 (R114, R135). -/
def State.attnBad (s : State) (n d : Nat) : Option (Code × Nat) :=
  let p := (s.ctx n).part
  let vecs := aB d * aG d
  let sm := fieldF d 287 256
  firstBad [
    (oAt d 64 % 128 ≠ 0 || oAt d 128 % 8 ≠ 0 || 2 ≤ aMode d || (aMode d = 1 && oAt d 192 % 128 ≠ 0) || (aMode d = 0 && oAt d 192 ≠ 0) ||
      sm.special || !Fp.lt fp0 sm || !kvFormat (aKv d) || !(2 ≤ aQf d && aQf d ≤ 4) || s.cfg.chipPorts ≤ aPort d || bit d 311 ||
      aD d = 0 || 256 < aD d || bits d 319 316 ≠ 0 || aG d = 0 || 16 < aG d || bits d 327 325 ≠ 0 || aB d = 0 || 64 < aB d || bit d 335 ||
      bits d 511 344 ≠ 0, .format, 0x5101),
    (aMode d = 0 && !(s.chip (aPort d)).palette.registered, .format, 0x5105),
    (s.stale (hAt d 64) || s.stale (hAt d 128) || (aMode d = 1 && s.stale (hAt d 192)), .staleObject, 0x6001),
    (s.objBad n (hAt d 64) (oAt d 64) (vecs * aD d * aQb d) false || s.objBad n (hAt d 128) (oAt d 128) ((4 * aB d + 7) / 8 * 8) false ||
      (aMode d = 1 && s.objBad n (hAt d 192) (oAt d 192) (vecs * partialSize (aD d)) true), .access, 0x5102),
    (aMode d = 0 && s.portBad p (aPort d), .access, 0x3010)]

/-- Tokens written and the other fields of a KV append (Table 5.4). -/
def kCount (d : Nat) : Nat := bits d 230 224 + 1
@[inherit_doc kCount] def kFirst (d : Nat) : Nat := bits d 222 216
@[inherit_doc kCount] def kPage (d : Nat) : Nat := bits d 175 128
@[inherit_doc kCount] def kFmt (d : Nat) : Nat := bits d 199 192
@[inherit_doc kCount] def kSrc (d : Nat) : Nat := bits d 207 200
@[inherit_doc kCount] def kD (d : Nat) : Nat := 32 * bits d 211 208

/-- Bytes of one element row and one metadata row of a KV page (Table 5.2). -/
def kvRow (f dim : Nat) : Nat := if f = 8 || f = 9 then dim else dim / 2
@[inherit_doc kvRow] def kvMeta (f dim : Nat) : Nat := if f = 15 then dim / 16 else dim / 32
/-- Bytes of a KV page. -/
def kvPageSize (f dim : Nat) : Nat := 256 * (kvRow f dim + kvMeta f dim)

/-- The checks of a KV append that need no memory: rows 1, 3 and 4 of Table 5.5 (R129, R135, R93). -/
def State.appendBad (s : State) (n d : Nat) : Option (Code × Nat) :=
  let len := 2 * kCount d * rowBytes (kSrc d) (kD d)
  firstBad [
    (oAt d 64 % 128 ≠ 0 || kPage d % 128 ≠ 0 || bits d 191 176 ≠ 0 || !kvFormat (kFmt d) || 4 < kSrc d || kD d = 0 || 256 < kD d ||
      bits d 215 212 ≠ 0 || bit d 223 || 128 < kFirst d + kCount d || bit d 231 || (bit d 232 && s.setting 0x2030 1 = 0) ||
      bits d 511 234 ≠ 0, .format, 0x5101),
    (s.stale (hAt d 64), .staleObject, 0x6001),
    (s.objBad n (hAt d 64) (oAt d 64) len false, .access, 0x5102)]

/-! ## Samples (Tables 6.1 and 6.6) -/

/-- Vocabulary, logit width, modes of a sample command. -/
def sV (d : Nat) : Nat := bits d 457 440 + 1
@[inherit_doc sV] def sFmt (d : Nat) : Nat := bits d 439 432
@[inherit_doc sV] def sBytes (d : Nat) : Nat := sV d * (if sFmt d = 0 then 4 else 2)
@[inherit_doc sV] def sMode (d : Nat) : Nat := bits d 465 464
@[inherit_doc sV] def sPort (d : Nat) : Nat := bits d 468 466
@[inherit_doc sV] def sGreedy (d : Nat) : Bool := bit d 469
@[inherit_doc sV] def sUse (d : Nat) : Bool := bit d 472
@[inherit_doc sV] def sUpdate (d : Nat) : Bool := bit d 473
@[inherit_doc sV] def sTopK (d : Nat) : Nat := bits d 426 416

/-- The error code that refuses the port a sample command delivers to, 0 none: 0x5203 for a port held in isolation (R159, Table
6.6) and 0x3010 for one not admitted for its partition (R295; DEDUCED, log entry 96: both rules name an isolated port). -/
def State.samplePort (s : State) (p d : Nat) : Nat :=
  if sMode d ≠ 1 then 0 else if (s.chip (sPort d)).state = 1 then 0x5203 else if s.portBad p (sPort d) then 0x3010 else 0

/-- The checks of a sample command that need no memory (R145, R160 rows 1 to 3). A field that its mode ignores is not held
to its range, but no float field is NaN or infinite. -/
def State.sampleBad (s : State) (n d : Nat) : Option (Code × Nat) :=
  let inv := fieldF d 287 256
  let rep := fieldF d 319 288
  let pres := fieldF d 351 320
  let topP := fieldF d 383 352
  let minP := fieldF d 415 384
  let map := (sV d + 7) / 8
  firstBad [
    (oAt d 64 % 128 ≠ 0 || oAt d 128 % 128 ≠ 0 || 2 ≤ sMode d || (sMode d = 0 && oAt d 192 % 16 ≠ 0) ||
      (sMode d = 1 && oAt d 192 ≠ 0) || inv.special || rep.special || pres.special || topP.special || minP.special ||
      (!sGreedy d && !Fp.lt fp0 inv) || (sUse d && (Fp.lt rep fp1 || Fp.lt pres fp0)) || !Fp.lt fp0 topP || Fp.lt fp1 topP ||
      Fp.lt minP fp0 || !Fp.lt minP fp1 || 1024 < sTopK d || bits d 431 427 ≠ 0 || 2 < sFmt d || bits d 463 458 ≠ 0 ||
      s.cfg.chipPorts ≤ sPort d || (sUpdate d && !sUse d) || bits d 479 474 ≠ 0, .format, 0x5201),
    (s.stale (hAt d 64) || (sUse d && s.stale (hAt d 128)) || (sMode d = 0 && s.stale (hAt d 192)), .staleObject, 0x6001),
    (s.objBad n (hAt d 64) (oAt d 64) (sBytes d) false || (sUse d && s.objBad n (hAt d 128) (oAt d 128) map false) ||
      (sUpdate d && s.objBad n (hAt d 128) (oAt d 128) map true) || (sMode d = 0 && s.objBad n (hAt d 192) (oAt d 192) 16 true), .access, 0x5203),
    (s.samplePort (s.ctx n).part d ≠ 0, .access, s.samplePort (s.ctx n).part d)]

/-! ## Bridge streams (Tables 6.7 and 6.8) -/

/-- Rows, elements of a row, formats and port of a bridge stream. -/
def bRows (d : Nat) : Nat := bits d 255 224
@[inherit_doc bRows] def bElems (d : Nat) : Nat := bits d 207 184
@[inherit_doc bRows] def bSrc (d : Nat) : Nat := bits d 167 160
@[inherit_doc bRows] def bPort (d : Nat) : Nat := bits d 179 177
@[inherit_doc bRows] def bTarget (d : Nat) (p : Palette) : Nat := if bit d 176 then p.pref else bits d 175 168
@[inherit_doc bRows] def bMeta (d : Nat) : Nat := bits d 159 128

/-- Is a row length a multiple of a format's block (R87). -/
def blockFits (f n : Nat) : Bool := (fmtOf f).block = 0 || n % (fmtOf f).block = 0

/-- The checks of a bridge stream that need no memory: rows 1 to 4 of Table 6.8 (R165, R167, R93). The whole element plane
and metadata plane lie in the source object. -/
def State.streamBad (s : State) (n d : Nat) : Option (Code × Nat) :=
  let pal := (s.chip (bPort d)).palette
  let t := bTarget d pal
  let f := bSrc d
  let blocked := decide ((fmtOf f).block ≠ 0)
  let total := bRows d * bElems d
  firstBad [
    (bits d 127 96 % 128 ≠ 0 || (if blocked then bMeta d % 128 ≠ 0 else bMeta d ≠ 0) || 0x10 ≤ f || 0x10 ≤ bits d 175 168 ||
      s.cfg.chipPorts ≤ bPort d || bits d 183 180 ≠ 0 || bElems d = 0 || !blockFits f (bElems d) || !blockFits t (bElems d) ||
      bits d 223 208 ≠ 0 || bRows d = 0 || bits d 511 288 ≠ 0 || (!bit d 176 && !bit pal.accept t) ||
      (pal.round = 1 && (t = 0 || t = 5)), .format, 0x5211),
    (!pal.registered, .format, 0x5212),
    (s.stale (hAt d 64), .staleObject, 0x6001),
    (s.objBad n (hAt d 64) (oAt d 64) (rowBytes f total) false || (blocked && s.objBad n (hAt d 64) (bMeta d) (rowMeta f total) false), .access, 0x5213),
    (s.portBad (s.ctx n).part (bPort d), .access, 0x3010)]

/-! ## Reduces and merges (Tables 7.1, 7.3 and 7.6) -/

/-- Fields of a reduce command. -/
def rLocal (d : Nat) : Nat := bits d 255 248
@[inherit_doc rLocal] def rExpect (d : Nat) : Nat := bits d 296 280
@[inherit_doc rLocal] def rElems (d : Nat) : Nat := bits d 276 256
@[inherit_doc rLocal] def rIn (d : Nat) : Nat := bits d 231 224
@[inherit_doc rLocal] def rOut (d : Nat) : Nat := bits d 239 232
@[inherit_doc rLocal] def rMode (d : Nat) : Nat := bits d 219 218
@[inherit_doc rLocal] def rOp (d : Nat) : Nat := bits d 217 216
@[inherit_doc rLocal] def rPort (d : Nat) : Nat := bits d 222 220
@[inherit_doc rLocal] def rSlot (d : Nat) : Nat := bits d 207 192
@[inherit_doc rLocal] def rEpoch (d : Nat) : Nat := bits d 215 208
@[inherit_doc rLocal] def rStride (d : Nat) : Nat := bits d 335 304
@[inherit_doc rLocal] def rMeta (d : Nat) : Nat := bits d 367 336
/-- The member and the slot that a mode 0b10 result goes to. -/
def rDestMember (d : Nat) : Nat := bits d 143 128
@[inherit_doc rDestMember] def rDestSlot (d : Nat) : Nat := bits d 175 160
@[inherit_doc rDestMember] def rDestEpoch (d : Nat) : Nat := bits d 183 176

/-- Bytes rounded up to lines. -/
def lineRound (n : Nat) : Nat := (n + 127) / 128 * 128

/-- Bytes that a reduce writes in mode 0b00: its elements, and from the next line on its metadata. -/
def rOutBytes (d : Nat) : Nat :=
  let e := rowBytes (rOut d) (rElems d)
  if (fmtOf (rOut d)).block = 0 then e else lineRound e + rowMeta (rOut d) (rElems d)

/-- The key of a reduction slot: partition and slot number. -/
def slotKey7 (p slot : Nat) : Nat := p * 2 ^ 16 + slot

/-- Has a member a route from here: none without a membership of this hub's own (R18, R19, R269). -/
def State.routed (s : State) (member : Nat) : Bool := s.bring.member && (member = s.memberField || (s.routeOf none member false).isSome)

/-- The checks of a reduce command that need no memory (R189, R93, R87). -/
def State.reduceBad (s : State) (n d : Nat) : Option (Code × Nat) :=
  let p := (s.ctx n).part
  let blocked := decide ((fmtOf (rIn d)).block ≠ 0)
  let k := rLocal d
  let e := rElems d
  let conv := rMode d = 0 || rMode d = 2
  firstBad [
    (oAt d 64 % 128 ≠ 0 || rOp d = 3 || rMode d = 3 || s.cfg.chipPorts ≤ rPort d || 0x10 ≤ rIn d || (conv && 0x10 ≤ rOut d) ||
      (conv && bit d 240 && (s.setting 0x2030 1 = 0 || rOut d = 0 || rOut d = 5)) || bits d 247 242 ≠ 0 || e < 32 || 2 ^ 20 < e ||
      e % 32 ≠ 0 || ((rIn d = 14 || (conv && rOut d = 14)) && e % 64 ≠ 0) || bits d 279 277 ≠ 0 || bits d 303 297 ≠ 0 ||
      rStride d % 128 ≠ 0 || (if blocked then rMeta d % 128 ≠ 0 else rMeta d ≠ 0) || bits d 511 368 ≠ 0 || k + rExpect d = 0 ||
      (rMode d = 0 && oAt d 128 % 128 ≠ 0) || (rMode d = 1 && oAt d 128 ≠ 0) || (rMode d = 2 && (bits d 159 144 ≠ 0 || bits d 191 184 ≠ 0)),
      .format, 0x5301),
    (rMode d = 1 && !(s.chip (rPort d)).palette.registered, .format, 0x5302),
    ((k ≠ 0 && s.stale (hAt d 64)) || (rMode d = 0 && s.stale (hAt d 128)), .staleObject, 0x6001),
    ((k ≠ 0 && (s.objBad n (hAt d 64) (oAt d 64) ((k - 1) * rStride d + rowBytes (rIn d) e) false ||
        (blocked && s.objBad n (hAt d 64) (rMeta d) ((k - 1) * rStride d + rowMeta (rIn d) e) false))) ||
      (rMode d = 0 && s.objBad n (hAt d 128) (oAt d 128) (rOutBytes d) true) || (rMode d = 2 && !s.routed (rDestMember d)), .access, 0x5303),
    (rMode d = 1 && s.portBad p (rPort d), .access, 0x3010)]

/-- Fields of a merge command. -/
def mSets (d : Nat) : Nat := bits d 199 192 + 1
@[inherit_doc mSets] def mD (d : Nat) : Nat := 32 * bits d 203 200
@[inherit_doc mSets] def mRecs (d : Nat) : Nat := bits d 217 208 + 1
@[inherit_doc mSets] def mMode (d : Nat) : Nat := bits d 225 224
@[inherit_doc mSets] def mPort (d : Nat) : Nat := bits d 228 226

/-- The checks of a merge command that need no memory (R182, R189). -/
def State.mergeBad (s : State) (n d : Nat) : Option (Code × Nat) :=
  firstBad [
    (oAt d 64 % 8 ≠ 0 || 2 ≤ mMode d || (mMode d = 1 && oAt d 128 % 128 ≠ 0) || (mMode d = 0 && oAt d 128 ≠ 0) || mD d = 0 || 256 < mD d ||
      bits d 207 204 ≠ 0 || bits d 223 218 ≠ 0 || s.cfg.chipPorts ≤ mPort d || bits d 231 229 ≠ 0 || bits d 511 240 ≠ 0, .format, 0x5311),
    (mMode d = 0 && !(s.chip (mPort d)).palette.registered, .format, 0x5312),
    (s.stale (hAt d 64) || (mMode d = 1 && s.stale (hAt d 128)), .staleObject, 0x6001),
    (s.objBad n (hAt d 64) (oAt d 64) (8 * mSets d) false ||
      (mMode d = 1 && s.objBad n (hAt d 128) (oAt d 128) (mRecs d * partialSize (mD d)) true), .access, 0x5313),
    (mMode d = 0 && s.portBad (s.ctx n).part (mPort d), .access, 0x3010)]

/-! ## Invalidates and the commands of chapter 15 -/

/-- Targets, scope and base of an invalidate command (Table 11.3). -/
def iTargets (d : Nat) : Nat := bits d 204 192
@[inherit_doc iTargets] def iScope (d : Nat) : Nat := bits d 111 108
@[inherit_doc iTargets] def iBase (d : Nat) : Nat := bits d 107 80
@[inherit_doc iTargets] def iHome (d : Nat) : Nat := bits d 79 64

/-- The checks of an invalidate command that need no memory (R286). Its list object is held to R387 with 0x6002. -/
def State.invalBad (s : State) (n d : Nat) : Option (Code × Nat) :=
  firstBad [
    ((iTargets d = 0 && !bit d 205) || (iScope d ≠ 15 && iBase d % 2 ^ iScope d ≠ 0) || 4096 < iTargets d || bits d 127 112 ≠ 0 ||
      bits d 511 206 ≠ 0 || (iTargets d ≠ 0 && oAt d 128 % 8 ≠ 0), .format, 0x6003),
    (iTargets d ≠ 0 && s.stale (hAt d 128), .staleObject, 0x6001),
    (iTargets d ≠ 0 && s.objBad n (hAt d 128) (oAt d 128) (2 * iTargets d) false, .access, 0x6002)]

/-- Frees of a partition that await quiescence (R389). -/
def State.freesOf (s : State) (p : Nat) : Nat := (s.objs.filter fun kv => kv.2.pendingFree && (s.ctx kv.2.owner).part = p).length

/-- Objects of the table: the lowest free index (R388). -/
def State.freeObj (s : State) : Option Nat :=
  let busy := (s.objs.filter fun kv => kv.2.live || kv.2.retired || kv.2.pendingFree).map fun kv => (kv.1, ())
  let i := firstGap busy 0
  if i < s.setting 0x5010 1 then some i else none

/-- The checks of the commands of chapter 15 (R380, R388, R389). -/
def State.chapterBad (s : State) (n d : Nat) : Option (Code × Nat) :=
  match hOpcode d with
  | 0x02 => firstBad [(bits d 511 127 ≠ 0, .format, 0x6003)]
  | 0x10 => firstBad [
      (bits d 70 64 ≠ 0 || bits d 118 112 ≠ 0 || bits d 159 112 = 0 || bits d 511 163 ≠ 0, .format, 0x6003),
      (s.freeObj.isNone, .resource, 0x600C)]
  | 0x11 => firstBad [
      (bits d 511 96 ≠ 0, .format, 0x6003),
      (s.stale (hAt d 64), .staleObject, 0x6001),
      ((match s.objOf (hAt d 64) with | some o => decide (o.owner ≠ n) | none => true), .access, 0x6002),
      (decide (256 ≤ s.freesOf (s.ctx n).part), .resource, 0x600C)]
  | _ => firstBad [(bits d 511 64 ≠ 0, .format, 0x6003)]

/-- The error codes of the rows that R102 refuses in: the palette entry of a command's port is not registered. -/
def paletteErrs : List Nat := [0x5105, 0x5212, 0x5302, 0x5312]

/-- Did R87 (block size or plane base), R93 (stochastic rounding) or R102 (palette) decide a FORMAT refusal of code `err`: what
0x2040.04 counts. A refusal in the first row of a command's table is R87's or R93's where one of their conditions holds; a reserved
format code is R13's. -/
def State.formatsBad (s : State) (d err : Nat) : Bool :=
  let off := s.setting 0x2030 1 = 0
  let fits := fun (f n : Nat) => decide (16 ≤ f) || blockFits f n
  let scaled := fun (f : Nat) => decide (f < 16) && (fmtOf f).block ≠ 0
  paletteErrs.contains err || match hOpcode d with
  | 0x22 => kPage d % 128 ≠ 0 || (bit d 232 && off)
  | 0x24 =>
    let pal := (s.chip (bPort d)).palette
    let t := bTarget d pal
    bits d 127 96 % 128 ≠ 0 || (scaled (bSrc d) && bMeta d % 128 ≠ 0) || !fits (bSrc d) (bElems d) || !fits t (bElems d) ||
      (!bit d 176 && !bit pal.accept t) || (pal.round = 1 && (t = 0 || t = 5))
  | 0x25 =>
    let conv := rMode d = 0 || rMode d = 2
    oAt d 64 % 128 ≠ 0 || (rMode d = 0 && oAt d 128 % 128 ≠ 0) || (scaled (rIn d) && rMeta d % 128 ≠ 0) || !fits (rIn d) (rElems d) ||
      (conv && (!fits (rOut d) (rElems d) || (bit d 240 && (off || rOut d = 0 || rOut d = 5))))
  | _ => false

/-- Row 6 of Table 15.6: the command's own checks. -/
def State.ownBad (s : State) (n d : Nat) : Option (Code × Nat) :=
  match hOpcode d with
  | 0x21 => s.attnBad n d
  | 0x22 => s.appendBad n d
  | 0x23 => s.sampleBad n d
  | 0x24 => s.streamBad n d
  | 0x25 => s.reduceBad n d
  | 0x26 => s.mergeBad n d
  | 0x27 => s.invalBad n d
  | _ => s.chapterBad n d

/-- The chiplet port a command delivers to. -/
def outPort (d : Nat) : Option Nat :=
  match hOpcode d with
  | 0x21 => if aMode d = 0 then some (aPort d) else none
  | 0x23 => if sMode d = 1 then some (sPort d) else none
  | 0x24 => some (bPort d)
  | 0x25 => if rMode d = 1 then some (rPort d) else none
  | 0x26 => if mMode d = 0 then some (mPort d) else none
  | _ => none

end Sys2Proof.Machine
end

