-- ==== Sys2Proof/Machine/Faults.lean ====
section
/-! DEFINITION. Sys2Proof/Machine/Faults.lean: partition faults, block faults, domain aborts, the vigil and its snapshots
(R472 to R492). -/
namespace Sys2Proof.Machine

/-- Is a partition live: STATE live or resizing (Table 17.1). -/
def Part.live (p : Part) : Bool := p.state = 1 || p.state = 2

/-- The live partitions. -/
def State.liveParts (s : State) : List Nat := (s.parts.filter fun kv => kv.2.live).map (·.1)

/-- The contexts of a partition that are not free. -/
def State.ctxsOf (s : State) (p : Nat) : List Nat := (s.ctxs.filter fun kv => kv.2.state ≠ 0 && kv.2.part = p).map (·.1)

/-- Change the record of faults. -/
def State.modFaults (s : State) (f : Faults → Faults) : State := { s with faults := f s.faults }

/-! ## Domain aborts and partition faults (R477, R491, R492) -/

/-- The second unit of DOMAIN_ABORT (Table 20.8d). -/
def abortUnit (origin aseq p err job kgen : Nat) : Bytes :=
  leBytes 16 (origin + aseq % 2 ^ 32 * 2 ^ 16 + p * 2 ^ 48 + err * 2 ^ 64 + job * 2 ^ 80 + kgen % 256 * 2 ^ 112)

/-- Send an abort on every link in state 4, or in idle-low, which it wakes, but the one it arrived on (R250). -/
def State.floodAbort (s : State) (arrived : Option Nat) (m : Msg) : State :=
  (List.range s.cfg.links).foldl (fun s l => if ((s.link l).state = 4 || (s.link l).state = 5) && arrived ≠ some l then s.sendOn l m else s) s

/-- Remember an abort identity: the last 64 are kept. -/
def State.seeAbort (s : State) (id : Nat × Nat) : State := s.modFaults fun f => { f with seen := (f.seen ++ [id]).drop (f.seen.length + 1 - 64) }

/-- Send this hub's own abort for a partition (R491). -/
def State.sendAbort (s : State) (p err : Nat) : State :=
  let k := s.partn p
  let a := s.faults.abortSeq
  let m : Msg := { mtype := 0x20, src := s.memberField, dst := 0, part := p, pgen := s.pgenOf p, body := abortUnit s.memberField a p err k.job k.kgen }
  (((s.modFaults fun f => { f with abortSeq := (f.abortSeq + 1) % 2 ^ 32 }).seeAbort (s.memberField, a)).floodAbort none m).bump 0x6000 6

/-- Ask for a partition's reset with ABORTED in place of SQUASHED; one already running is joined (R494). -/
def State.abortReset (s : State) (p : Nat) : State :=
  let s1 := s.modPart p fun k => { k with aborted := true, resetDue := !k.resetting }
  { s1 with ctxs := s1.ctxs.map fun kv => if kv.2.part = p && kv.2.state ≠ 0 then (kv.1, { kv.2 with aborted := true }) else kv }

/-- A job abort from this hub (R492). -/
def State.jobAbort (s : State) (p err : Nat) : State :=
  if !(s.partn p).live then s
  else
    let a := s.memberField + s.faults.abortSeq * 2 ^ 16
    ((s.sendAbort p err).note 9 2 err (some p) 0 a (s.partn p).job).abortReset p

/-- What every partition fault does first (R477): a context fault in every active context, and one notice of kind 0x02. -/
def State.partFaultNotes (s : State) (p err : Nat) : State :=
  let act := (s.ctxs.filter fun kv => kv.2.state = 1 && kv.2.part = p).map (·.1)
  ((act.foldl (fun s n => s.ctxFault n err 0 0) s).bump 0x6000 2).note 2 2 err (some p) 0 (s.partn p).job 0

/-- A partition fault acts as 0x6001.02 selects (R477). -/
def State.partFault (s : State) (p err : Nat) : State :=
  let s1 := s.partFaultNotes p err
  match s.setting 0x6001 2 with
  | 1 => s1.modPart p fun k => { k with resetDue := !k.resetting }
  | 2 => s1.jobAbort p err
  | _ => s1

/-- A DOMAIN_ABORT received (R250, R492): an identity not seen is forwarded, and acted on where the partition is live here
with its JOB and KGEN. -/
def State.abortReceived (s : State) (l : Nat) (m : Msg) : State :=
  let v := leNat (m.body.take 16)
  let id := (bits v 15 0, bits v 47 16)
  let p := bits v 53 48
  let k := s.partn p
  if s.faults.seen.contains id then s
  else
    let s1 := (s.seeAbort id).floodAbort (some l) m
    if k.live && k.job = bits v 111 80 && k.kgen % 256 = bits v 119 112 then
      ((((s1.partFaultNotes p 0xA006).abortReset p).note 10 2 0xA006 (some p) 0 (bits v 47 0) k.job)).bump 0x6000 7
    else s1

/-! ## The wait-for graph (R482 to R487) -/

/-- A waiting queue: number, context, partition, the device address of its fence word, the wait value. -/
structure Waiter where
  q : Nat
  ctx : Nat
  part : Nat
  word : Nat
  value : Nat
  deriving DecidableEq, Repr

/-- The queues whose head command waits on a fence. -/
def State.waiters (s : State) : List Waiter :=
  s.queues.filterMap fun kv => match kv.2.accepted with
    | some id =>
      let c := s.cmd id
      if c.waitPassed then none else some ⟨kv.1, c.ctx, c.part, c.fenceLine, c.qb + hWaitDelta c.desc⟩
    | none => none

/-- Does a context have a fence slot that names a word of its partition. -/
def State.namesWord (s : State) (n part word : Nat) : Bool :=
  let c := s.ctx n
  c.part = part && c.slots.any fun kv => match s.objUse n (kv.2 % 2 ^ 32) (kv.2 / 2 ^ 32) 8 false 0 with | .ok dev => dev = word | .error _ => false

/-- Does a queue hold descriptors or commands that have not completed. -/
def State.holdsWork (s : State) (q : Nat) : Bool := (s.queue q).tail ≠ (s.queue q).head || s.cmds.any fun kv => kv.2.q = q

/-- The queues that a fence node leads to. -/
def State.holders (s : State) (w : Waiter) : List Nat :=
  (s.queues.filter fun kv => s.holdsWork kv.1 && (match s.ownerOf kv.1 with | some n => s.namesWord n w.part w.word | none => false)).map (·.1)

/-- Is a queue's completion ring full (R384). -/
def Queue.ringFull (k : Queue) : Bool := k.accepted.isSome && decide (2 ^ k.clog ≤ (k.ctail + 2 ^ 32 - k.chead) % 2 ^ 32 + k.reserved)

/-- The last progress of a node; a node under reset progresses throughout (R483). -/
def State.lastOf (s : State) (kind id : Nat) (resetting : Bool) : Nat := if resetting then s.loc else tblGet s.faults.last (nodeKey kind id) 0

/-- Is a waiter's context or partition under reset. -/
def State.waiterResets (s : State) (w : Waiter) : Bool := (s.ctx w.ctx).state = 2 || (s.partn w.part).resetting

/-- Have the queue and the fence of a waiter both stood still for the dwell. -/
def State.waiterStale (s : State) (w : Waiter) : Bool :=
  let dwell := s.setting 0x6010 1 * 650
  decide (dwell ≤ s.loc - s.lastOf 1 w.q (s.waiterResets w)) && decide (dwell ≤ s.loc - s.lastOf 2 w.q (s.waiterResets w))

/-- Extend every path by one edge to a queue not visited. -/
def growPaths (edges : Nat → List Nat) (visited : List Nat) (paths : List (List Nat)) : List (List Nat) :=
  (paths.foldl (fun acc p =>
    (edges (p.headD 0)).foldl (fun acc y => if visited.contains y || acc.any (fun z => z.headD 0 = y) then acc else acc ++ [y :: p]) acc) [])

/-- The shortest cycle back to a queue, in order from it. -/
def findCycle (edges : Nat → List Nat) (target : Nat) : Nat → List Nat → List (List Nat) → Option (List Nat)
  | 0, _, _ => none
  | n + 1, visited, paths =>
    match paths.find? fun p => (edges (p.headD 0)).contains target with
    | some p => some p.reverse
    | none =>
      let next := growPaths edges visited paths
      if next.isEmpty then none else findCycle edges target n (visited ++ next.map (·.headD 0)) next

/-- The cycles among the stale waiters, each queue in one. -/
def State.cycles (s : State) (ws : List Waiter) : List (List Nat) :=
  let qs := ws.map (·.q)
  let edges := fun q => match ws.find? fun w => w.q = q with | some w => (s.holders w).filter qs.contains | none => []
  qs.foldl (fun acc q => if acc.any (fun c => c.contains q) then acc else match findCycle edges q (qs.length + 1) [q] [[q]] with
    | some c => acc ++ [c]
    | none => acc) []

/-- Does every path of a waiter end at a terminal (R486). -/
def State.endsAtTerminal (s : State) (ws : List Waiter) : Nat → Nat → Bool
  | 0, _ => false
  | n + 1, q => match ws.find? fun w => w.q = q with
    | none => (s.queue q).ringFull
    | some w => (s.holders w).all fun r => r ≠ q && s.endsAtTerminal ws n r

/-- Insert a waiter by its last progress, oldest first. -/
def State.insertOld (s : State) (w : Waiter) : List Waiter → List Waiter
  | [] => [w]
  | x :: xs => if s.lastOf 1 w.q false ≤ s.lastOf 1 x.q false then w :: x :: xs else x :: s.insertOld w xs

/-! ## Snapshots (R488 to R490) -/

/-- A snapshot entry (Table 20.8b). -/
def snapEntry (kind : Nat) (inCycle : Bool) (part id a b last : Nat) : Bytes :=
  leBytes 8 (kind + bn inCycle * 16 + part * 2 ^ 5 + id * 2 ^ 32) ++ leBytes 8 (a % 2 ^ 64) ++ leBytes 8 (b % 2 ^ 64) ++ leBytes 8 last

/-- The queue and fence entries of a waiter. -/
def State.snapWaiter (s : State) (inCycle : Bool) (w : Waiter) : List Bytes :=
  let k := s.queue w.q
  let line := match k.accepted with | some id => (s.watch.find? (fun (x : Nat × Nat) => x.1 = id)).map (fun (x : Nat × Nat) => x.2) | none => (none : Option Nat)
  let dom := s.memberField * 2 ^ 48 + line.getD 0 + (if line.isSome then w.word % 128 else 0)
  [snapEntry 1 inCycle w.part w.q (k.head + k.tail * 2 ^ 32) w.value (s.lastOf 1 w.q (s.waiterResets w)),
   snapEntry 2 inCycle w.part w.q dom (tblGet s.faults.fenceSeen w.q 0) (s.lastOf 2 w.q (s.waiterResets w))]

/-- The entries of the hardware nodes, in the order of R490 (Table 20.8c). -/
def State.snapUnits (s : State) : List Bytes :=
  let last := fun kind id => s.lastOf kind id false
  let four := fun (f : Nat → Nat) => f 0 + f 1 * 2 ^ 16 + f 2 * 2 ^ 32 + f 3 * 2 ^ 48
  let links := (List.range s.cfg.links).flatMap fun l =>
    let k := s.link l
    [snapEntry 3 false 0 l (four fun v => tblGet k.credits v (vcReserve v)) (k.shared + k.opc * 2 ^ 16 + k.queued * 2 ^ 32) (last 3 l),
     snapEntry 4 false 0 l (four fun v => tblGet k.occupied v 0) k.vc0Held (last 4 l)]
  let chips := (List.range s.cfg.chipPorts).map fun c =>
    let k := s.chip c
    snapEntry 5 false 0 c (k.credits + k.opsHeld * 2 ^ 16) (tblGet k.fs.txq 0 []).length (last 5 c)
  let hosts := (List.range s.cfg.hostPorts).map fun h => snapEntry 7 false 0 h (s.host h).dma.length 0 (last 7 h)
  let mems := (List.range s.cfg.memPorts).map fun m =>
    let p := s.port m
    snapEntry 6 false 0 m p.tags.length (dedup (p.waiting.map (·.line))).length (last 6 m)
  let eng := fun id on queued => snapEntry 8 false 0 id on queued (last 8 id)
  let engines := ((List.range s.cfg.aus).map fun a => eng a 0 (tblGet s.auQueue a []).length) ++
    ((List.range s.cfg.samplers).map fun n => eng (0x100 + n) 0 (bn (tblFind s.samplerCmd n).isSome)) ++
    ((List.range s.cfg.chipPorts).map fun c =>
      let k := s.chip c
      eng (0x200 + c) (if (tblGet k.fs.txq 0 []).isEmpty then 0 else nodeKey 5 c) (k.deliveries.length + k.streams.length + k.queuedStreams.length)) ++
    [eng 0x300 0 s.rslots.length, eng 0x400 0 (s.cmds.filter fun kv => kv.2.phase = 0).length]
  links ++ chips ++ hosts ++ mems ++ engines

/-- The bytes of a snapshot: header (Table 20.8a) and at most 65,534 entries. -/
def State.snapBytes (s : State) (cause : Nat) (cycles : List (List Nat)) : Bytes :=
  let ws := s.waiters
  let on := cycles.flatten
  let first := on.flatMap fun q => match ws.find? fun w => w.q = q with | some w => s.snapWaiter true w | none => []
  let full := (s.queues.filter fun kv => kv.2.ringFull && !(ws.any fun w => w.q = kv.1)).map fun kv =>
    snapEntry 1 false (match s.ownerOf kv.1 with | some n => (s.ctx n).part | none => 0) kv.1 (kv.2.head + kv.2.tail * 2 ^ 32) 0 (s.lastOf 1 kv.1 false)
  let rest := (ws.filter fun w => !on.contains w.q).flatMap (s.snapWaiter false) ++ full
  let es := first ++ rest ++ s.snapUnits
  let n := min es.length 65534
  leBytes 64 (0x0201 + cause * 2 ^ 16 + s.memberField * 2 ^ 32 + 2 * (cycles.headD []).length * 2 ^ 48 + n * 2 ^ 64 + bn (decide (65534 < es.length)) * 2 ^ 96 +
    bn s.bring.member * 2 ^ 97 + s.loc * 2 ^ 128 + s.faults.snapSeq % 2 ^ 32 * 2 ^ 192) ++ (es.take n).flatten

/-- The region that a region setting names, where it is a live system region: port, region (Tables 20.10, 22.7). -/
def State.systemRegion (s : State) (v : Nat) : Option (Nat × Region) :=
  let m := v % 8
  match tblFind (s.port m).regions (v / 256) with
  | some g => if v ≠ 0 && decide (m < s.cfg.memPorts) && g.kind = 3 && (g.state = 2 || g.state = 3) then some (m, g) else none
  | none => none

/-- Write bytes to a system region line by line, in the writer class (R429). -/
def State.writerStore (s : State) (m base part : Nat) (b : Bytes) (reply : ReplyTo) : State :=
  (chunks 128 b).zipIdx.foldl (fun s x =>
    s.lineAccept m ⟨base + 128 * x.2, .store (padTo 128 x.1), part, 10, localContender 10, reply, 0, false, 0⟩) s

/-- Mirror a snapshot to the trace as chunks of 104 bytes (R516). -/
def State.traceSnapshot (s : State) (b : Bytes) : State :=
  if s.setting 0x6220 3 = 1 then
    (chunks 104 b).zipIdx.foldl (fun s x =>
      s.tracePut (traceWords s 10 8 0 none 0 ((s.faults.snapSeq % 2 ^ 32 + x.2 % 2 ^ 16 * 2 ^ 32) :: (chunks 8 (padTo 104 x.1)).map leNat))) s
  else s

/-- Write a snapshot; answers its sequence, or none where no region takes it (R488). -/
def State.snapshot (s : State) (cause : Nat) (cycles : List (List Nat)) : Option Nat × State :=
  let b := s.snapBytes cause cycles
  match s.systemRegion (s.setting 0x6020 1) with
  | none => (none, (s.error 8 0 none 0xA005 0).traceSnapshot b)
  | some (m, g) =>
    let slots := g.pages * 2 ^ 14 / 2 ^ 21
    if slots = 0 then (none, (s.error 8 0 none 0xA005 0).traceSnapshot b)
    else
      let seq := s.faults.snapSeq
      let n := (chunks 128 b).length
      let s1 := (s.traceSnapshot b).modFaults fun f =>
        { f with snapSeq := f.snapSeq + 1, snapLeft := f.snapLeft + n, snaps := f.snaps ++ [{ seq := seq, loc := s.loc, bytes := b, left := n }] }
      (some seq, s1.writerStore m (g.base * 2 ^ 14 + seq % slots * 2 ^ 21) g.part b (.snapshot seq))

/-! ## Block faults (R478) -/

/-- The hold begins, or the reset is raised at once where the hold time is 0. -/
def State.beginHold (s : State) : State :=
  let s1 := (s.note 2 3 s.faults.errCode none 0 0 0).modFaults fun f => { f with phase := 3 }
  if s.setting 0x6010 2 = 0 then ({ s1 with bring := { s1.bring with rstReq := true } } : State).modFaults fun f => { f with phase := 4 } else s1

/-- Has an ACK covered every frame that carries an abort. -/
def State.abortsAcked (s : State) : Bool :=
  s.links.all fun kv => kv.2.state ≠ 4 || ((tblGet kv.2.fs.txq 2 []).isEmpty && decide (kv.2.fs.abortEnd ≤ kv.2.fs.acked))

/-- The steps of a block fault that need not wait (R478): after the snapshot the aborts, after their ACKs the hold. -/
def State.faultGo (s : State) : State :=
  let s1 := if s.faults.phase = 1 && s.faults.snapLeft = 0 then
      (s.liveParts.foldl (fun s p => s.sendAbort p s.faults.errCode) s).modFaults fun f => { f with phase := 2 } else s
  if s1.faults.phase = 2 && s1.abortsAcked then s1.beginHold else s1

/-- A block fault (R478): the first one quiesces the block; a later one is counted, and ends a hold at once. -/
def State.blockFault (s : State) (err : Nat) : State :=
  let s1 := s.modFaults fun f => { f with blockFaults := f.blockFaults + 1 }
  if s.faults.phase = 0 then
    let s2 := (s1.error 8 0 none err 0).modFaults fun f => { f with phase := 1, errCode := err }
    (if err = 0xA003 then s2 else (s2.snapshot err []).2).faultGo
  else if s.faults.phase = 3 then ({ s1 with bring := { s1.bring with rstReq := true } } : State).modFaults fun f => { f with phase := 4 }
  else s1

/-- A line of a snapshot has ended: the last one completes it, or it is abandoned with 0xA005 (R494). An abandoned snapshot waits
for no line. -/
def State.snapshotDone (s : State) (seq : Nat) (ok : Bool) : State :=
  match s.faults.snaps.find? fun x => x.seq = seq with
  | none => s
  | some x =>
    let done := !ok || x.left = 1
    let s1 := s.modFaults fun f =>
      { f with snapLeft := f.snapLeft - (if ok then 1 else x.left)
               snaps := f.snaps.filterMap fun z => if z.seq ≠ seq then some z else if done then none else some { z with left := z.left - 1 } }
    if !ok then (s1.error 8 0 none 0xA005 0).faultGo
    else if done then ((s1.modFaults fun f => { f with snap := x.bytes, snapAt := x.loc }).bump 0x6020 2).faultGo else s1

/-! ## The vigil's scan (R484 to R486) -/

/-- The scope of a cycle (R485): 1 context, 2 partition, 3 block. -/
def cycleScope (ws : List Waiter) (c : List Nat) : Nat :=
  let mine := ws.filter fun w => c.contains w.q
  if 1 < (dedup (mine.map (·.part))).length then 3 else if 1 < (dedup (mine.map (·.ctx))).length then 2 else 1

/-- Declare a hang with the response of its scope. -/
def State.declareHang (s : State) (ws : List Waiter) (c : List Nat) (others : List (List Nat)) : State :=
  let scope := cycleScope ws c
  let err := 0xA000 + scope
  let r := (s.bump 0x6000 4).snapshot err (c :: others)
  let w := (ws.find? fun w => w.q = c.headD 0)
  let part := w.map (·.part)
  let n := (w.map (·.ctx)).getD 0
  let s1 := r.2.note 4 scope err (if scope = 3 then none else part) (if scope = 1 then n else 0) (2 * c.length) (r.1.getD (2 ^ 64 - 1))
  if scope = 1 then
    let s2 := s1.ctxFault n err (c.headD 0) 0
    if s2.setting 0x6001 3 = 1 then s2.modCtx n fun c => { c with resetDue := true } else s2
  else if scope = 2 then s1.partFault (part.getD 0) err
  else s1.blockFault err

/-- Nodes that stand still with a wait on a terminal beyond the queues: transmit nodes short of credit, receive nodes with a message
that waits on a memory port or a transmit node, bridge lanes whose rows await the chiplet's buffer, memory ports and hosts that owe an
answer. -/
def State.terminalNodes (s : State) : List (Nat × Nat) :=
  ((List.range s.cfg.links).filter fun l => (s.link l).state = 4 && decide (0 < (s.link l).queued)).map (fun l => (3, l)) ++
  ((List.range s.cfg.chipPorts).filter fun c => (s.chip c).state = 4 && !(tblGet (s.chip c).fs.txq 0 []).isEmpty).map (fun c => (5, c)) ++
  ((List.range s.cfg.links).filter fun l => (s.link l).state = 4 && decide (0 < (s.link l).vc0Held)).map (fun l => (4, l)) ++
  ((List.range s.cfg.chipPorts).filter fun c => (s.chip c).state = 4 && !(s.chip c).rows.isEmpty).map (fun c => (8, 0x200 + c)) ++
  ((List.range s.cfg.memPorts).filter fun m => !(s.port m).tags.isEmpty).map (fun m => (6, m)) ++
  ((List.range s.cfg.hostPorts).filter fun h => !(s.host h).dma.isEmpty).map (fun h => (7, h))

/-- Notice one stalled node, once until it progresses (R486). -/
def State.noticeStall (s : State) (kind id last : Nat) : State :=
  let key := nodeKey kind id
  if decide (s.loc - last < s.setting 0x6010 1 * 650) || tblFind s.faults.stalled key = some last then s
  else (((s.modFaults fun f => { f with stalled := tblPut f.stalled key last }).bump 0x6000 5).error 8 0 none 0xA004 0).note 5 0 0xA004 none 0 key (s.loc - last)

/-- One scan of the vigil: the new cycles of the widest scope are declared, one where that scope is the block, the narrower ones are
recorded in the same snapshots (R494), and stalls are noticed. A cycle is declared once until one of its nodes progresses (DEDUCED, log
entry 79). -/
def State.vigilScan (s : State) : State :=
  let all := s.waiters
  let ws := if 8192 < all.length then (all.foldl (fun acc w => s.insertOld w acc) []).take 8192 else all
  let cs := s.cycles (ws.filter s.waiterStale)
  let fresh := cs.filter fun c => c.any fun q => tblFind s.faults.hung q ≠ some (s.lastOf 1 q false)
  let idle := ws.filter fun w => s.endsAtTerminal ws (ws.length + 1) w.q
  let full := (s.queues.filter fun kv => kv.2.ringFull && !(ws.any fun w => w.q = kv.1)).map (·.1)
  let s1 := idle.foldl (fun s w => (s.noticeStall 1 w.q (s.lastOf 1 w.q (s.waiterResets w))).noticeStall 2 w.q (s.lastOf 2 w.q (s.waiterResets w))) s
  let s2 := full.foldl (fun s q => s.noticeStall 1 q (s.lastOf 1 q false)) s1
  let s3 := s.terminalNodes.foldl (fun s x => s.noticeStall x.1 x.2 (s.lastOf x.1 x.2 false)) s2
  let top := (fresh.map (cycleScope ws)).foldl max 0
  let act := (fresh.filter fun c => cycleScope ws c = top).take (if top = 3 then 1 else fresh.length)
  let s4 := s3.modFaults fun f => { f with hung := act.flatten.foldl (fun t q => tblPut t q (s.lastOf 1 q false)) f.hung }
  act.foldl (fun s c => s.declareHang ws c (cs.filter (· ≠ c))) s4

end Sys2Proof.Machine
end

