-- ==== Sys2Proof/Machine/Accept.lean ====
section
/-! DEFINITION. Sys2Proof/Machine/Accept.lean: acceptance of descriptors, the start of commands, the writes of translation
tables, and the settling of outcomes (R377, R381 to R394, R403, R407). -/
namespace Sys2Proof.Machine

/-! ## Acceptance (Table 15.6) -/

/-- Fetch the next descriptor of an enabled queue (R377): only after the previous accepted command has started, and not
behind a FENCE_BASE that has yet to set QB (R380). -/
def State.fetchNext (s : State) (q : Nat) : State :=
  let k := s.queue q
  let based := k.started.any fun i => (s.cmd i).opcode = 2 && (s.cmd i).phase = 1
  match s.ownerOf q with
  | none => s
  | some n =>
    if k.state ≠ 1 || k.tail = k.head || k.accepted.isSome || k.fetching || based || (s.ctx n).state ≠ 1 then s
    else
      let dev := k.ring + 64 * (k.head % 2 ^ k.rlog)
      (s.modQueue q fun k => { k with fetching := true, fetched := none, probes := [], probing := [], probeFails := [] }).access
        { buf := bufQueues, part := (s.ctx n).part, ctx := some n, dev := dev / 128 * 128, acc := .load, cls := 12, source := srcQueue q,
          reply := .fetch q, ret := true }

/-- OBJ_FREE at acceptance (R389, R390): the generation increments, or the index retires; the commands accepted before it
in the object's scope are those it waits for. -/
def State.freeAccepted (s : State) (n id d : Nat) : State :=
  let i := hAt d 64 % 2 ^ 24
  let o := tblGet s.objs i {}
  let mine := fun (c : Cmd) => if o.shared then c.part = (s.ctx n).part else c.ctx = n
  let before := (s.cmds.filter fun kv => kv.1 < id && mine kv.2).map (·.1)
  let retire := decide (255 ≤ o.gen)
  let o1 : Obj := { o with gen := (o.gen + 1) % 256, live := false, retired := retire, pendingFree := true, freeCmd := id, quiesce := before }
  let s1 := ({ s with objs := tblPut s.objs i o1, objLive := s.objLive - 1 } : State).setCount 0x5010 3 (s.count 0x5010 3 + 1)
  if retire then s1.bump 0x5010 4 else s1

/-- A fetched descriptor becomes an accepted command: one that a check refused carries its outcome, makes no access and
starts no wait. The fence slots count as they are now: a later write of a slot does not reach the command (R374). -/
def State.accepted (s : State) (q n d : Nat) (bad : Option (Code × Nat)) (wait : Option (Nat × Nat)) (sigWord : Nat := 0) : State :=
  let k := s.queue q
  let id := s.cmdNext
  let pal := match outPort d with | some c => (s.chip c).palette | none => {}
  let c : Cmd := { q, ctx := n, part := (s.ctx n).part, desc := d, index := k.head, qb := k.qb, opcode := hOpcode d, palette := pal, objs := s.objsOf d,
                   waitPassed := wait.isNone, fenceLine := (wait.map (·.1)).getD 0, sigWord, fail := bad }
  let s0 : State := ({ s with cmds := tblPut s.cmds id c, cmdNext := id + 1 } : State).touch 1 q
  let s1 : State := if wait.isSome then ({ s0 with faults := { s0.faults with fenceSeen := tblDel s0.faults.fenceSeen q } } : State).touch 2 q else s0
  let s2 := (s1.modQueue q fun k =>
    { k with head := (k.head + 1) % 2 ^ 32, accepted := some id, fetching := false, fetched := none, probes := [], probing := [], probeFails := [] }).bump 0x5000 1
  let s3 := if bad = some (.counterEnd, 0x6008) then s2.ctxFault n 0x6008 q 0 else s2
  let s4 := if bad.isNone && hOpcode d = 0x11 then s3.freeAccepted n id d else s3
  match wait with
  | none => s4
  | some w =>
    let s5 : State := if s4.watch.length < 8192 then { s4 with watch := s4.watch ++ [(id, w.2)] } else s4
    (s5.modCmd id fun c => { c with watched := decide (s4.watch.length < 8192) }).readFence q

/-- Run the checks of Table 15.6 on a fetched descriptor, and the command's own; the fence words' translations are asked
for where row 5 needs them, by their pages as the fence slots name them now. -/
def State.acceptGo (s : State) (q : Nat) : State :=
  let k := s.queue q
  match k.fetched, s.ownerOf q with
  | some b, some n =>
    let d := leNat b
    let c := s.ctx n
    let refuse := fun (e : Code × Nat) => s.accepted q n d (some e) none
    if c.state ≠ 1 || k.state ≠ 1 || (s.partn c.part).revoked then refuse (.wrongState, 0x6004)
    else match s.headerCheck n k.qb d with
      | .error e => refuse e
      | .ok (w, g) =>
        let page := fun (a : Nat) => a / 2 ^ 21
        let entry := fun (a : Nat) => tblGet k.probes (page a) 0
        let asks := w.toList ++ g.toList
        match asks.findSome? fun a => tblFind k.probeFails (page a) with
        | some e => refuse e
        | none =>
          let todo := asks.filter fun a => (tblFind k.probes (page a)).isNone
          if !todo.isEmpty then
            todo.foldl (fun s a => if (s.queue q).probing.contains (page a) then s else
              (s.modQueue q fun k => { k with probing := k.probing ++ [page a] }).access
                { buf := bufQueues, part := c.part, ctx := some n, dev := a / 128 * 128, acc := .load, cls := 12, source := srcQueue q,
                  reply := .probe q (page a), ret := true, probe := true }) s
          else if asks.any fun a => bit (entry a) 1 then refuse (.access, 0x6002)
          else if w.any fun a => homeOf (entry a) ≠ s.memberField then refuse (.access, 0x600B)
          else match s.ownBad n d with
            | some e => (if e.1 = .format && s.formatsBad d e.2 then s.bump 0x2040 4 else s).accepted q n d (some e) none
            | none =>
              s.accepted q n d none (w.map fun a => (a, (entry a / 2 ^ 21 * 2 ^ 21 + a % 2 ^ 21) % 2 ^ 48 / 128 * 128)) (g.getD 0)
  | _, _ => s

/-- A descriptor fetch has ended (R398): a failed one sends the queue to error. -/
def State.fetchDone (s : State) (q : Nat) (r : Result) : State :=
  let k := s.queue q
  if !k.fetching then s
  else if r.code ≠ .ok then s.queueError q 0x6007 true
  else
    let off := (k.ring + 64 * (k.head % 2 ^ k.rlog)) % 128
    (s.modQueue q fun k => { k with fetched := some ((r.data.drop off).take 64) }).acceptGo q

/-- The translation entry of a fence word has come (Table 15.6 row 5). -/
def State.probeDone (s : State) (q i : Nat) (r : Result) : State :=
  if !(s.queue q).fetching then s
  else (s.modQueue q fun k =>
    { k with probing := k.probing.filter (· ≠ i),
             probes := if r.code = .ok then tblPut k.probes i (leNat r.data) else k.probes,
             probeFails := if r.code = .ok then k.probeFails else tblPut k.probeFails i (r.code, r.err) }).acceptGo q

/-! ## The start of a command (R377, R384, R132, R286) -/

/-- May the command that a queue holds start now: an invalidation only when the stores of every earlier command of its queue have
completed, those of its signals and completion records among them (R286). -/
def State.mayStart (s : State) (q id : Nat) : Bool :=
  let k := s.queue q
  let c := s.cmd id
  let earlier := fun (f : Cmd → Bool) => s.cmds.any fun kv => kv.2.q = q && kv.1 < id && f kv.2
  c.phase = 0 && c.waitPassed && !(hBarrier c.desc && earlier fun _ => true) && !(earlier fun x => x.opcode = 0x22 && x.phase < 2) &&
  !(c.opcode = 0x27 && (!k.records.isEmpty || earlier fun x => x.phase < 2 || x.sig = 1)) &&
  decide ((k.ctail + 2 ^ 32 - k.chead) % 2 ^ 32 + k.reserved < 2 ^ k.clog)

/-- Start the command that a queue holds: a record entry is reserved, and a command that a check refused or whose fence
read failed ends at once. -/
def State.startCmd (s : State) (q : Nat) : State :=
  match (s.queue q).accepted with
  | none => s
  | some id =>
    if !s.mayStart q id then s
    else
      let s1 := (s.modCmd id fun c => { c with phase := 1, reserved := true }).modQueue q fun k =>
        { k with accepted := none, reserved := k.reserved + 1, started := k.started ++ [id] }
      let c := s1.cmd id
      let s2 := ({ s1 with watch := s1.watch.filter fun w => w.1 ≠ id } : State).trace 2 8 0 (some c.part) 0 (cmdTrace c)
      match c.fail with
      | some (code, e) => s2.finishCmd id code e 0
      | none => s2

/-- A command whose work is all issued ends when its writes, frames and acknowledgements are in (R122); a failed one ends with its last
write's acknowledgement, which an append holds the commands behind it for (R132), and which an invalidation behind it waits for
(R286). Stage 99 marks all work issued. -/
def State.cmdCheck (s : State) (id : Nat) : State :=
  let c := s.cmd id
  if c.phase ≠ 1 then s
  else match c.fail with
    | some (code, e) => if 0 < c.writes then s else s.finishCmd id code e c.detail
    | none => if c.stage = 99 && c.writes = 0 && c.pendingFrames = 0 && c.acksDue = 0 then s.finishCmd id .ok 0 c.detail else s

/-- Mark all of a command's work issued. -/
def State.cmdIssued (s : State) (id : Nat) : State := (s.modCmd id fun c => { c with stage := 99 }).cmdCheck id

/-! ## Translation tables (R403, R407) -/

/-- Write one line of a translation table for the security controller, in the region that the record names and in no other (R402). -/
def State.tableWrite (s : State) (p off : Nat) (acc : Access) (map : Bool) : State :=
  let m := (s.transOf p).port
  match s.tableRegion p with
  | none => (s.error 0 m (some p) 0x100B off).reply (.table p map) .access 0x100B []
  | some g => s.lineAccept m ⟨g.base * 2 ^ 14 + off, acc, p, 11, localContender 11, .table p map, 0, false, 0⟩

/-- Zero the next line of a table (R403). -/
def State.zeroNext (s : State) (p : Nat) : State :=
  let t := s.transOf p
  if t.zeroing && t.outstanding = 0 && t.cursor < 32 * t.dsize then
    (s.modTrans p fun t => { t with cursor := t.cursor + 1, outstanding := 1 }).tableWrite p (128 * t.cursor) (.store (List.replicate 128 0#8)) false
  else s

/-- Fields of the map request (Table 16.3). -/
def mapPart (r : Nat) : Nat := bits r 5 0
@[inherit_doc mapPart] def mapOp (r : Nat) : Nat := bits r 7 6
@[inherit_doc mapPart] def mapCount (r : Nat) : Nat := bits r 15 8 + 1
@[inherit_doc mapPart] def mapFirst (r : Nat) : Nat := bits r 42 16
@[inherit_doc mapPart] def mapEntry (r : Nat) : Nat := bits r 127 64

/-- Entry `i` of a map request: PAGE increases by one page each, and reserved bits are zero; an unmap writes zero. -/
def mapEntryAt (r i : Nat) : Nat :=
  if mapOp r = 2 then 0 else mapEntry r % 2 ^ 6 + (mapEntry r / 2 ^ 21 + i) % 2 ^ 43 * 2 ^ 21

/-- Entries that the next table-line write carries: to the end of the line or of the request. -/
def mapRun (r done : Nat) : Nat := min (mapCount r - done) (16 - (mapFirst r + done) % 16)

/-- Drop the first `n` pages of a request (R407). -/
def State.mapDrop (s : State) (r n : Nat) : State := (List.range n).foldl (fun s i => s.dropTlb (mapPart r) (some (mapFirst r + i))) s

/-- Walks of the pages whose table line is about to be written read before the write: they are repeated (R414). The table's reads and
writes come from one contender, so a walk admitted later reads after it. -/
def State.walksAgain (s : State) (p first n : Nat) : State :=
  { s with walks := s.walks.map fun w => if w.part = p && decide (first ≤ w.page ∧ w.page < first + n) && w.issued then { w with again := true } else w }

/-- Issue the next table-line write of the running map request, or drop its pages once all is written. -/
def State.mapNext (s : State) : State :=
  let j := s.mapJob
  let r := j.record
  if j.status ≠ 1 || j.outstanding || j.waiting then s
  else if mapCount r ≤ j.written then ({ s with mapJob := { j with waiting := true } } : State).mapDrop r j.written
  else
    let k := mapRun r j.written
    let off := 8 * (mapFirst r + j.written)
    let body := ((List.range k).map fun i => leBytes 8 (mapEntryAt r (j.written + i))).flatten
    (({ s with mapJob := { j with outstanding := true } } : State).walksAgain (mapPart r) (mapFirst r + j.written) k).tableWrite (mapPart r) (off / 128 * 128)
      (normalAccess (.partialStore ((2 ^ (8 * k) - 1) * 2 ^ (off % 128)) (padTo 128 (List.replicate (off % 128) 0#8 ++ body)))) true

/-- A table-line write has ended: zeroing goes on or stops (R403); the map request goes on, or stops at the line (R407). -/
def State.tableDone (s : State) (p : Nat) (map : Bool) (r : Result) : State :=
  if !map then
    if r.code = .ok then (s.modTrans p fun t => { t with outstanding := 0 }).zeroNext p
    else s.modTrans p fun t => { t with outstanding := 0, zeroing := false, zeroFailed := true, enable := false }
  else if s.mapJob.outstanding then
    let j := s.mapJob
    if r.code = .ok then ({ s with mapJob := { j with outstanding := false, written := j.written + mapRun j.record j.written } } : State).mapNext
    else ({ s with mapJob := { j with outstanding := false, status := 3 } } : State).mapDrop j.record j.written
  else s

/-! ## Outcomes -/

/-- The answer to a message of another member (R278, Table 10.3): READ_DATA, ATOMIC_DATA or COMPLETION. -/
def State.answerMsg (s : State) (src otag part : Nat) (ret : Bool) (r : Result) : Msg :=
  let m := s.completionMsg src otag part r.code r.err
  if r.code ≠ .ok then m
  else if r.data.length = 128 then { m with mtype := 0x10, addr := 0, body := r.data }
  else if ret && !r.data.isEmpty then { m with mtype := 0x12, addr := 0, body := padTo 16 r.data }
  else m

/-- The answer to a chiplet's request (Table 12.5). -/
def chipAnswer (otag : Nat) (ret : Bool) (r : Result) : ChipMsg :=
  if r.code ≠ .ok then { mtype := 0x11, otag, code := codeNum r.code, err := r.err }
  else if r.data.length = 128 then { mtype := 0x10, otag, body := r.data }
  else if ret && !r.data.isEmpty then { mtype := 0x12, otag, body := padTo 16 r.data }
  else { mtype := 0x11, otag }

/-- A line of a harvest record has been acknowledged (R512): those of a record that a newer one replaced count for nothing; the
last one ends the record, which is held in the ring or lost. -/
def State.harvestDone (s : State) (q : Nat) (ok : Bool) : State :=
  let r := s.records
  if r.writing = 0 || q + 1 ≠ r.seq then s
  else
    let bad := r.writeBad || !ok
    if 1 < r.writing then { s with records := { r with writing := r.writing - 1, writeBad := bad } }
    else if bad then ({ s with records := { r with writing := 0, writeBad := false, missed := min 65535 (r.missed + 1) } } : State).bump 0x6210 5
    else ({ s with records := { r with writing := 0, missed := 0, ring := tblPut r.ring r.slot r.latest } } : State).bump 0x6210 3

/-- A command's context fault for the first of its requests that fails its translation (R412). -/
def State.cmdFault (s : State) (id : Nat) (r : Result) : State :=
  let c := s.cmd id
  if c.fail.isNone && r.code ≠ .ok && decide (r.err / 0x1000 = 7) then s.ctxFault c.ctx r.err c.q 0 else s

/-- Does a line lie in a KV page of a step's shards. -/
def Cmd.kvLine (c : Cmd) (a : Nat) : Bool :=
  c.opcode = 0x21 && c.shards.any fun h => h.pages.any fun p => decide (p.base ≤ a ∧ a < p.base + kvPageSize (aKv c.desc) (aD c.desc))

/-- The device addresses of a merge command's sets, once its list is at hand. -/
def Cmd.setBases (c : Cmd) : List Nat :=
  (List.range (mSets c.desc)).map fun i => leNat (c.bytes (c.objDev 64 (oAt c.desc 64) + 8 * i) 8)

/-- Note the sets of a merge command that are at hand, in the order they arrived (R181). -/
def Cmd.setsIn (c : Cmd) : Cmd :=
  if c.opcode ≠ 0x26 || !c.has (c.objDev 64 (oAt c.desc 64)) (8 * mSets c.desc) then c
  else { c with setOrder := c.setOrder ++ (List.range (mSets c.desc)).filter fun i =>
          !c.setOrder.contains i && c.has (c.setBases.getD i 0) (mRecs c.desc * partialSize (mD c.desc)) }

/-- The engines that a command runs on, by their numbers in Table 20.8c. -/
def State.enginesOf (s : State) (id : Nat) : List Nat :=
  let c := s.cmd id
  if c.opcode = 0x21 then (c.shards.filter fun h => h.started && !h.finished).map (·.au)
  else if c.opcode = 0x22 then c.au.toList
  else if c.opcode = 0x23 then (s.samplerCmd.filter fun kv => kv.2 = id).map fun kv => 0x100 + kv.1
  else if c.opcode = 0x24 then [0x200 + bits c.desc 179 177]
  else if c.opcode = 0x25 || c.opcode = 0x26 then [0x300]
  else [0x400]

/-- A transfer of a command's engine has ended: progress of that engine (R483). -/
def State.touchEngines (s : State) (id : Nat) : State := (s.enginesOf id).foldl (fun s e => s.touch 8 e) s

/-- Give an outcome to whoever waits for it. A KV line of a step's shards is counted as it arrives (0x2100.02, R140). -/
def State.deliver (s : State) (waiter : ReplyTo) (r : Result) : State :=
  match waiter with
  | .cmdLine id a =>
    if (tblFind s.cmds id).isNone then s
    else (((if r.code = .ok && (s.cmd id).kvLine a then s.bumpBy 0x2100 2 128 else s).touchEngines id).cmdFault id r).modCmd id fun c =>
      let c1 := { c with asked := c.asked.filter (· ≠ a) }
      if r.code = .ok then { c1 with got := tblPut c.got a r.data }.setsIn else { c1 with fail := some (c.fail.getD (r.code, r.err)) }
  | .cmdWrite id =>
    if (tblFind s.cmds id).isNone then s
    else (((s.touchEngines id).cmdFault id r).modCmd id fun c =>
      { c with writes := c.writes - 1, fail := if r.code = .ok then c.fail else some (c.fail.getD (r.code, r.err)) }).cmdCheck id
  | .walk p page n => { s with walks := s.walks.map fun w => if w.part = p && w.page = page && w.issued && w.read = n then { w with line := some r } else w }
  | .fetch q => s.fetchDone q r
  | .probe q i => s.probeDone q i r
  | .record q => s.recordDone q r
  | .fence q => s.fenceRead q r
  | .signal id => s.signalDone id r
  | .link l sess src otag part ret units => (s.freeHeld l sess 0 units 1).sendToward none (s.answerMsg src otag part ret r)
  | .chip c sess otag ret units =>
    if (s.chip c).sess = sess then (s.freeChip c units).sendChip c (chipAnswer otag ret r) else s
  | .otag k => s.otagDone k r
  | .combine e => s.answerEntry e r
  | .sweep _ => s
  | .table p map => s.tableDone p map r
  | .scrub m => s.modPort m fun p => { p with scrub := p.scrub.map fun j => { j with outstanding := j.outstanding - 1 } }
  | .snapshot q => s.snapshotDone q (r.code = .ok)
  | .harvest q => s.harvestDone q (r.code = .ok)
  | .trace => s
  | .none => s

/-- Deliver outcomes until none is due, at most as many as the fuel; what is due past it is dropped (DESIGN CHOICE, log
entry 4: no command comes near it). -/
def settleOn : Nat → State → State
  | 0, s => { s with due := [] }
  | n + 1, s => match s.due with
    | [] => s
    | x :: rest => settleOn n (({ s with due := rest } : State).deliver x.1 x.2)

/-- Deliver every outcome that is due, with those that follow from it. -/
def State.settle (s : State) : State := settleOn 1000000 s

/-- The outcome of a command that completes with its outcomes delivered. -/
def doneS (s : State) : Host.Outcome State Fault Refusal := .next s.settle

/-- A step of an engine or a queue: nothing while the block is held in reset or quiesced (R478). -/
def State.work (s : State) (f : State → State) : Host.Outcome State Fault Refusal := doneS (s.whenRunning f)

/-- A step of an arithmetic unit. -/
def State.compute (s : State) (f : State → State) : Host.Outcome State Fault Refusal := s.work fun s => s.whenComputing f

/-- A request from outside for an engine or a queue. -/
def State.asked (s : State) (f : State → State) : Host.Outcome State Fault Refusal := doneS (s.whenAsked f)

/-- A command that the configuration has a unit for: one that names an absent unit stops (R15). -/
def withUnit (present : Bool) (o : Host.Outcome State Fault Refusal) : Host.Outcome State Fault Refusal :=
  if present then o else .fault .absentUnit

end Sys2Proof.Machine
end

