-- ==== Sys2Proof/Machine/Engines.lean ====
section
/-! DEFINITION. Sys2Proof/Machine/Engines.lean: what the engines share: the pages behind a command's operands, random
bytes, deliveries through a bridge lane, and the placement of KV pages on AUs (R120, R123, R163, R164, R306). -/
namespace Sys2Proof.Machine

/-! ## The pages behind a command's operands -/

/-- Where a page entry asked for by a command is kept among its operands. -/
def pageKey (page : Nat) : Nat := 2 ^ 60 + page

/-- Pages that a range of device addresses touches. -/
def pagesOf (dev len : Nat) : List Nat := if len = 0 then [] else (List.range ((dev + len - 1) / 2 ^ 21 + 1 - dev / 2 ^ 21)).map fun i => dev / 2 ^ 21 + i

/-- Ask for the translation of a page, without an access. -/
def State.cmdProbe (s : State) (id cls buf page : Nat) : State :=
  let c := s.cmd id
  let a := pageKey page
  if (tblFind c.got a).isSome || c.asked.contains a then s
  else (s.modCmd id fun c => { c with asked := c.asked ++ [a] }).access
    { buf, part := c.part, ctx := some c.ctx, dev := page * 2 ^ 21, acc := .load, cls, source := srcCmd id, reply := .cmdLine id a, ret := true, probe := true }

/-- The entry of a page that a command holds. -/
def Cmd.entry (c : Cmd) (page : Nat) : Option Nat := (tblFind c.got (pageKey page)).map leNat

/-- The domain address behind a device address whose page entry a command holds. -/
def Cmd.domain (c : Cmd) (dev : Nat) : Option Nat := (c.entry (dev / 2 ^ 21)).map fun e => e / 2 ^ 21 * 2 ^ 21 + dev % 2 ^ 21

/-- The memory port and the line-space address behind a local domain address; none for another member's or a host page. -/
def State.localAt (s : State) (entry dom : Nat) : Option (Nat × Nat) :=
  if bit entry 1 || homeOf dom ≠ s.memberField then none else some (dom % 2 ^ 48 / 2 ^ 43, dom % 2 ^ 43)

/-- Bytes of an extent of a port in live regions of a partition that serve a class (R196). -/
def State.servedBytes (s : State) (m lo len part cls : Nat) (write : Bool) : Nat :=
  (((s.port m).regions.filter fun g => g.2.part = part && (g.2.state = 2 || g.2.state = 3) && classServed g.2.kind (s.slot g.2.slot).use cls write false).map fun g =>
    min (lo + len) ((g.2.base + g.2.pages) * 2 ^ 14) - max lo (g.2.base * 2 ^ 14)).foldl (· + ·) 0

/-- The live region that holds a whole extent of a port. -/
def State.regionOver (s : State) (m lo len : Nat) : Option Region :=
  ((s.port m).regions.find? fun g => (g.2.state = 2 || g.2.state = 3) && decide (g.2.base * 2 ^ 14 ≤ lo ∧ lo + len ≤ (g.2.base + g.2.pages) * 2 ^ 14)).map (·.2)

/-- Ask for the entries of the pages of several ranges. -/
def State.probeRanges (s : State) (id cls buf : Nat) (rs : List (Nat × Nat)) : State :=
  (dedup (rs.flatMap fun r => pagesOf r.1 r.2)).foldl (fun s p => s.cmdProbe id cls buf p) s

/-- Has a command the entries of the pages of several ranges. -/
def Cmd.hasPages (c : Cmd) (rs : List (Nat × Nat)) : Bool := rs.all fun r => (pagesOf r.1 r.2).all fun p => (c.entry p).isSome

/-- The pieces of a range in its pages: the page entry, the piece's length, and the port and address it lies at where it is local. -/
def State.piecesOf (s : State) (c : Cmd) (r : Nat × Nat) : List (Nat × Nat × Option (Nat × Nat)) :=
  (pagesOf r.1 r.2).map fun p =>
    let e := (c.entry p).getD 0
    let first := max r.1 (p * 2 ^ 21)
    (e, min (r.1 + r.2) (p * 2 ^ 21 + 2 ^ 21) - first, s.localAt e (e / 2 ^ 21 * 2 ^ 21 + first % 2 ^ 21))

/-- Do the pieces of several ranges all pass a test. -/
def State.pagesPass (s : State) (c : Cmd) (rs : List (Nat × Nat)) (f : Nat × Nat × Option (Nat × Nat) → Bool) : Bool :=
  rs.all fun r => (s.piecesOf c r).all f

/-- May an engine class of a partition access a piece (R160, R167, R189): the rights of its page entry, and on this hub a region of the
partition that serves the class, which no KV, sampler input or system region does where Table 8.4 keeps the class out (R26). -/
def State.pieceMay (s : State) (part cls : Nat) (write : Bool) (x : Nat × Nat × Option (Nat × Nat)) : Bool :=
  bit x.1 (if write then 3 else 2) && (match x.2.2 with
    | some (m, a) => s.servedBytes m a x.2.1 part cls write = x.2.1
    | none => true)

/-- The sampler input region of a partition, of this hub, that holds a whole piece. -/
def State.samplerAt (s : State) (part : Nat) (x : Nat × Nat × Option (Nat × Nat)) : Option (Nat × Nat) :=
  match x.2.2 with
  | some (m, a) => ((s.regionOver m a x.2.1).filter fun g => g.kind = 2 && g.part = part).map fun g => (m, g.base)
  | none => none

/-- Does a range lie wholly in one sampler input region of this hub (R144). -/
def State.inSampler (s : State) (c : Cmd) (r : Nat × Nat) : Bool :=
  match (s.piecesOf c r).map (s.samplerAt c.part) with
  | [] => true
  | x :: xs => x.isSome && xs.all (· = x)

/-! ## Random bytes -/

/-- Bytes for stochastic rounding of `n` elements from a unit's DRBG instance (R93): none needed, drawn, or the DRBGs are
stopped (R343). -/
def State.stochastic (s : State) (child : Nat) (on : Bool) (n : Nat) : Option (Option Bytes × State) :=
  if !on then some (none, s) else (s.drawBytes child n).map fun r => (some r.1, r.2)

/-! ## Deliveries (R164, R306) -/

/-- Convert FP32 results for a chiplet through its lane (R163): bytes in RESULT_FMT; conversions are counted. -/
def State.laneConvert (s : State) (c : Nat) (p : Palette) (vs : List (BitVec 32)) : Option (Bytes × State) :=
  match s.stochastic (drbgLane c) (p.round = 1) vs.length with
  | none => none
  | some (rs, s1) =>
    let r := convertRow 0 p.result vs.length p.sat rs (vs.flatMap fun v => leBytes 4 v.toNat) []
    some (r.1, ((if p.result = 0 then s1 else s1.bumpBy 0x2220 (c + 1) vs.length).countStats r.2.2))

/-- The DELIVER messages of a run of bytes from an offset on, one line of data each, padded to whole units. -/
def deliverMsgs (tag off : Nat) (b : Bytes) : List ChipMsg :=
  (chunks 128 b).zipIdx.map fun x =>
    { mtype := 0x18, addr := tag % 2 ^ 32 + (off + 128 * x.2) % 2 ^ 32 * 2 ^ 32, body := padTo ((x.1.length + 15) / 16 * 16) x.1 }

/-- Queue a delivery of a command at a chiplet port's lane; the command waits for the transmission of its last message. A
port that is no longer bound to its partition ends the command with ACCESS (R295). -/
def State.deliverBytes (s : State) (id c tag off : Nat) (b : Bytes) (last : Bool) : State :=
  let m := s.cmd id
  if s.portBad m.part c then s.modCmd id fun x => { x with fail := some (x.fail.getD (.access, 0x3010)) }
  else
    let ms := deliverMsgs tag off b
    let items := ms.zipIdx.map fun x => (⟨id, m.part, x.1, last && decide (x.2 + 1 = ms.length)⟩ : LaneItem)
    (s.modChip c fun k => { k with deliveries := k.deliveries ++ items }).modCmd id fun x => { x with pendingFrames := x.pendingFrames + (if last then 1 else 0) }

/-! ## The log-sum-exp merge (R181) -/

/-- An accumulator of nothing. -/
def softZero (dim : Nat) : Soft := ⟨f32NegInf, 0, List.replicate dim 0⟩

/-- Equality of two FP32 values. -/
def f32Eq (a b : BitVec 32) : Bool := Fp.le (f32 a) (f32 b) && Fp.le (f32 b) (f32 a) && !(f32 a).isNan && !(f32 b).isNan

/-- Merge one record (mi, li, oi), oi normalised, into an accumulator. -/
def mergeRecord (a : Soft) (mi li : BitVec 32) (oi : List (BitVec 32)) : Soft :=
  let mn := f32Max a.m mi
  if mn = f32NegInf then a
  else
    let c := f32Exp (f32Sub a.m mn)
    let b := f32Mul li (f32Exp (f32Sub mi mn))
    ⟨mn, f32Add (f32Mul a.l c) b, (a.o.zip oi).map fun x => f32Add (f32Mul x.1 c) (f32Mul b x.2)⟩

/-- u ÷ l, zeros where l is 0. -/
def normalise (a : Soft) : List (BitVec 32) := if a.l = 0 || a.l = 0x80000000 then a.o.map fun _ => 0 else a.o.map fun x => f32Div x a.l

/-- Does a finished record hold a NaN. -/
def hasNan (a : Soft) : Bool := (f32 a.m).isNan || (f32 a.l).isNan || (normalise a).any fun x => (f32 x).isNan

/-- A partial record of an accumulator (R121). -/
def partialBytes (a : Soft) : Bytes :=
  padTo (partialSize a.o.length) (leBytes 4 a.m.toNat ++ leBytes 4 a.l.toNat ++ (normalise a).flatMap fun x => leBytes 4 x.toNat)

/-- A partial record read back: m, l and o. -/
def partialOf (dim : Nat) (b : Bytes) : Soft :=
  let w := fun i => BitVec.ofNat 32 (leNat ((b.drop (4 * i)).take 4))
  ⟨w 0, w 1, (List.range dim).map fun i => w (i + 2)⟩

/-- Deliver finished records to a chiplet (R120): elements in RESULT_FMT, m and l, KV_HEAD, padded to units. -/
def State.deliverRecords (s : State) (id c tag head : Nat) (as : List Soft) : State :=
  let pal := (s.cmd id).palette
  let r := as.foldl (fun (acc : Option (Bytes × State)) a =>
    match acc with
    | none => none
    | some (b, s) => (s.laneConvert c pal (normalise a)).map fun x =>
      let rec_ := x.1 ++ leBytes 4 a.m.toNat ++ leBytes 4 a.l.toNat ++ leBytes 1 head
      (b ++ padTo ((rec_.length + 15) / 16 * 16) rec_, x.2)) (some ([], s))
  match r with
  | none => s.modCmd id fun x => { x with fail := some (.resource, 0x8008) }
  | some (b, s1) => s1.deliverBytes id c tag 0 b true

/-! ## Placement (R123) -/

/-- AUs of a memory port's group that a partition owns and that are not leaving it (R137). -/
def State.ownGroup (s : State) (p m : Nat) : List Nat :=
  let k := s.cfg.aus / s.cfg.memPorts
  ((List.range k).map fun i => k * m + i).filter fun a => tblGet s.auOwner a 0xFF = p && bit (s.partn p).auMask a

/-- Pages queued on an AU: those of shards not finished. -/
def State.auPages (s : State) (au : Nat) : Nat :=
  (s.cmds.map fun kv => ((kv.2.shards.filter fun h => h.au = au && !h.finished).map fun h => h.pages.length).foldl (· + ·) 0).foldl (· + ·) 0

/-- Ring distance of two groups. -/
def State.ringDist (s : State) (a b : Nat) : Nat :=
  let d := if a ≤ b then b - a else a - b
  min d (s.cfg.memPorts - d)

/-- The AU that takes a page of home port `m`, and whether it is outside the home group. `load` counts the pages queued. -/
def State.placeOn (s : State) (p m : Nat) (load : Nat → Nat) : Option (Nat × Bool) :=
  let groups := (List.range s.cfg.memPorts).filter fun g => !(s.ownGroup p g).isEmpty
  match argMin (fun g => s.ringDist m g * 64 + g) groups with
  | none => none
  | some g => (argMin (fun a => load a * 64 + a) (s.ownGroup p g)).map fun a => (a, decide (g ≠ m))

/-- Does a KV page pass R112: local, wholly within one port, in one KV region. -/
def State.kvPagePort (s : State) (c : Cmd) (base size : Nat) : Option Nat :=
  match c.domain base, c.domain (base + size - 1) with
  | some a, some b =>
    let e := (c.entry (base / 2 ^ 21)).getD 0
    let f := (c.entry ((base + size - 1) / 2 ^ 21)).getD 0
    match s.localAt e a, s.localAt f b with
    | some (m, x), some (n, y) =>
      if m = n && y = x + size - 1 && ((s.regionOver m x size).map (·.kind)) = some 1 then some m else none
    | _, _ => none
  | _, _ => none

end Sys2Proof.Machine
end

