-- ==== Sys2Proof/Machine/Attention.lean ====
section
/-! DEFINITION. Sys2Proof/Machine/Attention.lean: attention steps, their shards on the AUs, and KV appends (chapter 5). -/
namespace Sys2Proof.Machine

/-- End a command with a failure: at once where it has started and none of its writes is outstanding, at its start or with its last
write's acknowledgement otherwise (R126, R132, R135). -/
def State.cmdFail (s : State) (id : Nat) (code : Code) (err : Nat) : State :=
  let c := s.cmd id
  if c.phase = 1 && c.writes = 0 then s.finishCmd id code err c.detail else s.modCmd id fun c => { c with fail := some (c.fail.getD (code, err)) }

/-! ## The arithmetic of a tile (R109, R117, R118) -/

/-- One element of a K or V row: its exact element value, the YB4 multiplier in eighths, the power-of-two scale. -/
structure KvElem where
  v : Fp
  u : Nat
  sc : Fp

/-- The elements of one row of a KV page. -/
def kvElems (f dim : Nat) (data md : Bytes) : List KvElem :=
  let x := fmtOf f
  (unpack x.bits dim data).zipIdx.map fun e =>
    let b := e.2 / 32
    let m := (md.drop (x.metaBytes * b)).take x.metaBytes
    let u := if f = 15 then yb4Eighths (((m.getD 1 0#8).toNat >>> (2 * (e.2 % 32 / 8))) % 4) else 8
    ⟨elemValue x e.1, u, scaleValue (m.headD 0#8).toNat⟩

/-- A YB4 multiplier as FP32. -/
def mult32 (u : Nat) : BitVec 32 := toF32 (.fin false u 8)

/-- Exact products summed in FP32, in the order that the manual leaves open (R109). -/
def sum32 (key : Nat) (ps : List Fp) : BitVec 32 := (sumOrderOf key ps.length).foldl (fun a i => f32Acc a (ps.getD i fp0)) 0

/-- The contribution of one 32-element block to a score: its sum, with its scale applied (R109). -/
def blockDot (key f : Nat) (q : List Fp) (k : List KvElem) : Fp :=
  let sc := (k.head?.map (·.sc)).getD fp1
  if f = 15 then
    let subs := (pieces 8 4 (q.zip k)).map fun xs =>
      f32Mul (sum32 key (xs.map fun x => x.1.mul x.2.v)) (mult32 ((xs.head?.map (·.2.u)).getD 8))
    (f32 (subs.foldl (fun a x => f32Add a x) 0)).mul sc
  else (f32 (sum32 key ((q.zip k).map fun x => x.1.mul x.2.v))).mul sc

/-- The score of a query vector and a K row: block sums added in FP32, then SM_SCALE. The order in which block sums enter the
score, and the four sub-block sums a YB4 block's, is ascending (DESIGN CHOICE, log entry 95: R109 gives none). -/
def scoreOf (key f : Nat) (sm : BitVec 32) (q : List Fp) (k : List KvElem) : BitVec 32 :=
  f32Mul sm (((pieces 32 8 q).zip (pieces 32 8 k)).foldl (fun a x => f32Acc a (blockDot key f x.1 x.2)) 0)

/-- The exact product of a probability and a V element, with the row's scale applied. -/
def vTerm (f : Nat) (p : Fp) (v : KvElem) : Fp :=
  let x := p.mul v.v
  (if f = 15 then f32 (f32Mul (toF32 x) (mult32 v.u)) else x).mul v.sc

/-- Quantise the probabilities of a tile (R118): BF16 each, or one YB4 block with invalid tokens as +0; the decoded values
and the NaN blocks counted. -/
def quantise (yb4 : Bool) (ps : List (BitVec 32)) : List Fp × Stats :=
  if yb4 then
    let padded := (ps.map f32) ++ List.replicate (32 - ps.length) fp0
    let e := encodeBlock 15 true (padded.map fun v => (v, none))
    ((decodeBlock 15 e.2.1 e.1).take ps.length, e.2.2)
  else (ps.map fun p => decodeFloat fmtBf16 (encodeFloat fmtBf16 false none (f32 p)).1, {})

/-- One tile of the online softmax for one pair (R117): the valid tokens' K and V rows. Each p[t] is added to l × c in turn
(DESIGN CHOICE, log entry 95: the manual does not say whether their sum is formed first). -/
def tileStep (key f : Nat) (yb4 : Bool) (sm : BitVec 32) (q : List Fp) (rows : List (List KvElem × List KvElem)) (a : Soft) : Soft × Stats :=
  let ss := rows.map fun r => scoreOf key f sm q r.1
  let mn := ss.foldl f32Max a.m
  if mn = f32NegInf then (a, {})
  else
    let c := if f32Eq a.m mn then f32One else f32Exp (f32Sub a.m mn)
    let p := quantise yb4 (ss.map fun x => f32Exp (f32Sub x mn))
    let order := sumOrderOf key rows.length
    let l := order.foldl (fun l i => f32Acc l (p.1.getD i fp0)) (f32Mul a.l c)
    let o := a.o.zipIdx.map fun x =>
      order.foldl (fun o i => match (rows.getD i ([], [])).2[x.2]? with
        | some v => f32Acc o (vTerm f (p.1.getD i fp0) v)
        | none => o) (f32Mul x.1 c)
    (⟨mn, l, o⟩, p.2)

/-- The tiles of one page for one pair. -/
def pageStep (key f : Nat) (yb4 : Bool) (sm : BitVec 32) (q : List Fp) (rows : List (List KvElem × List KvElem)) (a : Soft) : Soft × Stats :=
  ((pieces 32 4 rows).zipIdx).foldl (fun acc t =>
    let r := tileStep (key * 8 + t.2) f yb4 sm q t.1 acc.1
    (r.1, acc.2.plus r.2)) (a, {})

/-! ## Operands of an attention step -/

/-- The ranges of a page that hold bytes of valid tokens (R111). -/
def kvRanges (f dim : Nat) (pg : KvPage) : List (Nat × Nat) :=
  let e := 128 * kvRow f dim
  let m := 128 * kvMeta f dim
  let n := pg.tokens
  [(pg.base, n * kvRow f dim), (pg.base + e, n * kvMeta f dim), (pg.base + e + m, n * kvRow f dim), (pg.base + 2 * e + m, n * kvMeta f dim)]

/-- K and V rows of a page's valid tokens. -/
def Cmd.kvRows (c : Cmd) (f dim : Nat) (pg : KvPage) : List (List KvElem × List KvElem) :=
  let r := kvRow f dim
  let m := kvMeta f dim
  let e := 128 * r
  let mt := 128 * m
  (List.range pg.tokens).map fun t =>
    (kvElems f dim (c.bytes (pg.base + t * r) r) (c.bytes (pg.base + e + t * m) m),
     kvElems f dim (c.bytes (pg.base + e + mt + t * r) r) (c.bytes (pg.base + 2 * e + mt + t * m) m))

/-- The device range of a step's query block, and the vector of a pair. -/
def Cmd.queryRange (c : Cmd) : Nat × Nat := (c.objDev 64 (oAt c.desc 64), aB c.desc * aG c.desc * aD c.desc * aQb c.desc)

@[inherit_doc Cmd.queryRange] def Cmd.queryVec (c : Cmd) (i : Nat) : List Fp :=
  let w := aD c.desc * aQb c.desc
  decodeRow (aQf c.desc) (aD c.desc) (c.bytes (c.queryRange.1 + i * w) w) []

/-- The page list of a step whose lines are at hand: member, entry. -/
def Cmd.pageList (c : Cmd) (dev : Nat) : List (Nat × Nat) :=
  let b := aB c.desc
  let counts := (List.range b).map fun i => leNat (c.bytes (dev + 4 * i) 4)
  let start := dev + (4 * b + 7) / 8 * 8
  let members := (counts.zipIdx.map fun x => List.replicate x.1 x.2).flatten
  members.zipIdx.map fun x => (x.1, leNat (c.bytes (start + 8 * x.2) 8))

/-- Total pages of a step by its segment table. -/
def Cmd.pageTotal (c : Cmd) (dev : Nat) : Nat := ((List.range (aB c.desc)).map fun i => leNat (c.bytes (dev + 4 * i) 4)).foldl (· + ·) 0

/-- The KV pages that a page list names. -/
def kvPagesOf (l : List (Nat × Nat)) : List KvPage :=
  l.zipIdx.map fun x => { member := x.1.1, base := bits x.1.2 47 7 * 128, tokens := bits x.1.2 6 0 + 1, idx := x.2 }

/-! ## Stages: page list, translation, placement -/

/-- Place the pages of a step on AUs in page list order (R123): the shards, each page marked where it left its home group. -/
def State.placePages (s : State) (c : Cmd) (pages : List KvPage) : Option (List Shard) :=
  let size := kvPageSize (aKv c.desc) (aD c.desc)
  pages.foldl (fun acc pg =>
    match acc with
    | none => none
    | some hs =>
      let load := fun a => s.auPages a + ((hs.filter fun h => h.au = a).map fun h => h.pages.length).foldl (· + ·) 0
      match s.kvPagePort c pg.base size with
      | none => none
      | some m => match s.placeOn c.part m load with
        | none => none
        | some (a, away) =>
          let pg1 : KvPage := { pg with away := away }
          some (if hs.any fun h => h.au = a then hs.map fun h => if h.au = a then { h with pages := h.pages ++ [pg1] } else h
            else hs ++ [⟨a, [pg1], false, [], false, false⟩])) (some [])

/-- A command's place in a queue in acceptance order: commands are numbered as they are accepted. -/
def queueIn (id : Nat) (q : List Nat) : List Nat :=
  if q.contains id then q else q.filter (· < id) ++ [id] ++ q.filter (id < ·)

/-- Put a command into the queues of the AUs that hold its shards, in acceptance order (R125). -/
def State.joinAus (s : State) (id : Nat) (hs : List Shard) : State :=
  hs.foldl (fun s h => { s with auQueue := tblMod s.auQueue h.au (queueIn id) [] }) s

/-- Add a shard's pages to those a command has: they join its shard on that AU, or form one with nothing accumulated where it has none
there, or one that is merged already (R124). -/
def joinShard (fresh : List Soft) (l : List Shard) (h : Shard) : List Shard :=
  if l.any fun x => x.au = h.au && !x.merged then l.map fun x => if x.au = h.au && !x.merged then { x with pages := x.pages ++ h.pages, finished := false } else x
  else l ++ [{ h with soft := fresh }]

/-- Give a step its shards. -/
def State.shardsIn (s : State) (id : Nat) (hs : List Shard) : State :=
  let fresh := List.replicate (aB (s.cmd id).desc * aG (s.cmd id).desc) (softZero (aD (s.cmd id).desc))
  (s.modCmd id fun c => { c with stage := 3, shards := hs.foldl (joinShard fresh) c.shards }).joinAus id hs

/-- Advance a step up to its placement (R115, R123, R126, R135): each stage asks for what it lacks and goes on when it is at
hand. Stages: 0 segment table, 1 page entries, 2 translation and placement, 3 placed. A check that needs the page list comes after those
that need no access (DEDUCED, log entry 95: a command refused at any row makes no access). -/
def State.attnPrepare (s : State) (id : Nat) : State :=
  let c := s.cmd id
  let d := c.desc
  let dev := c.objDev 128 (oAt d 128)
  let seg := (4 * aB d + 7) / 8 * 8
  if !c.has dev seg then s.cmdLoadRange id 12 bufQueues dev seg
  else
    let total := c.pageTotal dev
    if 65536 < total then s.cmdFail id .format 0x5101
    else if c.objShort 128 (oAt d 128) (seg + 8 * total) then s.cmdFail id .access 0x5102
    else if !c.has dev (seg + 8 * total) then s.cmdLoadRange id 12 bufQueues dev (seg + 8 * total)
    else
      let l := c.pageList dev
      let pages := kvPagesOf l
      let size := kvPageSize (aKv d) (aD d)
      let ranges := pages.map fun p => (p.base, size)
      if !c.hasPages ranges then s.probeRanges id 0 bufQueues ranges
      else if pages.any fun p => (s.kvPagePort c p.base size).isNone then s.cmdFail id .access 0x5102
      else if (s.ctx c.ctx).scratch < aFoot d then s.cmdFail id .resource 0x5103
      else if (List.range s.cfg.memPorts).all fun m => (s.ownGroup c.part m).isEmpty then s.cmdFail id .resource 0x5104
      else match s.placePages c pages with
        | none => s.cmdFail id .resource 0x5104
        | some hs =>
          (s.modCmd id fun c => { c with total := List.replicate (aB d * aG d) (softZero (aD d)) }).shardsIn id hs

/-! ## Shards on an AU (R125, R127, R128) -/

/-- Scratch units of a context that other commands hold on an AU. -/
def State.scratchUsed (s : State) (au id : Nat) : Nat :=
  (s.cmds.map fun kv => if kv.1 ≠ id && kv.2.ctx = (s.cmd id).ctx && (kv.2.shards.any fun h => h.au = au && h.started) then aFoot kv.2.desc else 0).foldl (· + ·) 0

/-- May a command's shard run on an AU: started, its scratch free. -/
def State.shardReady (s : State) (au id : Nat) : Bool :=
  let c := s.cmd id
  c.phase = 1 && c.stage = 3 && c.fail.isNone && (c.shards.any fun h => h.au = au && !h.finished) &&
  decide (s.scratchUsed au id + aFoot c.desc ≤ (s.ctx c.ctx).scratch)

/-- Is a step of a command's context that started before it still to be placed: its shards come first (R125). -/
def State.unplaced (s : State) (id : Nat) : Bool :=
  s.cmds.any fun kv => decide (kv.1 < id) && kv.2.ctx = (s.cmd id).ctx && kv.2.opcode = 0x21 && kv.2.phase = 1 && kv.2.fail.isNone && decide (kv.2.stage < 3)

/-- The command whose slice an AU runs next: of each context the first in acceptance order among those that have started (DEDUCED, log
entry 95: a step that waits for a fence holds no other up), whether or not its scratch is free (R127), and in a shared partition the
next context in round robin whose first is ready. -/
def State.auPick (s : State) (au : Nat) : Option Nat :=
  let q := (tblGet s.auQueue au []).filter fun id => (s.cmd id).phase = 1
  let may := fun (id : Nat) => s.shardReady au id && !s.unplaced id
  let p := tblGet s.auOwner au 0xFF
  if (s.partn p).mode = 1 then q.head?.filter may
  else
    let ready := ((dedup (q.map fun id => (s.cmd id).ctx)).filterMap fun n => q.find? fun id => (s.cmd id).ctx = n).filter may
    match nextRound (tblGet s.auLastCtx au 0) (ready.map fun id => (s.cmd id).ctx) with
    | none => none
    | some n => ready.find? fun id => (s.cmd id).ctx = n

/-- Put a shard in the place of another; a finished one goes behind those that finished before it (R124). -/
def replaceShard (old new : Shard) (l : List Shard) : List Shard :=
  if new.finished then l.erase old ++ [new]
  else match l with
    | [] => []
    | x :: xs => if x = old then new :: xs else x :: replaceShard old new xs

/-- Run pages of a command's shard: their lines and the query block are asked for, and once at hand the softmax runs over
them (R117). Pages served outside their home group are counted here (R123). -/
def State.runShard (s : State) (au id : Nat) (n : Nat) : State :=
  let c := s.cmd id
  let d := c.desc
  match c.shards.find? fun h => h.au = au && !h.finished with
  | none => s
  | some h =>
    let f := aKv d
    let dim := aD d
    let pages := h.pages.take n
    let q := c.queryRange
    let ranges := q :: pages.flatMap (kvRanges f dim)
    let begun : Shard := { h with started := true }
    let s0 := s.modCmd id fun c => { c with shards := replaceShard h begun c.shards }
    if !(ranges.all fun r => c.has r.1 r.2) then ranges.foldl (fun s r => s.cmdLoadRange id 0 au r.1 r.2) s0
    else
      let key := s0.freeCount
      let sm := BitVec.ofNat 32 (bits d 287 256)
      let g := aG d
      let step := fun (acc : List Soft × Stats) (pg : KvPage × Nat) =>
        let rows := c.kvRows f dim pg.1
        let r := acc.1.zipIdx.map fun a =>
          if a.2 / g = pg.1.member then pageStep ((key * 65536 + pg.2) * 1024 + a.2) f (aYb4 d) sm (c.queryVec a.2) rows a.1 else (a.1, {})
        (r.map (·.1), acc.2.plus (sumStats (r.map (·.2))))
      let res := (pages.zipIdx).foldl step (h.soft, {})
      let rest := h.pages.drop n
      let h1 : Shard := { h with pages := rest, started := true, soft := res.1, finished := rest.isEmpty }
      let keep := linesOf q.1 q.2
      let lines := pages.flatMap fun p => (kvRanges f dim p).flatMap fun r => linesOf r.1 r.2
      let s1 : State := ({ s0 with freeCount := s0.freeCount + 1, auLastCtx := tblPut s0.auLastCtx au c.ctx } : State).modCmd id fun c =>
        { c with shards := replaceShard begun h1 c.shards,
                 got := c.got.filter fun kv => keep.contains kv.1 || !lines.contains kv.1 }
      let s2 := ((s1.bumpBy 0x2100 6 (pages.filter (·.away)).length).bumpBy 0x6204 (au + 1) (Config.laneCycles s0.freeCount)).countStats { nanBlocks := res.2.nanBlocks }
      if !((s2.cmd id).shards.any fun h => h.au = au && !h.finished) then { s2 with auQueue := tblMod s2.auQueue au (·.filter (· ≠ id)) [] } else s2

/-- Run the next slice of an AU (R128): a whole shard in an exclusive partition. -/
def State.auSlice (s : State) (au : Nat) : State :=
  match s.auPick au with
  | none => s
  | some id => s.runShard au id (if (s.partn (s.cmd id).part).mode = 1 then 65536 else s.setting 0x2120 1)

/-- The KV lines of a step's shard on an AU, in page order. -/
def Cmd.shardLines (c : Cmd) (au : Nat) : List Nat :=
  ((c.shards.find? fun h => h.au = au).map fun h =>
    h.pages.flatMap fun p => (kvRanges (aKv c.desc) (aD c.desc) p).flatMap fun r => linesOf r.1 r.2).getD []

/-- Lines of an AU's tile buffer that waiting steps other than one hold or have asked for (R126). -/
def State.tileUsed (s : State) (au id : Nat) : Nat :=
  ((s.cmds.filter fun kv => kv.1 ≠ id && kv.2.phase = 0 && kv.2.opcode = 0x21).map fun kv =>
    ((kv.2.shardLines au).filter fun a => (tblFind kv.2.got a).isSome || kv.2.asked.contains a).length).foldl (· + ·) 0

/-- The lines an AU banks for a waiting step (R126): the first of its shard, as far as the 64 KB of the tile buffer go. -/
def State.prefetch (s : State) (id : Nat) : State :=
  let c := s.cmd id
  c.shards.foldl (fun s h => ((c.shardLines h.au).take (512 - s.tileUsed h.au id)).foldl (fun s a => s.cmdLoad id 0 h.au a) s) s

/-! ## The merge of shards and the result (R119 to R122, R124) -/

/-- Deliver or write a finished result. -/
def State.attnFinish (s : State) (id : Nat) : State :=
  let c := s.cmd id
  let d := c.desc
  let s1 := s.bumpBy 0x2100 5 (c.total.filter hasNan).length
  let s2 := if aMode d = 0 then s1.deliverRecords id (aPort d) (hAt d 192) (bits d 343 336) c.total
    else
      let out := c.objDev 192 (oAt d 192)
      let au := (c.shards.head?.map (·.au)).getD bufQueues
      c.total.zipIdx.foldl (fun s a => s.cmdWriteBytes id 0 au (out + a.2 * partialSize (aD d)) (partialBytes a.1)) s1
  s2.cmdIssued id

/-- Merge the finished shard that waits longest; after the last the result goes out. -/
def State.shardMerge (s : State) (id : Nat) : State :=
  let c := s.cmd id
  if c.phase ≠ 1 || c.stage ≠ 3 || c.fail.isSome then s
  else
    let s1 := match c.shards.find? fun h => h.finished && !h.merged with
      | none => s
      | some h =>
        let total := if c.shards.length = 1 then h.soft else (c.total.zip h.soft).map fun (x : Soft × Soft) => mergeRecord x.1 x.2.m x.2.l (normalise x.2)
        let mark := fun (x : Shard) => if x = h then ({ x with merged := true, soft := [] } : Shard) else x
        s.modCmd id fun c => { c with total := total, shards := c.shards.map mark }
    let c1 := s1.cmd id
    if c1.shards.all fun h => h.finished && h.merged then s1.attnFinish id else s1

/-- May a step act before its wait passes (R126): its header names a wait, PREFETCH is 1 and permitted, and no append before it
in its queue holds it (R132). -/
def State.mayPrefetch (s : State) (id : Nat) : Bool :=
  let c := s.cmd id
  c.phase = 0 && hWaitEn c.desc && !c.waitPassed && aPrefetch c.desc && s.setting 0x2120 2 = 1 &&
  !(s.cmds.any fun kv => kv.2.q = c.q && kv.1 < id && kv.2.opcode = 0x22 && kv.2.phase < 2)

/-- ATTENTION_STEP (R113 to R128): advance a step by what is at hand. Before its wait passes it acts only under PREFETCH. -/
def State.attentionStep (s : State) (id : Nat) : State :=
  let c := s.cmd id
  let early := s.mayPrefetch id
  if (tblFind s.cmds id).isNone || c.opcode ≠ 0x21 || c.phase = 2 then s
  else if c.phase = 1 && c.fail.isSome then s.cmdCheck id
  else if (c.phase = 0 && (!early || c.fail.isSome)) || c.stage = 99 then s
  else
    let s1 := if c.stage = 3 then s else s.attnPrepare id
    let c1 := s1.cmd id
    if c1.stage ≠ 3 then s1
    else if c1.phase = 0 then s1.prefetch id
    else if c1.shards.isEmpty then s1.attnFinish id
    else (c1.shards.map (·.au)).foldl (fun s au => if s.auPick au = some id then s.auSlice au else s) s1

/-! ## KV append (R129 to R131) -/

/-- Write one token of an append: K row then V row, elements then metadata of each. -/
def State.appendToken (s : State) (id au t : Nat) (kv : (Bytes × Bytes) × (Bytes × Bytes)) : State :=
  let d := (s.cmd id).desc
  let f := kFmt d
  let dim := kD d
  let e := 128 * kvRow f dim
  let mt := 128 * kvMeta f dim
  let r := kFirst d + t
  let b := kPage d
  let s1 := (s.cmdWriteBytes id 0 au (b + r * kvRow f dim) kv.1.1).cmdWriteBytes id 0 au (b + e + r * kvMeta f dim) kv.1.2
  (s1.cmdWriteBytes id 0 au (b + e + mt + r * kvRow f dim) kv.2.1).cmdWriteBytes id 0 au (b + 2 * e + mt + r * kvMeta f dim) kv.2.2

/-- KV_APPEND: check the page, read the source, then encode and write token after token, the next one once the writes of
the one before are acknowledged; DETAIL holds the row of the token being written. A page served outside its home group is counted once
it has been written (R123). -/
def State.kvAppend (s : State) (id : Nat) : State :=
  let c := s.cmd id
  let d := c.desc
  let f := kFmt d
  let dim := kD d
  let size := kvPageSize f dim
  let n := kCount d
  let row := rowBytes (kSrc d) dim
  let src := c.objDev 64 (oAt d 64)
  if (tblFind s.cmds id).isNone || c.opcode ≠ 0x22 || c.phase ≠ 1 || c.stage = 99 then s
  else if c.fail.isSome then s.cmdCheck id
  else if 0 < c.writes then s
  else if !c.hasPages [(kPage d, size)] then s.probeRanges id 0 bufQueues [(kPage d, size)]
  else match s.kvPagePort c (kPage d) size with
    | none => s.cmdFail id .access 0x5102
    | some m =>
      if (s.ctx c.ctx).scratch = 0 then s.cmdFail id .resource 0x5103
      else match (match c.au with | some a => some (a, false) | none => s.placeOn c.part m s.auPages) with
        | none => s.cmdFail id .resource 0x5104
        | some (au, _) =>
          let away := decide (au / (s.cfg.aus / s.cfg.memPorts) ≠ m)
          if c.au.isNone || !c.has src (2 * n * row) then (s.modCmd id fun c => { c with au := some au }).cmdLoadRange id 0 au src (2 * n * row)
          else if n ≤ c.done then ((s.modCmd id fun c => { c with detail := 0 }).bumpBy 0x2100 6 (bn away)).cmdIssued id
          else match s.stochastic (drbgAu au) (bit d 232) (2 * dim) with
            | none => s.cmdFail id .resource 0x8008
            | some (rs, s1) =>
              let t := c.done
              let enc := fun (off : Nat) (r : Option Bytes) =>
                convertRow (kSrc d) f dim (bit d 233) r (c.bytes (src + off) row) []
              let k := enc (t * row) (rs.map (·.take dim))
              let v := enc ((n + t) * row) (rs.map (·.drop dim))
              ((s1.countStats (k.2.2.plus v.2.2)).modCmd id fun c => { c with done := t + 1, detail := kFirst d + t }).appendToken id au t
                ((k.1, k.2.1), (v.1, v.2.1))

/-- ATTENTION_STEP. -/
def execAttentionStep (cmd : Nat) (s : State) : Host.Outcome State Fault Refusal := s.compute fun s => s.attentionStep cmd

/-- SLICE_BOUNDARY (R128): the AU takes its next slice. -/
def execSliceBoundary (au : Nat) (s : State) : Host.Outcome State Fault Refusal :=
  withUnit (decide (au < s.cfg.aus)) (s.compute fun s => s.auSlice au)

/-- SHARD_MERGE (R124). -/
def execShardMerge (cmd : Nat) (s : State) : Host.Outcome State Fault Refusal := s.compute fun s => s.shardMerge cmd

/-- KV_APPEND (R130). -/
def execKvAppend (cmd : Nat) (s : State) : Host.Outcome State Fault Refusal := s.compute fun s => s.kvAppend cmd

end Sys2Proof.Machine
end

