-- ==== Sys2Proof/Machine/Sampler.lean ====
section
/-! DEFINITION. Sys2Proof/Machine/Sampler.lean: sample commands and the sampler pool (R141 to R161). -/
namespace Sys2Proof.Machine

/-- A logit as FP32 (R88). -/
def logit32 (f x : Nat) : BitVec 32 :=
  if f = 0 then BitVec.ofNat 32 x else toF32 (decodeFloat (if f = 1 then fmtF16 else fmtBf16) x)

/-- Steps 1 to 4 of Table 6.2 for one logit: the score, and whether step 1 changed it. -/
def scoreStep (d : Nat) (inMap : Bool) (x : BitVec 32) : BitVec 32 × Bool :=
  let bad := (f32 x).isNan || x = 0x7F800000
  let x1 : BitVec 32 := if (f32 x).isNan then f32NegInf else if x = 0x7F800000 then 0x7F7FFFFF else x
  let rep := BitVec.ofNat 32 (bits d 319 288)
  let x2 := if inMap then (if Fp.lt fp0 (f32 x1) then f32Div x1 rep else f32Mul x1 rep) else x1
  let x3 := if inMap then f32Sub x2 (BitVec.ofNat 32 (bits d 351 320)) else x2
  let x4 := if sGreedy d then x3 else f32Mul x3 (BitVec.ofNat 32 (bits d 287 256))
  (if !sGreedy d && x4 = 0x80000000 then 0 else x4, bad)

/-- Put a scored token in its place among the best `k`: descending score, ties in ascending ID, as tokens come (R148). -/
def insertTop (x : Scored) : List Scored → List Scored
  | [] => [x]
  | y :: ys => if Fp.lt (f32 y.2) (f32 x.2) then x :: y :: ys else y :: insertTop x ys

/-- Scored tokens in the order of R149, at most `k` of them. -/
def candidates (k : Nat) (xs : List Scored) : List Scored := xs.foldl (fun acc x => (insertTop x acc).take k) []

/-- Prefix sums in order (R149). -/
def prefixSums (ws : List (BitVec 32)) : List (BitVec 32) := (ws.foldl (fun a w => (a.1 ++ [f32Add a.2 w], f32Add a.2 w)) ([], 0)).1

/-- The radix key of a score. -/
def radixKey (x : BitVec 32) : Nat := if x.msb then (~~~x).toNat else x.toNat + 2 ^ 31

/-- Running maximum and sum over every finite token (R151). -/
def runningSum (xs : List Scored) : BitVec 32 × BitVec 32 :=
  xs.foldl (fun a x =>
    if Fp.lt (f32 a.1) (f32 x.2) then (x.2, f32Add (f32Mul a.2 (f32Exp (f32Sub a.1 x.2))) f32One)
    else (a.1, f32Add a.2 (f32Exp (f32Sub x.2 a.1)))) (f32NegInf, 0)

/-! ## The two passes over the sampler buffer (R153) -/

/-- The tokens of the buffer with finite scores, in token order: the others are excluded (R146; an FP32 overflow in step 4 to an
infinity is no finite score). -/
def Sampler.finite (u : Sampler) : List Scored := (u.scores.zipIdx.filter fun x => !(f32 x.1).special).map fun x => (x.2, x.1)

/-- Count keys into a bank. -/
def histogram (ks : List Nat) : Tbl Nat := ks.foldl (fun t k => tblPut t k (tblGet t k 0 + 1)) []

/-- The bin, scanned from the highest down, that holds the `k`-th key. -/
def scanBins : List (Nat × Nat) → Nat → Nat
  | [], _ => 0
  | (b, n) :: rest, k => if k ≤ n then b else scanBins rest (k - n)

/-- Pass 1, the ingest: each score goes to the buffer, bank A counts the finite keys by their upper halves, and the running
maximum and sum are kept (R151). -/
def Sampler.ingest (u : Sampler) (scores : List (BitVec 32)) : Sampler :=
  let v := { u with scores := scores }
  let ms := runningSum v.finite
  { v with bankA := histogram (v.finite.map fun x => radixKey x.2 / 2 ^ 16), bankB := [], ties := [], cands := [], top := ms.1, sum := ms.2 }

/-- The tokens of the bin that bank A finds for the `k`-th key. -/
def Sampler.inBin (u : Sampler) (k : Nat) : List Scored :=
  u.finite.filter fun x => radixKey x.2 / 2 ^ 16 = scanBins u.bankA.reverse k

/-- Pass 2, the select: keys above the bin of the `k`-th are candidates, those in it are counted in bank B and copied to the tie
buffer; the scan of bank B finds τ, and the tie buffer, or the gather pass where it overflowed, completes the set (R148). The
scans leave both banks clear. -/
def Sampler.select (u : Sampler) (k : Nat) : Sampler :=
  let low := fun (x : Scored) => radixKey x.2 % 2 ^ 16
  let above := u.finite.filter fun x => scanBins u.bankA.reverse k < radixKey x.2 / 2 ^ 16
  let held := u.inBin k
  let need := k - above.length
  let tau := scanBins (histogram (held.map low)).reverse need
  let ties := held.take 4096
  let pool := if 4096 < held.length then held else ties
  let more := pool.filter fun x => tau < low x
  { u with bankA := [], ties := ties, cands := above ++ more ++ (pool.filter fun x => low x = tau).take (need - more.length) }

/-- u times a weight, rounded once (R150). -/
def drawPoint (r : Nat) (w : BitVec 32) : BitVec 32 := toF32 ((Fp.fin false r (2 ^ 64)).mul (f32 w))

/-- The natural logarithm of p for a value the unit computes exactly (R152); where p is not a positive finite number the
manual states no value, and the unit answers its own. -/
def logOf (key : Nat) (v : Fp) (extra : Fp) : BitVec 32 :=
  match v, extra with
  | .fin false n m, .fin neg a b =>
    if n = 0 then Config.lnF32 key 1
    else
      let e : Int := (a * 2 ^ 160 / b : Nat)
      f32Log key 0 ((if neg then -e else e) + lnFixed n m)
  | _, _ => Config.lnF32 key 1

/-- What the steps of Table 6.2 gave: the chosen token, its log-probability, the flags and the survivor count. -/
structure Drawn where
  token : Nat
  logp : BitVec 32
  capped : Bool
  spill : Bool
  survivors : Nat

/-- Does a sample command run in full-distribution mode, where it is not greedy (R147). -/
def sFull (d : Nat) : Bool := sTopK d = 0 && bits d 383 352 = 0x3F800000 && (bits d 415 384) % 2 ^ 31 = 0

/-- The candidate count K (R148). -/
def sCount (d finite : Nat) : Nat := min (if sTopK d = 0 then 1024 else sTopK d) finite

/-- Steps 5 to 9 and the log-probability (R147 to R153) over what a sampler ingested, with the drawn number. -/
def chooseToken (d r : Nat) (u : Sampler) : Drawn :=
  let xs := u.finite
  let ms := (u.top, u.sum)
  let zOf := fun (t : Nat) => ((xs.find? fun x => x.1 = t).map (·.2)).getD 0
  let kind0 := fun (t : Nat) =>
    let z := zOf t
    let inv := (Fp.fin false 1 1).div (f32 ms.2)
    logOf (z.toNat * 2 ^ 64 + ms.1.toNat * 2 ^ 32 + ms.2.toNat) inv ((f32 z).add (f32 ms.1).neg)
  let kind := bit d 471
  if sGreedy d then
    let c := (candidates 1 xs).head?.map (·.1) |>.getD 0
    ⟨c, if kind then 0 else kind0 c, false, false, 0⟩
  else if sFull d then
    let t := drawPoint r ms.2
    let run := xs.foldl (fun (a : Option Nat × BitVec 32 × Nat) x =>
      let s := f32Add a.2.1 (f32Exp (f32Sub x.2 ms.1))
      (if a.1.isSome then a.1 else if Fp.lt (f32 t) (f32 s) then some x.1 else none, s, x.1)) (none, 0, 0)
    let c := run.1.getD run.2.2
    ⟨c, kind0 c, false, false, 0⟩
  else
    let k := sCount d xs.length
    let cs := candidates k (u.select k).cands
    let zmax := (cs.head?.map (·.2)).getD 0
    let ws := cs.map fun x => f32Exp (f32Sub x.2 zmax)
    let pre := prefixSums ws
    let total := pre.getLastD 0
    let lim := f32Mul (BitVec.ofNat 32 (bits d 383 352)) total
    let n := ((pre.zipIdx.find? fun w => Fp.le (f32 lim) (f32 w.1) && !(f32 w.1).isNan && !(f32 lim).isNan).map (·.2 + 1)).getD k
    let minP := fieldF d 415 384
    let n2 := max 1 ((ws.take n).filter fun w => Fp.le minP (f32 w) && !(f32 w).isNan).length
    let wn := pre.getD (n2 - 1) 0
    let t := drawPoint r wn
    let pick := (((pre.take n2).zipIdx.find? fun w => Fp.lt (f32 t) (f32 w.1)).map (·.2)).getD (n2 - 1)
    let c := (cs.getD pick (0, 0)).1
    let wc := ws.getD pick 0
    ⟨c, if kind then logOf (2 ^ 96 + wc.toNat * 2 ^ 32 + wn.toNat) ((f32 wc).div (f32 wn)) fp0 else kind0 c,
      sTopK d = 0 && decide (1024 < xs.length), decide (4096 < (u.inBin k).length), n2⟩

/-- The token record (Table 6.5). -/
def tokenRecord (d : Nat) (w : Drawn) : Bytes :=
  let lp := bit d 470
  leBytes 16 (w.token % 2 ^ 32 + (if lp then w.logp.toNat else 0) * 2 ^ 32 + bn lp * 2 ^ 64 + bn (sGreedy d) * 2 ^ 65 + bn w.capped * 2 ^ 66 +
    bn w.spill * 2 ^ 67 + w.survivors % 2 ^ 11 * 2 ^ 72 + bits d 511 480 * 2 ^ 96)

/-- A sampler. -/
def State.sampler (s : State) (n : Nat) : Sampler := tblGet s.samplers n {}
/-- Change a sampler. -/
def State.modSampler (s : State) (n : Nat) (f : Sampler → Sampler) : State := { s with samplers := tblMod s.samplers n f {} }

/-- The operands of a sample command: logits, bitmap, record. -/
def Cmd.logitRange (c : Cmd) : Nat × Nat := (c.objDev 64 (oAt c.desc 64), sBytes c.desc)
@[inherit_doc Cmd.logitRange] def Cmd.mapRange (c : Cmd) : Nat × Nat := (c.objDev 128 (oAt c.desc 128), if sUse c.desc then (sV c.desc + 7) / 8 else 0)
@[inherit_doc Cmd.logitRange] def Cmd.tokenRange (c : Cmd) : Nat × Nat := (c.objDev 192 (oAt c.desc 192), if sMode c.desc = 0 then 16 else 0)

/-- Does a sample command pass the pages' part of row 3 of Table 6.6: its logits in one sampler input region of this hub, bitmap
and output permitted; no update reaches a host page (R315). -/
def State.samplePages (s : State) (c : Cmd) : Bool :=
  s.inSampler c c.logitRange && s.pagesPass c [c.mapRange] (s.pieceMay c.part 1 false) &&
  (!sUpdate c.desc || s.pagesPass c [c.mapRange] fun x => s.pieceMay c.part 1 true x && !bit x.1 1) &&
  s.pagesPass c [c.tokenRange] (s.pieceMay c.part 1 true)

/-- SAMPLE (R144, R146, R160): a started command takes its place in its partition's FIFO, in acceptance order, and is checked
by row 3 of Table 6.6 once the entries of its pages are at hand. -/
def State.sample (s : State) (id : Nat) : State :=
  let c := s.cmd id
  let r := [c.logitRange, c.mapRange, c.tokenRange]
  let q : State := { s with samplerFifo := tblMod s.samplerFifo c.part (queueIn id) [] }
  if (tblFind s.cmds id).isNone || c.opcode ≠ 0x23 || c.phase ≠ 1 || c.stage ≠ 0 then s
  else if c.fail.isSome then s.cmdCheck id
  else if s.samplePort c.part c.desc ≠ 0 then s.cmdFail id .access (s.samplePort c.part c.desc)
  else if !c.hasPages r then q.probeRanges id 1 (bufSampler 0) r
  else if s.samplePages c then q.modCmd id fun c => { c with stage := 1 }
  else s.cmdFail id .access 0x5203

/-- The command a sampler holds, if it is still running. -/
def State.samplerHolds (s : State) (n : Nat) : Option Nat :=
  match tblFind s.samplerCmd n with
  | some id => if (s.cmd id).phase = 1 && (s.cmd id).stage = 2 then some id else none
  | none => none

/-- The free sampler that takes the next command of a partition (R142). -/
def State.samplerFor (s : State) (p : Nat) : Option Nat :=
  let free := (List.range s.cfg.samplers).filter fun n => (s.samplerHolds n).isNone
  match free.find? fun n => tblGet s.samplerPart n 0xFF = p with
  | some n => some n
  | none => free.head?

/-- One DRBG block of a sampler (R150): the one it keeps drawn ahead, or a fresh one where it holds none, and the next is drawn
ahead; nothing while the DRBGs are stopped. -/
def State.samplerBlock (s : State) (n : Nat) : Option (Bytes × State) :=
  let held := (s.sampler n).ahead
  match (if held.isEmpty then s.drawChild (drbgSampler n) 16 else if s.random.stopped then none else some (held, s)) with
  | none => none
  | some (b, t) => match t.drawChild (drbgSampler n) 16 with
    | some (next, u) => some (b, u.modSampler n fun k => { k with ahead := next })
    | none => some (b, t.modSampler n fun k => { k with ahead := [] })

/-- Hand off a sample's record: every request of the command is issued. -/
def State.sampleOut (s : State) (n id : Nat) (rec_ : Bytes) : State :=
  let c := s.cmd id
  let s1 := s.modSampler n fun k => { k with out := none }
  (if sMode c.desc = 0 then s1.cmdWriteBytes id 1 (bufSampler n) c.tokenRange.1 rec_
    else s1.deliverBytes id (sPort c.desc) (hAt c.desc 192) 0 rec_ true).cmdIssued id

/-- Run the sample a sampler holds: read logits and bitmap, and once at hand ingest them, choose the token, update the bitmap and hand
off the record, which waits for the update: a command that fails delivers none (R160). Bits [63:0] of a DRBG block are its first 8 bytes as a little-endian number (DESIGN CHOICE, log entry 96: the manual
does not say which bytes they are). -/
def State.runSample (s : State) (n id : Nat) : State :=
  let c := s.cmd id
  let d := c.desc
  let v := sV d
  let logits := c.logitRange
  let map := c.mapRange
  if c.fail.isSome then s.cmdCheck id
  else if s.samplePort c.part d ≠ 0 then s.cmdFail id .access (s.samplePort c.part d)
  else match (s.sampler n).out with
  | some rec_ => if 0 < c.writes then s else s.sampleOut n id rec_
  | none =>
  if !(c.has logits.1 logits.2 && c.has map.1 map.2) then
    (s.cmdLoadRange id 1 (bufSampler n) logits.1 logits.2).cmdLoadRange id 1 (bufSampler n) map.1 map.2
  else
    let raw := unpack (if sFmt d = 0 then 32 else 16) v (c.bytes logits.1 logits.2)
    let present := leNat (c.bytes map.1 map.2)
    let scored := raw.zipIdx.map fun x => scoreStep d (sUse d && bit present x.2) (logit32 (sFmt d) x.1)
    let u := (s.sampler n).ingest (scored.map (·.1))
    let s1 := (s.bumpBy 0x2200 3 (scored.filter (·.2)).length).modSampler n fun _ => u
    if u.finite.isEmpty then s1.cmdFail id .format 0x5202
    else
      let drawn := if sGreedy d then some ([], s1) else s1.samplerBlock n
      match drawn with
      | none => s1.cmdFail id .resource 0x8008
      | some (b, s2) =>
        let w := chooseToken d (leNat (b.take 8)) u
        let after := fun (k : Sampler) => if sGreedy d || sFull d then { k with bankA := [] } else { u.select (sCount d u.finite.length) with ahead := k.ahead }
        let s3 := ((s2.modSampler n after).bumpBy 0x2200 4 (bn w.capped)).bumpBy 0x2200 5 (bn w.spill)
        let rec_ := tokenRecord d w
        let word := map.1 + w.token / 64 * 8
        if sUpdate d then (s3.modSampler n fun k => { k with out := some rec_ }).cmdStore id 1 (bufSampler n) word (.atomic 6 true (word % 128) (2 ^ (w.token % 64)))
        else s3.sampleOut n id rec_

/-- SAMPLER_DISPATCH (R142): a sampler goes on with what it holds, or, free and the one that R142 chooses, takes the oldest
command of the next partition in round robin whose oldest has been checked. A change of partition clears its buffer, and drops the
former partition's translations (R413). -/
def State.samplerDispatch (s : State) (n : Nat) : State :=
  match s.samplerHolds n with
  | some id => s.runSample n id
  | none =>
    match nextRound s.samplerTurn ((s.samplerFifo.filter fun kv => (kv.2.head?.map fun id => (s.cmd id).stage) = some 1).map (·.1)) with
    | none => s
    | some p =>
      match tblGet s.samplerFifo p [] with
      | [] => s
      | id :: rest =>
        if s.samplerFor p ≠ some n then s
        else
          let last := tblGet s.samplerPart n 0xFF
          let s1 : State := { s with samplerFifo := tblSet s.samplerFifo p rest [], samplerTurn := p,
                                     samplerPart := tblPut s.samplerPart n p, samplerCmd := tblPut s.samplerCmd n id }
          let s2 := if last ≠ 0xFF && last ≠ p then ((((s1.dropTlb last none).dropEngine last (bufSampler n)).bump 0x2200 6).bump 0x5260 4).modSampler n fun k => { ahead := k.ahead }
            else s1.modSampler n fun k => { k with out := none }
          (s2.modCmd id fun c => { c with stage := 2 }).runSample n id

/-- SAMPLE. -/
def execSample (cmd : Nat) (s : State) : Host.Outcome State Fault Refusal := s.compute fun s => s.sample cmd

/-- SAMPLER_DISPATCH. -/
def execSamplerDispatch (sampler : Nat) (s : State) : Host.Outcome State Fault Refusal :=
  withUnit (decide (sampler < s.cfg.samplers)) (s.compute fun s => s.samplerDispatch sampler)

end Sys2Proof.Machine
end

