-- ==== Sys2Proof/Machine/Bridge.lean ====
section
/-! DEFINITION. Sys2Proof/Machine/Bridge.lean: the format bridge: streams and the service of a lane (R162 to R168, R306). -/
namespace Sys2Proof.Machine

/-- The element and metadata ranges of one row of a stream's source (R86). -/
def Cmd.streamRow (c : Cmd) (r : Nat) : (Nat × Nat) × (Nat × Nat) :=
  let f := bSrc c.desc
  let n := bElems c.desc
  let e0 := c.objDev 64 (oAt c.desc 64)
  let m0 := c.objDev 64 (bMeta c.desc)
  -- a row of a format below 8 bits an element may start inside a byte: whole bytes are read
  let first := r * n * (fmtOf f).bits
  ((e0 + first / 8, (first % 8 + n * (fmtOf f).bits + 7) / 8), (m0 + r * rowMeta f n, rowMeta f n))

/-- End a stream with its STREAM_END (R306): the rows' code, and the first row not delivered. -/
def State.streamEnd (s : State) (id : Nat) (code : Code) (err row : Nat) : State :=
  let c := s.cmd id
  let port := bPort c.desc
  let m : ChipMsg := { mtype := 0x19, addr := bits c.desc 287 256 + row % 2 ^ 32 * 2 ^ 32, code := codeNum code }
  let s1 := s.modChip port fun k => { k with rows := k.rows ++ [⟨id, c.part, m, true⟩] }
  let s2 := if code = .ok then s1 else s1.bump 0x2221 (port + 1)
  s2.modCmd id fun c => { c with stage := 99, pendingFrames := c.pendingFrames + 1, detail := if code = .ok then 0 else row, fail := if code = .ok then none else some (code, err) }

/-- A stream's turn among the lane's eight (R164): active where there is room, otherwise waiting in acceptance order. -/
def State.streamJoin (s : State) (id port : Nat) : State :=
  let k := s.chip port
  if k.streams.contains id || k.queuedStreams.contains id then s
  else if k.streams.length < 8 && k.queuedStreams.isEmpty then s.modChip port fun k => { k with streams := k.streams ++ [id] }
  else s.modChip port fun k => { k with queuedStreams := queueIn id k.queuedStreams }

/-- BRIDGE_STREAM (R165 to R168): check where the source lies, then row by row read, convert and queue it at the lane. The rows
of an INT4 source of an odd ROW_ELEMS follow one another nibble by nibble, and a row sent on has zeros above its last nibble
(DESIGN CHOICE, log entry 96: R85 lays out one run of elements and R86 only tensors in blocks). A stream that its port's
physical reset caught completes here, at its bounded timeout, with TIMEOUT (R66, R168), or with the code of the logical reset that
waited for it (R67). -/
def State.bridgeStream (s : State) (id : Nat) : State :=
  let c := s.cmd id
  let d := c.desc
  let f := bSrc d
  let port := bPort d
  let n := bElems d
  let t := bTarget d c.palette
  let all := [(c.objDev 64 (oAt d 64), rowBytes f (bRows d * n)), (c.objDev 64 (bMeta d), rowMeta f (bRows d * n))]
  let caught := if c.stage ≠ 0 && !(s.chip port).streams.contains id && !(s.chip port).queuedStreams.contains id then c.fail else none
  if (tblFind s.cmds id).isNone || c.opcode ≠ 0x24 || c.phase ≠ 1 || c.stage = 99 then s
  else if caught.isSome then s.finishCmd id (caught.getD (.timeout, 0)).1 (caught.getD (.timeout, 0)).2 c.detail
  else if s.portBad c.part port then s.cmdFail id .access 0x3010
  else if c.stage = 0 then
    if c.fail.isSome then s.cmdCheck id
    else if !c.hasPages all then s.probeRanges id 2 (bufLane port) all
    else if s.pagesPass c all (s.pieceMay c.part 2 false) then ((s.modCmd id fun c => { c with stage := 1 }).streamJoin id port)
    else s.cmdFail id .access 0x5213
  else if !(s.chip port).streams.contains id || (s.chip port).rows.any fun x => x.cmd = id then s
  else match c.fail with
    | some (code, e) => s.streamEnd id code e c.done
    | none =>
      if bRows d ≤ c.done then s.streamEnd id .ok 0 (bRows d)
      else
        let r := c.streamRow c.done
        if !(c.has r.1.1 r.1.2 && c.has r.2.1 r.2.2) then
          (s.cmdLoadRange id 2 (bufLane port) r.2.1 r.2.2).cmdLoadRange id 2 (bufLane port) r.1.1 r.1.2
        else match s.stochastic (drbgLane port) (c.palette.round = 1 && takesBytes f t) n with
          | none => s.streamEnd id .resource 0x8008 c.done
          | some (rs, s1) =>
            let shift := c.done * n * (fmtOf f).bits % 8
            let raw := leBytes (rowBytes f n) ((leNat (c.bytes r.1.1 r.1.2) >>> shift) % 2 ^ (n * (fmtOf f).bits))
            let x := convertRow f t n c.palette.sat rs raw (c.bytes r.2.1 r.2.2)
            let up := fun (b : Bytes) => padTo ((b.length + 15) / 16 * 16) b
            let body := up x.2.1 ++ up x.1
            let rowSize := (rowMeta t n + 15) / 16 * 16 + (rowBytes t n + 15) / 16 * 16
            let items := (deliverMsgs (bits d 287 256) (c.done * rowSize) body).map fun m => (⟨id, c.part, m, false⟩ : LaneItem)
            let s2 := (s1.countStats x.2.2).bumpBy 0x2220 (port + 1) (if t = f then 0 else n)
            (s2.modChip port fun k => { k with rows := k.rows ++ items }).modCmd id fun c => { c with done := c.done + 1, got := [] }

/-- Send a lane's item, whose bytes take the place of all that the conversion registers held (R164); a command that waits for its last message is marked with the count of units at its end. -/
def State.sendItem (s : State) (c : Nat) (x : LaneItem) : State :=
  let s1 := (s.sendChip c x.msg).modChip c fun k => { k with lastPart := x.part, conv := x.msg.body }
  if x.last then s1.modChip c fun k => { k with marks := k.marks ++ [(x.cmd, k.unitsIn)] } else s1

/-- The stream whose line is served next: the one whose row has been sent in part, else the first in turn that has a row ready. -/
def Chip.streamTurn (k : Chip) : Option Nat :=
  let ready := fun (id : Nat) => k.rows.any fun x => x.cmd = id
  match k.midRow.filter fun id => k.streams.contains id && ready id with
  | some id => some id
  | none => k.streams.find? ready

/-- Serve one line of the stream in turn. -/
def State.serveStream (s : State) (c : Nat) (k : Chip) (stream : Option Nat) : State :=
  match stream with
  | none => s
  | some id => match k.rows.find? fun x => x.cmd = id with
    | none => s
    | some x =>
      let rows := k.rows.erase x
      let rowDone := !(rows.any fun y => y.cmd = id)
      let turn := k.streams.filter (· ≠ id)
      let streams := if x.last then turn ++ k.queuedStreams.take 1 else if rowDone then turn ++ [id] else k.streams
      ((s.modChip c fun k => { k with rows, streams, queuedStreams := if x.last then k.queuedStreams.drop 1 else k.queuedStreams, ran := 0,
                                      midRow := if rowDone then none else some id }).sendItem c x).modChip c fun k =>
        { k with rowMarks := if rowDone && !x.last then k.rowMarks ++ [(id, k.unitsIn)] else k.rowMarks }

/-- BRIDGE_LANE_SERVICE (R164): a waiting delivery line first; after 0x2230.01 of them one stream line if one waits. Streams
take turns by row, and one that ends gives its place to the next waiting. -/
def State.laneService (s : State) (c : Nat) : State :=
  let k := s.chip c
  let stream := k.streamTurn
  if k.state ≠ 4 || k.standby = 1 || k.standby = 2 then s
  else match k.deliveries with
    | x :: rest =>
      if k.ran < s.setting 0x2230 1 || stream.isNone then
        (s.modChip c fun k => { k with deliveries := rest, ran := k.ran + 1 }).sendItem c x
      else s.serveStream c k stream
    | [] => s.serveStream c k stream

/-- BRIDGE_STREAM. -/
def execBridgeStream (cmd : Nat) (s : State) : Host.Outcome State Fault Refusal := s.compute fun s => s.bridgeStream cmd

/-- BRIDGE_LANE_SERVICE. -/
def execBridgeLaneService (c : Nat) (s : State) : Host.Outcome State Fault Refusal :=
  withUnit (decide (c < s.cfg.chipPorts)) (s.compute fun s => s.laneService c)

end Sys2Proof.Machine
end

