-- ==== Sys2Proof/Machine/Reduce.lean ====
section
/-! DEFINITION. Sys2Proof/Machine/Reduce.lean: reduction slots, contribution chunks and their combining, reduce and merge
commands (R170 to R190). -/
namespace Sys2Proof.Machine

/-! ## Lanes (R171) -/

/-- The accumulator of no operand: +0, or the value that every operand exceeds or undercuts. -/
def laneZero (op : Nat) : BitVec 32 := if op = 0 then 0 else if op = 1 then f32NegInf else 0x7F800000

/-- Fold one exact operand into an FP32 accumulator. -/
def foldLane (op : Nat) (a : BitVec 32) (v : Fp) : BitVec 32 :=
  let x := f32 a
  let neg := fun (y : Fp) => match y with | .fin n _ _ => n | .inf n => n | .nan => false
  if op = 0 then f32Acc a v
  else if x.isNan || v.isNan then f32Nan
  else if op = 1 then (if Fp.lt x v then toF32 v else if Fp.lt v x then a else if neg x then toF32 v else a)
  else (if Fp.lt v x then toF32 v else if Fp.lt x v then a else if neg v then toF32 v else a)

/-- Chunks of an operand, and elements of chunk `i` (R175). -/
def chunksOf (elems : Nat) : Nat := (elems + 255) / 256
@[inherit_doc chunksOf] def chunkLen (elems i : Nat) : Nat := min 256 (elems - 256 * i)

/-- The exact elements of a chunk. -/
def chunkVals (c : Chunk) : List Fp := decodeRow c.fmt c.elems c.data c.md

/-- FP32 words as bytes. -/
def f32Bytes (vs : List (BitVec 32)) : Bytes := vs.flatMap fun v => leBytes 4 v.toNat

/-! ## Acknowledgements of chunks (R250) -/

/-- Tell the sender of a chunk what became of it; a reduce command counts its own down. -/
def State.ackChunk (s : State) (f : ChunkFrom) (code : Code) : State :=
  match f with
  | .link l sess h =>
    let k := s.link l
    let dst := (k.peer.map (·.member)).getD 0
    if k.sess ≠ sess then s else s.sendOn l
      { mtype := 0x13, src := s.memberField, dst, part := chunkPart h, pgen := s.pgenOf (chunkPart h), body := leBytes 1 (codeNum code) ++ padTo 15 h }
  | .chip c sess otag h =>
    if (s.chip c).sess ≠ sess then s else (s.freeChip c 0).sendChip c
      { mtype := 0x13, otag, body := leBytes 1 (codeNum code) ++ padTo 15 h }
  | .cmd id =>
    if (tblFind s.cmds id).isNone then s
    else (s.modCmd id fun c =>
      { c with acksDue := c.acksDue - 1, fail := if code = .ok then c.fail else some (c.fail.getD (code, 0x5307)) }).cmdCheck id

/-! ## Chunks on their way (R179, R180, R250) -/

/-- Put a chunk's message on the link of its fixed route, and keep its record until CHUNK_ACK returns over that link (R250); one
without a route is refused with ACCESS. -/
def State.chunkLeave (s : State) (arrived : Option Nat) (m : Msg) (froms : List ChunkFrom) : State :=
  match s.routeOf arrived m.dst false with
  | some l => ({ s with chunkRecs := s.chunkRecs ++ [⟨l, m.body.take 15, froms⟩] } : State).sendOn l m
  | none => froms.foldl (fun s f => s.ackChunk f .access) (s.error 2 (arrived.getD 0) (some m.part) 0x200A 0)

/-- Send a chunk on: at once, or after the hold of R271. -/
def State.chunkDepart (s : State) (arrived : Option Nat) (c : Chunk) (froms : List ChunkFrom) : State :=
  let m : Msg := { mtype := 0, dst := c.home, part := c.part, body := chunkBytes c }
  if s.holdsRoute m then { s with routeHold := s.routeHold ++ [{ arrived, msg := m, froms }] } else s.chunkLeave arrived m froms

/-- A combining entry of a chunk departs: folded chunks leave in FP32 with the sum of their counts. -/
def State.departChunk (s : State) (e : Nat) : State :=
  match tblFind s.comb e with
  | none => s
  | some c =>
    let out : Chunk := if c.froms.length < 2 then c.chunk else { c.chunk with fmt := 0, md := [], data := f32Bytes c.acc }
    ({ s with comb := tblDel s.comb e } : State).chunkDepart c.arrived out c.froms

/-- Bytes of the 1 MB reduction transit buffer in use: 1 KB for each combining entry, and the other chunks held for slots not
yet open (R177, R179). -/
def State.transitUsed (s : State) : Nat :=
  1024 * (s.comb.filter fun kv => kv.2.kind = 2).length +
  (s.early.map fun x => if x.acc.isSome then 1024 else (chunkBytes x.chunk).length).foldl (· + ·) 0

/-- Do two chunks share what R179 asks of chunks that combine; their element counts are equal where their slot takes both. -/
def Chunk.joins (a b : Chunk) : Bool :=
  a.combine && b.combine && a.home = b.home && a.part = b.part && a.slot = b.slot && a.epoch = b.epoch && a.index = b.index && a.op = b.op &&
  a.elems = b.elems

/-- May a chunk that finds no combining entry open one: the table and the transit buffer have room. -/
def State.chunkRoom (s : State) : Bool := s.combRoom && decide (s.transitUsed + 1024 ≤ 2 ^ 20)

/-- May a chunk join one that waits: at most 256 chunks, and a sum of COUNTs that COUNT can carry; one that would pass 131,071 opens an
entry of its own (DESIGN CHOICE, log entry 97: R179 gives the sum no bound). -/
def Chunk.fits (c : Chunk) (x : Chunk) (joined : Nat) : Bool := decide (joined < 256) && decide (x.count + c.count ≤ 131071)

/-- The accumulator of a chunk, folded into one that waits. -/
def Chunk.foldInto (c : Chunk) (acc : List (BitVec 32)) : List (BitVec 32) := (acc.zip (chunkVals c)).map fun v => foldLane c.op v.1 v.2
@[inherit_doc Chunk.foldInto] def Chunk.accum (c : Chunk) : List (BitVec 32) := (chunkVals c).map fun v => foldLane c.op (laneZero c.op) v

/-- Send a chunk on toward its home over its fixed route: folded into an entry that waits for the same link, or opening one
that departs as soon as the link takes it; a chunk without a route is refused with ACCESS. A cleared bit of 0x2310.01 stops new
entries alone (R190). -/
def State.chunkForward (s : State) (arrived : Option Nat) (c : Chunk) (f : ChunkFrom) : State :=
  match s.routeOf arrived c.home false with
  | none => (s.error 2 (arrived.getD 0) (some c.part) 0x200A 0).ackChunk f .access
  | some l =>
    match s.comb.find? fun kv => kv.2.kind = 2 && s.routeOf kv.2.arrived c.home false = some l && kv.2.chunk.joins c && c.fits kv.2.chunk kv.2.froms.length with
    | some (e, x) =>
      let x1 : Comb := { x with acc := c.foldInto x.acc, froms := x.froms ++ [f], chunk := { x.chunk with count := x.chunk.count + c.count } }
      ({ s with comb := tblPut s.comb e x1 } : State).bump 0x2300 7
    | none =>
      if !c.combine || !bit (s.setting 0x2310 1) 2 then s.chunkDepart arrived c [f]
      else if !s.chunkRoom then (s.bump 0x2300 8).chunkDepart arrived c [f]
      else if (s.link l).grants (chunkUnits (chunkBytes c)) then s.chunkDepart arrived c [f]
      else
        let x : Comb := { kind := 2, chunk := c, acc := c.accum, froms := [f], arrived, opened := s.loc }
        { s with comb := tblPut s.comb (firstGap s.comb 0) x }

/-! ## Chunks at their home (R177, R179) -/

/-- The open slot that a chunk names. -/
def State.slotOpen (s : State) (c : Chunk) : Option Slot7 := (tblFind s.rslots (slotKey7 c.part c.slot)).filter fun k => k.epoch = c.epoch

/-- Refuse a chunk (R177). -/
def State.refuseChunk (s : State) (f : ChunkFrom) (code : Code) : State := (s.bump 0x2300 3).ackChunk f code

/-- Hold a chunk whose slot is not open: folded into one that waits at the home's own combining table, opening an entry there, or
as it is; with the transit buffer full it is refused at once. -/
def State.holdChunk (s : State) (c : Chunk) (f : ChunkFrom) : State :=
  match s.early.findIdx? fun x => x.acc.isSome && x.chunk.joins c && c.fits x.chunk x.froms.length with
  | some i =>
    let join := fun (x : HeldChunk) => { x with acc := x.acc.map c.foldInto, froms := x.froms ++ [f], chunk := { x.chunk with count := x.chunk.count + c.count } }
    ({ s with early := s.early.modify i join } : State).bump 0x2300 7
  | none =>
    let enters := c.combine && bit (s.setting 0x2310 1) 2
    if enters && s.chunkRoom then { s with early := s.early ++ [⟨c, [f], some c.accum⟩] }
    else
      let s1 := if enters then s.bump 0x2300 8 else s
      if 2 ^ 20 < s.transitUsed + (chunkBytes c).length then s1.refuseChunk f .wrongState else { s1 with early := s1.early ++ [⟨c, [f], none⟩] }

/-- A chunk held for its slot is held no longer: one held as it was returns the operation credit that it kept (R253). -/
def State.earlyFreed (s : State) (x : HeldChunk) : State :=
  if x.acc.isSome then s
  else x.froms.foldl (fun s f => match f with | .link l sess _ => s.freeHeld l sess 0 0 1 | _ => s) s

/-! ## Turns at the lanes (R170) -/

/-- A finished shard of an attention step waits for its merge. -/
def State.shardsWait (s : State) : Bool :=
  s.cmds.any fun kv => kv.2.phase = 1 && kv.2.stage = 3 && kv.2.fail.isNone && kv.2.shards.any fun h => h.finished && !h.merged

/-- Element and metadata ranges of local operand `i`. -/
def Cmd.operandRanges (c : Cmd) (i : Nat) : (Nat × Nat) × (Nat × Nat) :=
  let d := c.desc
  ((c.objDev 64 (oAt d 64) + i * rStride d, rowBytes (rIn d) (rElems d)), (c.objDev 64 (rMeta d) + i * rStride d, rowMeta (rIn d) (rElems d)))

/-- The first set of a merge command to arrive of those not merged yet (R181). -/
def Cmd.setReady (c : Cmd) : Option Nat := c.setOrder.find? fun i => !(c.shards.map (·.au)).contains i

/-- Does a command have lane work at hand: the next chunk of a reduce command's operand, or a set of a merge command. -/
def Cmd.lanesDue (c : Cmd) : Bool :=
  let r := c.operandRanges (c.done / chunksOf (rElems c.desc))
  c.phase = 1 && c.fail.isNone &&
  ((c.opcode = 0x25 && c.stage = 1 && decide (c.done < rLocal c.desc * chunksOf (rElems c.desc)) && c.has r.1.1 r.1.2 && c.has r.2.1 r.2.2) ||
   (c.opcode = 0x26 && c.stage = 0 && c.has (c.objDev 64 (oAt c.desc 64)) (8 * mSets c.desc) && c.setReady.isSome))

/-- The partition of the chunk that heads a link's VC0, and of the chunk that heads a chiplet port's messages. -/
def State.linkChunkPart (s : State) (k : Link) : Option Nat :=
  ((k.rx.find? fun m => mtypeVc m.mtype = 0 && s.endsHere m).filter fun m => m.mtype = 0).map (·.part)
@[inherit_doc State.linkChunkPart] def Chip.chunkPart (k : Chip) : Option Nat := if (k.rx.head?.map (·.mtype)) = some 0 && k.state = 4 then some (k.bound.getD 0) else none

/-- The partitions that have lane work at hand. -/
def State.lanesDue (s : State) : List Nat :=
  ((s.cmds.filter fun kv => kv.2.lanesDue).map (·.2.part)) ++ (s.links.filterMap fun kv => s.linkChunkPart kv.2) ++ (s.chips.filterMap fun kv => kv.2.chunkPart) ++
  (s.early.filter fun x => (s.slotOpen x.chunk).isSome).map (·.chunk.part)

/-- Is it a partition's turn at the lanes: no shard merge waits, and no other partition with work at hand comes before it in
the round. -/
def State.lanesFor (s : State) (p : Nat) : Bool :=
  let rank := fun (q : Nat) => (q + 127 - s.lanesTurn) % 64
  !s.shardsWait && s.lanesDue.all fun q => decide (rank p ≤ rank q)

/-- The lanes have served a partition. -/
def State.lanesServed (s : State) (p : Nat) : State := { s with lanesTurn := p }

/-! ## Output of a reduction (R172, R178) -/

/-- Send chunk `i` of a reduce command's result on by its mode: its elements in `fmt`. -/
def State.emitChunk (s : State) (id i fmt : Nat) (data md : Bytes) : State :=
  let c := s.cmd id
  let d := c.desc
  let n := chunkLen (rElems d) i
  let fail := fun (s : State) => s.modCmd id fun c => { c with fail := some (c.fail.getD (.resource, 0x8008)) }
  if (tblFind s.cmds id).isNone || c.fail.isSome then s
  else if rMode d = 1 then
    let p := c.palette
    match s.stochastic (drbgLane (rPort d)) (p.round = 1 && takesBytes fmt p.result) n with
    | none => fail s
    | some (rs, s1) =>
      let r := convertRow fmt p.result n p.sat rs data md
      let s2 := ((if p.result = fmt then s1 else s1.bumpBy 0x2220 (rPort d + 1) n).countStats r.2.2)
      s2.deliverBytes id (rPort d) (hAt d 128) (i * rowBytes p.result 256) r.1 (decide (i + 1 = chunksOf (rElems d)))
  else match s.stochastic drbgReduction (bit d 240 && takesBytes fmt (rOut d)) n with
    | none => fail s
    | some (rs, s1) =>
      let f := rOut d
      let r := convertRow fmt f n (bit d 241) rs data md
      let s2 := s1.countStats r.2.2
      if rMode d = 0 then
        let out := c.objDev 128 (oAt d 128)
        let s3 := s2.cmdWriteBytes id 3 bufReduction (out + i * rowBytes f 256) r.1
        if r.2.1.isEmpty then s3 else s3.cmdWriteBytes id 3 bufReduction (out + lineRound (rowBytes f (rElems d)) + i * rowMeta f 256) r.2.1
      else
        let k : Chunk := { slot := rDestSlot d, epoch := rDestEpoch d, fmt := f, index := i, count := 1, op := rOp d, combine := bit d 223,
                           elems := n, home := rDestMember d, part := c.part, md := r.2.1, data := r.1 }
        let s3 := s2.modCmd id fun c => { c with acksDue := c.acksDue + 1 }
        if k.home ≠ s3.memberField then s3.chunkForward none k (.cmd id)
        else if (s3.slotOpen k).isSome then { s3 with early := s3.early ++ [⟨k, [.cmd id], none⟩] } else s3.holdChunk k (.cmd id)

/-! ## Slots (R174, R177, R178) -/

/-- Deliver a slot's finished chunks: each as it completes, and toward a chiplet in ascending order (R306). The slot stays open
until its command completes (R178). -/
def State.slotEmit (s : State) (key : Nat) : State :=
  match tblFind s.rslots key with
  | none => s
  | some k =>
    let n := chunksOf k.elems
    let ready := (List.range n).filter fun i => tblGet k.counts i 0 = k.total && !k.done.contains i
    let inOrder := (List.range n).filter fun i => ready.contains i && (List.range i).all fun j => k.done.contains j || ready.contains j
    let go := if rMode (s.cmd k.cmd).desc = 1 then inOrder else ready
    let s1 := go.foldl (fun s i => s.emitChunk k.cmd i 0 (f32Bytes (tblGet k.acc i [])) []) s
    match tblFind s1.rslots key with
    | none => s1
    | some k1 =>
      let k2 : Slot7 := { k1 with done := k1.done ++ go, acc := k1.acc.filter fun a => !go.contains a.1 }
      let s2 : State := { s1 with rslots := tblPut s1.rslots key k2 }
      if k2.done.length < n || go.isEmpty then s2 else s2.cmdIssued k2.cmd

/-- Fold the elements of chunk `i` into a slot with a count. -/
def State.slotFold (s : State) (key i count : Nat) (vs : List Fp) : State :=
  match tblFind s.rslots key with
  | none => s
  | some k =>
    let old := tblGet k.acc i (List.replicate (chunkLen k.elems i) (laneZero k.op))
    let k1 : Slot7 := { k with acc := tblPut k.acc i ((old.zip vs).map fun v => foldLane k.op v.1 v.2), counts := tblPut k.counts i (tblGet k.counts i 0 + count) }
    ({ s with rslots := tblPut s.rslots key k1 } : State).slotEmit key

/-- The home judges a chunk that may carry joined ones (R177): accepted into its open slot, refused, or held for it. -/
def State.chunkJudge (s : State) (x : HeldChunk) : State :=
  let c := x.chunk
  let refuse := fun (code : Code) => x.froms.foldl (fun s f => s.refuseChunk f code) s
  let fromChip := x.froms.any fun f => match f with | .chip _ _ _ _ => true | _ => false
  match s.slotOpen c with
  | none => { s with early := s.early ++ [x] }
  | some k =>
    if c.op ≠ k.op || chunksOf k.elems ≤ c.index || c.elems ≠ chunkLen k.elems c.index || c.count = 0 || (fromChip && (c.count ≠ 1 || c.combine)) then
      refuse .format
    else if k.total < tblGet k.counts c.index 0 + c.count then refuse .wrongState
    else
      let vals := match x.acc with | some a => if x.froms.length < 2 then chunkVals c else a.map f32 | none => chunkVals c
      (x.froms.foldl (fun s f => s.ackChunk f .ok) s).slotFold (slotKey7 c.part c.slot) c.index c.count vals

/-- A chunk reaches its home (R177): judged where its slot is open, held where it is not. -/
def State.chunkArrive (s : State) (c : Chunk) (f : ChunkFrom) : State :=
  if (s.slotOpen c).isSome then s.chunkJudge ⟨c, [f], none⟩ else s.holdChunk c f

/-- Judge one held chunk whose slot is now open, the first to arrive of those whose partition has the turn at the lanes (R170): a
combining entry of it departs (R179). -/
def State.takeEarly (s : State) : State :=
  match s.early.find? fun x => (s.slotOpen x.chunk).isSome && s.lanesFor x.chunk.part with
  | none => s
  | some x => ((({ s with early := s.early.erase x } : State).earlyFreed x).chunkJudge x).lanesServed x.chunk.part

/-! ## Reduce (R173, R174) -/

/-- Start a reduce command whose operands and output lie where they may: open its slot, or none where EXPECT is 0. -/
def State.reduceOpen (s : State) (id : Nat) : State :=
  let c := s.cmd id
  let d := c.desc
  let key := slotKey7 c.part (rSlot d)
  let s1 := s.modCmd id fun c => { c with stage := 1 }
  if rExpect d = 0 then s1
  else if (tblFind s.rslots key).isSome then s.cmdFail id .wrongState 0x5304
  else if 1024 ≤ s.rslots.length || (s.partn c.part).staging * 2 ^ 16 < (s.partn c.part).stagingUsed + 4 * rElems d then s.cmdFail id .resource 0x5305
  else
    let k : Slot7 := { part := c.part, slot := rSlot d, epoch := rEpoch d, cmd := id, op := rOp d, elems := rElems d, total := rLocal d + rExpect d }
    (({ s1 with rslots := tblPut s1.rslots key k } : State).modPart c.part fun p => { p with stagingUsed := p.stagingUsed + 4 * rElems d }).takeEarly

/-- Chunk `i` of a local operand's bytes: its elements and its metadata. -/
def Cmd.operandChunk (c : Cmd) (operand i : Nat) : Bytes × Bytes :=
  let f := rIn c.desc
  let r := c.operandRanges operand
  (((c.bytes r.1.1 r.1.2).drop (i * rowBytes f 256)).take (rowBytes f 256), ((c.bytes r.2.1 r.2.2).drop (i * rowMeta f 256)).take (rowMeta f 256))

/-- Fold chunk `i` of a local operand into the command's slot, or into its own accumulators; the last operand's chunk completes
it, and it is sent on. A command of one operand and no contribution only converts and sends it (R174). -/
def State.reduceChunk (s : State) (id operand i : Nat) : State :=
  let c := s.cmd id
  let d := c.desc
  let x := c.operandChunk operand i
  if rExpect d = 0 && rLocal d = 1 then s.emitChunk id i (rIn d) x.1 x.2
  else
    let n := chunkLen (rElems d) i
    let vs := decodeRow (rIn d) n x.1 x.2
    if rExpect d ≠ 0 then s.slotFold (slotKey7 c.part (rSlot d)) i 1 vs
    else
      let acc := match c.total with | [a] => a.o | _ => List.replicate (rElems d) (laneZero (rOp d))
      let new := (((acc.drop (256 * i)).take n).zip vs).map fun v => foldLane (rOp d) v.1 v.2
      let s1 := s.modCmd id fun c => { c with total := [⟨0, 0, acc.take (256 * i) ++ new ++ acc.drop (256 * i + n)⟩] }
      if operand + 1 = rLocal d then s1.emitChunk id i 0 (f32Bytes new) [] else s1

/-- REDUCE (R174): probe, open, read the local operands one by one, fold a chunk at each turn of its partition at the lanes
(R170), and send the result on. -/
def State.reduceStep (s : State) (id : Nat) : State :=
  let c := s.cmd id
  let d := c.desc
  let n := rLocal d
  let k := chunksOf (rElems d)
  let outRange := if rMode d = 0 then [(c.objDev 128 (oAt d 128), rOutBytes d)] else []
  let inRanges := (List.range n).flatMap fun i => let r := c.operandRanges i; [r.1, r.2]
  let ranges := outRange ++ inRanges
  if (tblFind s.cmds id).isNone || c.opcode ≠ 0x25 || c.phase ≠ 1 || c.stage = 99 then s
  else if c.fail.isSome then s.cmdCheck id
  else if c.stage = 0 then
    if !c.hasPages ranges then s.probeRanges id 3 bufReduction ranges
    else if s.pagesPass c outRange (s.pieceMay c.part 3 true) && s.pagesPass c inRanges (s.pieceMay c.part 3 false) then s.reduceOpen id
    else s.cmdFail id .access 0x5303
  else if c.done < n * k then
    let r := c.operandRanges (c.done / k)
    if !(c.has r.1.1 r.1.2 && c.has r.2.1 r.2.2) then (s.cmdLoadRange id 3 bufReduction r.2.1 r.2.2).cmdLoadRange id 3 bufReduction r.1.1 r.1.2
    else if !s.lanesFor c.part then s.takeEarly
    else
      let s1 := (s.lanesServed c.part).reduceChunk id (c.done / k) (c.done % k)
      let s2 := s1.modCmd id fun x => { x with done := c.done + 1, got := if (c.done + 1) % k = 0 then [] else x.got }
      if rExpect d = 0 && c.done + 1 = n * k then s2.takeEarly.cmdIssued id else s2.takeEarly
  else s.takeEarly

/-! ## Merge (R181 to R183) -/

/-- MERGE: check where the output lies, read the set list as the queue manager does (R326), then merge the sets in the order they arrive,
a set at each turn of its partition at the lanes (R170), and deliver or write the result. DESIGN CHOICE (log entry 97): a list entry
whose bits [6:0] are not zero, for which no row of Table 7.6 stands, ends the merge with FORMAT, 0x5311. -/
def State.mergeStep (s : State) (id : Nat) : State :=
  let c := s.cmd id
  let d := c.desc
  let n := mSets d
  let dim := mD d
  let rs := partialSize dim
  let list := c.objDev 64 (oAt d 64)
  let bases := c.setBases
  let sets := bases.map fun b => (b, mRecs d * rs)
  let out := c.objDev 128 (oAt d 128)
  let outRange := if mMode d = 1 then [(out, mRecs d * rs)] else []
  if (tblFind s.cmds id).isNone || c.opcode ≠ 0x26 || c.phase ≠ 1 || c.stage = 99 then s
  else if c.fail.isSome then s.cmdCheck id
  else if !c.hasPages outRange then s.probeRanges id 3 bufReduction outRange
  else if !s.pagesPass c outRange (s.pieceMay c.part 3 true) then s.cmdFail id .access 0x5313
  else if !c.has list (8 * n) then s.cmdLoadRange id 12 bufQueues list (8 * n)
  else if bases.any fun b => b % 128 ≠ 0 || 2 ^ 48 ≤ b then s.cmdFail id .format 0x5311
  else if !c.hasPages sets then s.probeRanges id 3 bufReduction sets
  else if !s.pagesPass c sets (s.pieceMay c.part 3 false) then s.cmdFail id .access 0x5313
  else
    let merged := c.shards.map (·.au)
    match c.setReady with
    | none => sets.foldl (fun s r => s.cmdLoadRange id 3 bufReduction r.1 r.2) s
    | some i =>
      if !s.lanesFor c.part then s.takeEarly else
      let base := bases.getD i 0
      let old := if c.total.isEmpty then List.replicate (mRecs d) (softZero dim) else c.total
      let recs := (List.range (mRecs d)).map fun r => partialOf dim (c.bytes (base + r * rs) rs)
      let total := (old.zip recs).map fun (x : Soft × Soft) => mergeRecord x.1 x.2.m x.2.l x.2.o
      let s1 := (s.lanesServed c.part).modCmd id fun c => { c with total := total, shards := c.shards ++ [⟨i, [], true, [], true, true⟩] }
      if merged.length + 1 < n then s1
      else
        let s2 := if mMode d = 0 then s1.deliverRecords id (mPort d) (hAt d 128) (bits d 239 232) total
          else total.zipIdx.foldl (fun s a => s.cmdWriteBytes id 3 bufReduction (out + a.2 * rs) (partialBytes a.1)) s1
        s2.cmdIssued id

/-- REDUCE. -/
def execReduce (cmd : Nat) (s : State) : Host.Outcome State Fault Refusal := s.compute fun s => s.reduceStep cmd

/-- MERGE. -/
def execMerge (cmd : Nat) (s : State) : Host.Outcome State Fault Refusal := s.compute fun s => s.mergeStep cmd

/-- EARLY_ARRIVAL_EXPIRY (R177): the early-arrival bound of a held chunk has passed, and it is refused with every chunk that
joined it. -/
def execEarlyArrivalExpiry (i : Nat) (s : State) : Host.Outcome State Fault Refusal :=
  s.work fun s => (match s.early[i]? with
    | none => s
    | some x => x.froms.foldl (fun s f => s.refuseChunk f .wrongState) (({ s with early := s.early.eraseIdx i } : State).earlyFreed x))

/-- SLOT_IDLE_EXPIRY (R178): a slot that accepted no chunk for its bound closes, and its command ends with TIMEOUT. -/
def execSlotIdleExpiry (slot : Nat) (s : State) : Host.Outcome State Fault Refusal :=
  s.work fun s => (match tblFind s.rslots slot with
    | none => s
    | some k => s.finishCmd k.cmd .timeout 0x5306 0)

end Sys2Proof.Machine
end

