-- ==== Sys2Proof/Machine/Lanes.lean ====
section
/-! DEFINITION. Sys2Proof/Machine/Lanes.lean: the line port of a memory port: which offered request a lane takes, responses
and bounds, the background writes of formatting, initialisation and scrubs, and the write-back rows (R41 to R44, R194,
R197, R206, R217 to R222, R428). -/
namespace Sys2Proof.Machine

/-- The key of a tag in flight. -/
def tagKey (lane tag : Nat) : Nat := lane * 512 + tag

/-- Is the engine sweeping a region: running, waiting or completing. -/
def Sweep.active (w : Sweep) : Bool := w.state = 1 || w.state = 2 || w.state = 3

/-- Has a memory port line traffic: requests, lines outstanding, or a sweep, a formatting, an initialisation or a scrub under way. -/
def MemPort.busy (p : MemPort) : Bool :=
  !(p.waiting.isEmpty && p.offered.isEmpty && p.tags.isEmpty && p.easelWait.isEmpty && p.init.isEmpty) || p.sweep.active || p.fmt.isSome || p.scrub.isSome

/-- A row of a memory port: the port exists, and the block is out of reset; while its clock is stopped a line request is what brings
the block back to S0 (DEDUCED, log entry 106). -/
def State.portRow (s : State) (m : Nat) (f : State → State) : Host.Outcome State Fault Refusal :=
  withUnit (decide (m < s.cfg.memPorts)) (doneS (s.whenAlive fun s => if s.sealing then f s else if (s.port m).busy then s.beginExit else s))

/-! ## Background writes -/

/-- Is there work under way on the lines of a region: requests waiting or at their order points, pages in transition,
metadata being written back or having its parent fetched. On a failed port only accepted requests are left to answer. -/
def State.regionBusy (s : State) (m r : Nat) : Bool :=
  let p := s.port m
  match tblFind p.regions r with
  | none => false
  | some g =>
    let lo := g.base * 2 ^ 14
    let hi := lo + g.pages * 2 ^ 14
    let inR := fun (a : Nat) => decide (lo ≤ a ∧ a < hi)
    let page := fun (x : Nat) => inR (metaIndex p.dcap x * 2 ^ 14)
    let ctr := fun (x : Nat) => decide (metaBase p.dcap 0 ≤ x ∧ x < metaBase p.dcap 1) && page x
    (p.waiting.any fun q => inR q.line) || (p.points.any fun kv => inR kv.1 && (kv.2.op.isSome || kv.2.outstanding || kv.2.unwritten)) ||
    (p.state ≠ 4 && ((p.points.any fun kv => (inR kv.1 && kv.2.poisonTry.isSome) || (ctr kv.1 && kv.2.op.isSome)) ||
      (p.transitions.any fun t => page t.page) ||
      (p.cache.any fun kv => kv.2.writing && ((kv.2.kind = 0 && inR ((kv.1 - p.dcap) * 16)) || (kv.2.kind = 1 && page kv.1)))))

/-- Does a key slot still hold a region's keys: it may have been scrubbed and taken for another region since. -/
def State.holdsRegion (s : State) (m r i : Nat) : Bool :=
  let k := s.slot i
  (k.state = 1 || k.state = 2) && k.kind = 1 && k.port = m && k.region = r

/-- Discard a removed region's cached counter and tag lines without writing them back, clear what its requests held in the easels
(R21), and free its record (R198). -/
def State.dropRegion (s : State) (m r : Nat) : State :=
  match tblFind (s.port m).regions r with
  | none => s
  | some g =>
    let s1 := if s.holdsRegion m r g.slot then s.invalidateSlot g.slot else s
    s1.modPort m fun p =>
      let lo := g.base * 2 ^ 14
      let hi := lo + g.pages * 2 ^ 14
      let inR := fun (a : Nat) => decide (lo ≤ a ∧ a < hi)
      let mine := fun (x : Nat) (c : CacheLine) =>
        (c.kind = 0 && inR ((x - p.dcap) * 16)) || (c.kind = 1 && inR (metaIndex p.dcap x * 2 ^ 14))
      { p with regions := tblDel p.regions r, cache := p.cache.filter (fun kv => !mine kv.1 kv.2), points := p.points.filter (fun kv => !inR kv.1),
               waiting := p.waiting.filter (fun q => !inR q.line), easel := p.easel.filter (fun e => !inR e.line), easelWait := p.easelWait.filter (fun e => !inR e.line) }

/-- A region leaves the live state: the harvest and the trace that name it keep no region (R519). -/
def State.forgetRegion (s : State) (m r : Nat) : State :=
  let v := m + r * 2 ^ 8
  let s1 := if s.setting 0x6210 1 = v then ({ s with records := { s.records with ring := [], writing := 0 } } : State).setSetting 0x6210 1 0 else s
  if s1.setting 0x6220 1 = v then ({ s1 with records := { s1.records with history := [], staging := [] } } : State).setSetting 0x6220 1 0 else s1

/-- Is a region still queued or being swept. -/
def Sweep.holds (w : Sweep) (r : Nat) : Bool := w.queued.contains r || (w.region = r && (w.state = 1 || w.state = 2 || w.state = 3))

/-- Is a region of the running automatic round still queued or being swept. -/
def Sweep.roundRuns (w : Sweep) : Bool := w.round.any w.holds

/-- Queue every live region of a port in number order (R230), none twice: a new automatic round starts. -/
def State.queueRound (s : State) (m : Nat) : State :=
  s.modPort m fun p =>
    let live := (p.regions.filter fun kv => kv.2.state = 2).map (·.1)
    { p with sweep := { p.sweep with queued := p.sweep.queued ++ live.filter (fun r => !p.sweep.queued.contains r), round := live, roundDue := false, roundAt := s.loc } }

/-- A region whose sweep has ended leaves the automatic round, so that a later request for it is none of that round's; a round that
fell due while another ran starts when that one is over (R230). -/
def State.roundCheck (s : State) (m : Nat) : State :=
  let w := (s.port m).sweep
  let s1 := s.modPort m fun p => { p with sweep := { p.sweep with round := w.round.filter w.holds } }
  if w.roundDue && !w.roundRuns then s1.queueRound m else s1

/-- Set a region retiring (R198, R239): its sweep, its initialisation and its scrub stop; its lines below the wet edge stay under
g + 1. A status that reports a sweep stopped before it started keeps doing so (R231). -/
def State.stopRegion (s : State) (m r : Nat) : State :=
  match tblFind (s.port m).regions r with
  | none => s
  | some g =>
    if g.state = 4 then s
    else
      ((s.forgetRegion m r).modPort m fun p =>
        let w := p.sweep
        let mine := decide (w.region = r) && decide (g.state = 3)
        let p0 := if mine then w.pinned.foldl (fun p x => cachePin p x false) p else p
        let w0 : Sweep := { w with queued := w.queued.filter (· ≠ r) }
        let w1 : Sweep := if mine then { w0 with state := 0, region := 0, fromGen := 0, edge := 0, ahead := [], asked := [], fails := [], skip := [], pinned := [] } else w0
        { p0 with regions := tblPut p0.regions r { g with state := 4, edge := if mine then w.edge else g.edge }, sweep := w1,
                  waiting := if mine then p0.waiting.filter (fun q => q.contender ≠ byAhead) else p0.waiting, init := p0.init.filter (fun j => j.region ≠ r), scrub := p0.scrub.filter (fun j => j.region ≠ r) }).roundCheck m

/-- Retire a region on its own: its key goes as soon as no accepted request remains. -/
def State.retireRegion (s : State) (m r : Nat) : State :=
  let g := tblGet (s.port m).regions r {}
  let s1 := s.stopRegion m r
  if g.state ≠ 4 && !s1.regionBusy m r && s1.holdsRegion m r g.slot then s1.invalidateSlot g.slot else s1

/-- The cap of the sweep class in bytes of one window (R237). -/
def State.sweepCap (s : State) (m : Nat) : Nat := 2400 * s.setting 0x3101 (m + 1)

/-- Has the sweep class room for a line in this window. -/
def State.sweepRoom (s : State) (m : Nat) : Bool := decide ((s.port m).sweep.used + 128 ≤ s.sweepCap m)

/-- The cap of the writer class in bytes of one window (R429). -/
def State.writerCap (s : State) : Nat := 2400 * s.setting 0x5250 1

/-- A write of formatting has failed: it is sent again once per 1 µs, and the sixteenth failure of a line fails the port. -/
def State.formatFailed (s : State) (m x : Nat) : State :=
  let s1 := s.bump 0x3042 (m + 1)
  match (s1.port m).fmt with
  | none => s1
  | some j =>
    let n := tblGet j.fails x 0 + 1
    let s2 := s1.modPort m fun p => { p with fmt := some { j with outstanding := j.outstanding - 1, fails := tblPut j.fails x n } }
    if 16 ≤ n then s2.failPort m else s2

/-- Seal and offer a node of a port being formatted (R194): zero counters under a parent counter of 0. Where the key store refuses the
tree leaf, the write counts as failed. -/
def State.formatSend (s : State) (m x : Nat) : State :=
  let body := List.replicate 120 0#8
  let s1 := s.modPort m fun p => { p with fmt := p.fmt.map fun (j : LineJob) => { j with outstanding := j.outstanding + 1 } }
  match s.treeRefuse m with
  | some e => (s1.refuseUse e).formatFailed m x
  | none => s1.offer m { write := true, addr := x, mdata := true, data := body ++ metaTag (s.treeKeys m) 0 x body, why := .format }

/-- Write the next node of a port being formatted. -/
def State.formatStep (s : State) (m : Nat) (j : LineJob) : State :=
  (s.modPort m fun p => { p with fmt := some { j with next := j.next + 1 } }).formatSend m (metaBase (s.port m).dcap 1 + 128 * j.next)

/-- Initialise the next page, or the next line in tag mode, of a region (R197), in the sweep class: the lines that it makes dirty
and writes are charged at their lanes (R237). -/
def State.initStep (s : State) (m : Nat) (j : LineJob) (rest : List LineJob) : State :=
  let p := s.port m
  let g := tblGet p.regions j.region {}
  let put := fun (p : MemPort) => { p with init := { j with next := j.next + 1 } :: rest }
  if !s.usable g.slot then s.retireRegion m j.region
  else if p.mode = 1 then
    let x := metaBase p.dcap 0 + 128 * (g.base + j.next)
    let zero := List.replicate 128 0#8
    let fresh := fun (p : MemPort) => put { p with poisoned := p.poisoned.filter (fun a => decide (a / 2 ^ 14 ≠ g.base + j.next)) }
    if (tblFind p.cache x).isSome then s.modPort m fun p => fresh (cacheSwept (cacheWrite p x fun _ => zero) x .init)
    else match cacheInstall p x zero true with
      | .ok q => s.modPort m fun _ => fresh (cacheSwept q x .init)
      | .error (some y) => s.writeBack m y
      | .error none => s
  else
    let a := g.base * 2 ^ 14 + 128 * j.next
    s.modPort m fun p => { put p with waiting := p.waiting ++ [⟨a, .store (List.replicate 128 0#8), g.part, 11, localContender 11, .none, 0, false, 0⟩] }

/-- Clear the poisoned lines of the next page of a scrub, or, in tag mode, of the poison list (R222). -/
def State.scrubStep (s : State) (m : Nat) (j : LineJob) : State :=
  let p := s.port m
  let g := tblGet p.regions j.region {}
  let clear := fun (s : State) (as : List Nat) => s.modPort m fun p =>
    { p with scrub := some { j with next := j.next + 1, outstanding := j.outstanding + as.length }, waiting := p.waiting ++ as.map (fun a => ⟨a, .store (List.replicate 128 0#8), g.part, 11, localContender 11, .scrub m, 0, false, 0⟩) }
  if g.state ≠ 2 && g.state ≠ 3 then s.modPort m fun p => { p with scrub := some { j with next := j.stop } }
  else if p.mode = 2 then
    clear s (p.root.filterMap fun kv =>
      let a := bits kv.2 35 0 * 128
      if bit kv.2 63 && decide (g.base * 2 ^ 14 ≤ a ∧ a < (g.base + g.pages) * 2 ^ 14) then some a else none)
  else
    let page := g.base + j.next
    let x := metaBase p.dcap 0 + 128 * page
    match tblFind p.cache x with
    | some c => clear s ((List.range 128).filterMap fun i => if ctrMinor c.data i = 0x7F then some (page * 2 ^ 14 + 128 * i) else none)
    | none =>
      let a := page * 2 ^ 14
      if (s.point m a).op.isSome then s
      else
        let need := missing p (metaUp p.dcap x)
        (s.countCache m 0 need.length).holdOp m ⟨a, .load, g.part, 8, byScrub, .none, 0, false, 0⟩ need

/-- Move one background job of a port on: formatting, or the scrub. -/
def State.background (s : State) (m : Nat) : State :=
  let p := s.port m
  match p.fmt, p.scrub with
  | some j, _ => if j.next < j.stop then s.formatStep m j else s
  | none, some j => if j.next < j.stop then s.scrubStep m j else s
  | none, none => s

/-- Move the region being initialised on by one line, where the cap of the class has room and the line before is on its way. -/
def State.initNext (s : State) (m : Nat) : State :=
  let p := s.port m
  match p.init.find? fun j => decide (j.next < j.stop) with
  | none => s
  | some j =>
    let waits := p.waiting.any fun q => ((regionAt p q.line).map (·.1)) = some j.region
    if waits || !s.sweepRoom m then s else s.initStep m j (p.init.filter fun i => i.region ≠ j.region)

/-! ## The lanes (R41, R428) -/

/-- The partition a lane request is charged to: that of the region its data line or its metadata belongs to (Table 17.5). -/
def State.lanePart (s : State) (m : Nat) (r : LaneReq) : Option Nat :=
  let p := s.port m
  match r.why with
  | .op l => s.partAt m l
  | .fetch l => s.partAt m l
  | .data l => s.partAt m l
  | .writeBack =>
    if r.addr < metaBase p.dcap 0 then s.partAt m ((r.addr - p.dcap) * 16)
    else if r.addr < metaBase p.dcap 1 then s.partAt m (metaIndex p.dcap r.addr * 2 ^ 14) else none
  | .format => none

/-- The rating of a regulated port per window (Table 17.5). -/
def ratingOf (port : Nat) : Nat := if port < 8 then 2400000 else if port < 40 then 200000 else 128000

/-- A partition's minimum in force on a regulated port, in bytes of one window (R428, R431). -/
def State.minOf (s : State) (port part : Nat) : Nat :=
  let v := s.setting (0x5210 + port) (part + 1)
  let b := ratingOf port * bits v 15 0 / 1000
  match tblFind s.power.scale (usedKey port part) with
  | some x => x
  | none => b

/-- The place of a master's request in a window's order (R428): first the masters below their minimum, round-robin after
the one served last; then the others, those first that have had the fewest bytes above their minimum for their weight. -/
def State.masterRank (s : State) (port turn part : Nat) : Nat :=
  let used := tblGet s.power.used (usedKey port part) 0
  let w := max 1 (bits (s.setting (0x5210 + port) (part + 1)) 23 16)
  if used < s.minOf port part then (part + 63 - turn % 64) % 64 else 64 + (used - s.minOf port part) * 255 / w

/-- May a class be served in this window: the sweep and the writer class up to their caps (R237, R429). -/
def State.classRoom (s : State) (m : Nat) (c : LaneClass) : Bool :=
  match c with
  | .sweep => s.sweepRoom m
  | .init => s.sweepRoom m
  | .writer => decide ((s.port m).writerUsed + 128 ≤ s.writerCap)
  | _ => true

/-- The place of a request in its lane's order (R217, R237, R428): page moves, the sweep class with sweep and initialisation in
turn, the writer class, then the engine's own metadata and the masters in their order. -/
def State.laneRank (s : State) (m : Nat) (r : LaneReq) : Nat :=
  let p := s.port m
  match r.cls with
  | .move => 0
  | .sweep => if p.initTurn then 1 else 2
  | .init => if p.initTurn then 2 else 1
  | .writer => 3
  | .master => match s.lanePart m r with
    | none => 4
    | some q => 5 + s.masterRank m p.turn q

/-- The offered request a lane takes next. -/
def State.lanePick (s : State) (m lane : Nat) : Option LaneReq :=
  argMin (fun r => s.laneRank m r) ((s.port m).offered.filter fun r => laneOf r.addr = lane && s.classRoom m r.cls)

/-- Charge a line to the class that caused it, or to the partition it is for (R237, R427, R429). -/
def State.laneCharge (s : State) (m : Nat) (r : LaneReq) : State :=
  let swept := fun (turn : Bool) => s.modPort m fun p => { p with sweep := { p.sweep with used := p.sweep.used + 128 }, initTurn := turn }
  match r.cls with
  | .sweep => swept false
  | .init => swept true
  | .writer => s.modPort m fun p => { p with writerUsed := p.writerUsed + 128 }
  | _ => match s.lanePart m r with
    | some q =>
      let below := decide (tblGet s.power.used (usedKey m q) 0 < s.minOf m q)
      (s.modPort m fun p => { p with turn := if r.cls = .master && below then q else p.turn }).charge m q 128
    | none => s

/-- Remove one request from those offered. -/
def dropOffered (p : MemPort) (r : LaneReq) : MemPort := { p with offered := p.offered.erase r }

/-- A lane transfers a request to its controller, under the lowest free tag (R41); initialisation moves on first, and with nothing
offered on the lane formatting or a scrub does. -/
def State.laneIssue (s0 : State) (m lane : Nat) : State :=
  let s := if (s0.port m).ctrlUp then s0.initNext m else s0
  let p := s.port m
  if !p.ctrlUp then s
  else match s.lanePick m lane with
    | none => if p.offered.any fun r => laneOf r.addr = lane then s else s.background m
    | some r => match freeTag p lane with
      | none => s
      | some t =>
        let s1 := (s.modPort m fun p => { dropOffered p r with tags := tblPut p.tags (tagKey lane t) r }).emit
          (.lineReq m lane t r.write r.addr r.mdata (if r.write then r.data else List.replicate 128 0#8))
        (s1.bumpBy 0x6200 (m + 1) 128).laneCharge m r

/-- The outcome of a lane request reaches what asked for it (R42, R206, R220). -/
def State.laneDone (s : State) (m : Nat) (r : LaneReq) (res : Except Code Bytes) : State :=
  let err := fun (c : Code) => if c = .timeout then 0x1007 else 0x1005
  let s1 := match r.why, res with
    | .op l, .ok b => s.opArrived m l r.addr (.ok b)
    | .op l, .error c => s.opArrived m l r.addr (.error (c, err c))
    | .fetch _, .ok b => s.fetchArrived m r.addr (.ok b)
    | .fetch _, .error c => s.fetchArrived m r.addr (.error (c, err c))
    | .data l, .ok _ => s.writeDone m l none
    | .data l, .error c => s.writeDone m l (some (c, 0x1006))
    | .writeBack, .ok _ => s.writeBackDone m r.addr
    | .writeBack, .error _ => s.writeBackFailed m r.addr
    | .format, .ok _ => s.modPort m fun p =>
        { p with fmt := p.fmt.map (fun (j : LineJob) => { j with outstanding := j.outstanding - 1, fails := tblDel j.fails r.addr }) }
    | .format, .error _ => s.formatFailed m r.addr
  (s1.retryOps m).pump m

/-- A controller response (R42, R43, R504): a late one is discarded and frees its tag. -/
def State.laneResponse (s : State) (m lane tag status : Nat) (data : Bytes) : State :=
  let s := s.touch 6 m
  let k := tagKey lane tag
  match tblFind (s.port m).tags k with
  | none => s
  | some r =>
    let s0 := s.modPort m fun p => { p with tags := tblDel p.tags k }
    let late := fun (s : State) => (s.bump 0x3047 (m + 1)).error 0 m none 0x1008 r.addr
    if r.late then late s0
    else match s0.takeInjection 3 m with
      | some t => late (t.laneDone m r (.error .timeout))
      | none =>
        match status with
        | 2 => s0.laneDone m r (.error .integrity)
        | 3 => s0.laneDone m r (.error .timeout)
        | n => (if n = 1 then s0.bump 0x3048 (m + 1) else s0).laneDone m r (.ok (padTo 128 data))

/-- LINE_BOUND_US passes (R43): the operation ends as for a controller timeout, and the tag stays reserved. -/
def State.laneExpiry (s : State) (m lane tag : Nat) : State :=
  let k := tagKey lane tag
  match tblFind (s.port m).tags k with
  | none => s
  | some r => if r.late then s
    else (s.modPort m fun p => { p with tags := tblPut p.tags k { r with late := true } }).laneDone m r (.error .timeout)

/-- A request that waits for its lane while the controller is down reaches its bound (R194): one offered, or a read that still
waits for its easel entry. -/
def State.laneWait (s : State) (m lane : Nat) : State :=
  let p := s.port m
  if p.ctrlUp then s
  else match p.offered.find? fun r => laneOf r.addr = lane with
    | some r =>
      let s0 := s.modPort m fun p => dropOffered p r
      match r.why with
      | .data a => ((s0.writeUnsent m a).retryOps m).pump m
      | _ => s0.laneDone m r (.error .timeout)
    | none => match p.easelWait.find? fun e => laneOf e.addr = lane with
      | none => s
      | some e =>
        let s0 := s.modPort m fun p => { p with easelWait := p.easelWait.erase e }
        ((if e.addr < p.dcap then s0.opArrived m e.line e.addr (.error (.timeout, 0x1007)) else s0.fetchArrived m e.addr (.error (.timeout, 0x1007))).retryOps m).pump m

/-- What an uncorrectable codeword of the metadata cache or the root store causes (Table 8.12), by the cached line it lies in, none
for a root entry: a clean line is discarded, to be fetched again; a dirty counter line or node, or a root entry, ends in a block
fault. A dirty tag line, which the table does not name, is discarded as a clean one is, and its lines then fail their tags. No command
of the table changes a stored word, so no row brings one (log entry 99). -/
def State.metaCodeword (s : State) (m : Nat) (x : Option Nat) : State :=
  match x with
  | none => s.blockFault 0xB003
  | some x => match tblFind (s.port m).cache x with
    | none => s
    | some c =>
      if c.dirty && c.kind ≠ 0 then s.blockFault 0xB003
      else (s.modPort m fun p => { p with cache := tblDel p.cache x }).error 0 m none 0xB002 x

/-- LINE_REQUEST_ISSUE (R41). -/
def execLineRequestIssue (port lane : Nat) (s : State) : Host.Outcome State Fault Refusal := s.portRow port fun s => s.laneIssue port lane

/-- LINE_RESPONSE (R42, R43). -/
def execLineResponse (port lane tag status : Nat) (data : Bytes) (s : State) : Host.Outcome State Fault Refusal :=
  s.portRow port fun s => s.laneResponse port lane tag status data

/-- LINE_BOUND_EXPIRY (R43). -/
def execLineBoundExpiry (port lane tag : Nat) (s : State) : Host.Outcome State Fault Refusal := s.portRow port fun s => s.laneExpiry port lane tag

/-- LANE_WAIT_TIMEOUT (R194). -/
def execLaneWaitTimeout (port lane : Nat) (s : State) : Host.Outcome State Fault Refusal := s.portRow port fun s => s.laneWait port lane

/-- CONTROLLER_UP (R194): ln_ctrl_up is an input, and its level is kept through a reset. -/
def execControllerUp (port : Nat) (s : State) : Host.Outcome State Fault Refusal :=
  withUnit (decide (port < s.cfg.memPorts)) (doneS ((s.modPort port fun p =>
    { p with ctrlUp := true, state := if p.state = 0 && s.alive then 1 else p.state }).stateTrace 0 port (s.port port).state
      (if (s.port port).state = 0 && s.alive then 1 else (s.port port).state)))

/-- CONTROLLER_DOWN (R194): only an unformatted port returns to down. -/
def execControllerDown (port : Nat) (s : State) : Host.Outcome State Fault Refusal :=
  withUnit (decide (port < s.cfg.memPorts)) (doneS ((s.modPort port fun p =>
    { p with ctrlUp := false, state := if p.state = 1 then 0 else p.state }).stateTrace 0 port (s.port port).state (if (s.port port).state = 1 then 0 else (s.port port).state)))

/-! ## Order points (R214, R279) -/

/-- The source that a waiting request comes from (R276): a source of this hub, or a member over a link. -/
def State.reqSource (s : State) (q : LineReq) : Option (Nat × Nat) :=
  match q.reply with
  | .otag k => (tblFind s.otags k).map fun o => (2 ^ 16, o.source)
  | .link l _ src _ _ _ _ => some (l, src)
  | _ => none

/-- Does an earlier store or atomic of a request's source still wait at this member: a later one may not be taken before it (R277). -/
def State.overtakes (s : State) (q : LineReq) : Bool :=
  match s.reqSource q with
  | none => false
  | some k => q.acc.writes && (List.range s.cfg.memPorts).any fun i =>
      (s.port i).waiting.any fun x => decide (x.seq < q.seq) && x.acc.writes && s.reqSource x = some k

/-- Does the write of a line's held copy find no way now: no transition register is free, or the transition under way has to end first
(R217, R218, R225); reads go on meanwhile. -/
def State.heldBlocked (s : State) (m a : Nat) : Bool :=
  let p := s.port m
  let x := metaLine p.dcap 0 a
  let full := decide (s.minor m a = 126 ∨ s.minor m a = 0x7F)
  p.mode = 1 && (match transitionOf p x with
    | some t => t.toNext || (t.moved.contains (a / 128 % 128) && full)
    | none => full && decide (16 ≤ p.transitions.length))

/-- The request an order point takes: the sweep's first (R214), then the engine's write of a held copy that finds a way, then a head
that has lost 256 arbitrations, the oldest of them, then round robin over the contenders' heads that overtake no earlier store of
their source (R277). -/
def State.pointPick (s : State) (m a : Nat) : Option LineReq :=
  let mine := (s.port m).waiting.filter fun q => q.line = a
  match mine.find? fun q => q.contender = byAhead with
  | some q => some q
  | none => match mine.find? fun q => decide (100 ≤ q.contender) && !s.heldBlocked m a with
    | some q => some q
    | none =>
      let heads := ((dedup (mine.map (·.contender))).filterMap fun c => mine.find? fun q => q.contender = c).filter fun q =>
        decide (q.contender < 100) && !s.overtakes q
      match heads.find? fun q => decide (256 ≤ q.losses) with
      | some q => some q
      | none => match nextRound (s.point m a).last (heads.map (·.contender)) with
        | none => mine.find? fun q => decide (100 ≤ q.contender)
        | some c => heads.find? fun q => q.contender = c

/-- The waiting requests after one has been taken: the heads of the other contenders have lost once more. -/
def afterTake (waiting : List LineReq) (q : LineReq) : List LineReq :=
  let rest := waiting.erase q
  let heads := (dedup ((rest.filter fun x => x.line = q.line).map (·.contender))).filterMap fun c => rest.find? fun x => x.line = q.line && x.contender = c
  rest.map fun x => if heads.contains x && x.contender ≠ q.contender then { x with losses := x.losses + 1 } else x

/-- A free order point takes its next request and serves it; a line held for poisoning takes none (R220), and on a failed
port every request that waits ends with TIMEOUT. -/
def State.pointTake (s : State) (m a : Nat) : State :=
  let o := s.point m a
  if o.op.isSome || o.poisonTry.isSome && (s.port m).state ≠ 4 then s
  else match s.pointPick m a with
    | none => s.pointFreed m a
    | some q =>
      let s0 := if 256 ≤ q.losses && q.contender < 100 then s.bump 0x3240 6 else s
      let s1 := (s0.modPort m fun p => { p with waiting := afterTake p.waiting q }).modPoint m a fun o => { o with last := q.contender }
      if (s.port m).state = 4 then (if q.contender = byHeld then s1.failHeld m a .timeout 0x100F else (s1.error 0 m (some q.part) 0x100F a).failLine q .timeout 0x100F)
      else
        let kind := match q.acc with | .load => 0 | .store _ => 1 | _ => 2
        let s2 := if q.contender < 100 then s1.accessTrace m q.part a kind else s1
        ((s2.serve m q).retryOps m).pump m

/-- ORDER_POINT_TAKE (R214, R279). -/
def execOrderPointTake (port line : Nat) (s : State) : Host.Outcome State Fault Refusal := s.portRow port fun s => s.pointTake port line

/-- MOVE_READ_RETRY (R218): a line whose move read failed is read again. -/
def execMoveReadRetry (port line : Nat) (s : State) : Host.Outcome State Fault Refusal :=
  s.portRow port fun s =>
    let p := s.port port
    let a := line / 128 * 128
    let o := s.point port a
    match transitionOf p (metaLine p.dcap 0 a) with
    | none => s
    | some t =>
      if tblGet t.fails (a / 128 % 128) 0 = 0 || o.op.isSome || o.outstanding || o.poisonTry.isSome then s
      else if o.unwritten then (s.moveHeld port a).pump port
      else s.holdOp port ⟨a, .load, 0, 7, byMove, .none, 0, false, 0⟩ (a :: missing p [tagLine p.dcap a])

/-- WRITE_BACK (R206): a dirty line that is neither pinned nor in use leaves the cache (Table 8.13). -/
def execWriteBack (port addr : Nat) (s : State) : Host.Outcome State Fault Refusal :=
  s.portRow port fun s => if (tblGet (s.port port).cache addr {}).pinned || lineInUse (s.port port) addr then s else s.writeBack port addr

/-- WRITE_BACK_RETRY (R206, R194): a failed write-back, or a failed write of formatting, is sent again. -/
def execWriteBackRetry (port addr : Nat) (s : State) : Host.Outcome State Fault Refusal :=
  s.portRow port fun s =>
    let p := s.port port
    match p.fmt with
    | some j =>
      let busy := (p.offered.any fun r => r.addr = addr) || (p.tags.any fun kv => kv.2.addr = addr && !kv.2.late)
      if p.state ≠ 2 || tblGet j.fails addr 0 = 0 || busy then s else s.formatSend port addr
    | none => s.writeBackAgain port addr

/-- COUNTER_LINE_RETRY (R220): the counter line of a line to be poisoned is fetched again. -/
def execCounterLineRetry (port line : Nat) (s : State) : Host.Outcome State Fault Refusal :=
  s.portRow port fun s =>
    let p := s.port port
    let a := line / 128 * 128
    let o := s.point port a
    if o.poisonTry.isNone || o.op.isSome || p.state = 4 then s
    else match missing p (metaChain p.dcap a) with
      | [] => ((s.setMinor port a 0x7F).poisonCount port a true).modPoint port a fun o => { o with poisonTry := none }
      | need => s.holdOp port ⟨a, .load, 0, 8, byPoison, .none, 0, false, 0⟩ need

end Sys2Proof.Machine
end

