-- ==== Sys2Proof/Machine/Regions.lean ====
section
/-! DEFINITION. Sys2Proof/Machine/Regions.lean: formatting a port, and the life of its regions (R194 to R198, R222). -/
namespace Sys2Proof.Machine

/-- The lowest free leaf slot (R197, R323). -/
def State.freeLeaf (s : State) : Option Nat :=
  let i := firstGap (s.keys.slots.filter fun kv => kv.1 < 65536 && kv.2.state ≠ 0) 0
  if i < 65536 then some i else none

/-- A write of 0x3004 (R194): the checks, then the layout, the tree key, the root store and the formatting writes. DESIGN CHOICE (log
entry 99): R194 names no refusal where no leaf slot is free for the tree key, or the DRBGs are stopped: it is refused as R197 refuses
a region then, with the resource abort code and the key store's 0x8003 or 0x8008 recorded. -/
def State.formatWrite (s : State) (m v : Nat) : Except Nat State :=
  let tree := decide (s.setting 0x3001 (m + 1) = 1)
  let d := dataCapacity tree (s.setting 0x3002 (m + 1))
  if s.cfg.memPorts ≤ m then .error 0x0609
  else if (s.port m).state ≠ 1 then .error 0x0801
  else if v ≠ 1 || d = 0 then .error 0x0609
  else match s.freeLeaf with
    | none => .error 0x80030802
    | some i => match s.createLeaf i 2 0x41 0 (kindUse 2) 0 m 0 with
      | .error 8 => .error 0x80080802
      | .error _ => .error 0x0801
      | .ok t =>
        let root := if tree then (List.range ((d + 2 ^ 30 - 1) / 2 ^ 30)).map fun k => (k, 2 ^ 63) else []
        let nodes := if tree then (metaBase d 5 - metaBase d 1) / 128 else 0
        .ok ((t.modPort m fun p =>
          { p with state := 2, mode := s.setting 0x3001 (m + 1), dcap := d, treeSlot := i, root := root, cache := [], regions := [], points := [], poisoned := [],
                   fmt := some { region := 0, next := 0, stop := nodes } }).stateTrace 0 m 1 2)

/-- FORMAT. -/
def execFormat (m : Mgmt) (port value : Nat) (s : State) : Host.Outcome State Fault Refusal :=
  doneS (s.dictWrite m 0x3004 (port + 1) (leBytes 1 value) fun s => s.formatWrite port value)

/-- FORMAT_COMPLETE (R194): every node has been written, and the port is ready. -/
def execFormatComplete (port : Nat) (s : State) : Host.Outcome State Fault Refusal :=
  s.portRow port fun s => match (s.port port).fmt with
    | some j =>
      if (s.port port).state = 2 && decide (j.stop ≤ j.next) && j.outstanding = 0 && j.fails.isEmpty then
        (s.modPort port fun p => { p with state := 3, fmt := none }).stateTrace 0 port 2 3
      else s
    | none => s

/-- Fields of a region record as written (Table 8.3). -/
def recBase (v : Nat) : Nat := bits v 28 0
@[inherit_doc recBase] def recPages (v : Nat) : Nat := bits v 60 32
@[inherit_doc recBase] def recKind (v : Nat) : Nat := bits v 65 64
@[inherit_doc recBase] def recPart (v : Nat) : Nat := bits v 71 66
@[inherit_doc recBase] def recState (v : Nat) : Nat := bits v 74 72

/-- Does a new region reach into one that is not free (R197). -/
def overlaps (p : MemPort) (base pages : Nat) : Bool := p.regions.any fun kv => decide (kv.2.base < base + pages ∧ base < kv.2.base + kv.2.pages)

/-- Creation of a region (R197): the refusals in the order of R460, each abort code with the error code it records above it, then
a fresh key slot and initialisation. -/
def State.regionCreate (s : State) (m r v : Nat) : Except Nat State :=
  let p := s.port m
  let part := recPart v
  let exists_ := decide ((s.partn part).state ≠ 0)
  if p.state ≠ 3 || (2 ≤ recState v && recState v ≤ 4) || (exists_ && !(s.usable (partSlot part) && s.fertile (partSlot part))) then .error 0x0801
  else if 5 ≤ recState v || !exists_ || recPages v = 0 || p.dcap < (recBase v + recPages v) * 2 ^ 14 || overlaps p (recBase v) (recPages v) then .error 0x0609
  else match s.freeLeaf with
    | none => .error 0x80030802
    | some i => match s.createLeaf i 1 part 0 (regionUse (recKind v)) s.memberField m r with
      | .error 8 => .error 0x80080802
      | .error _ => .error 0x0801
      | .ok t =>
        let g : Region := { base := recBase v, pages := recPages v, kind := recKind v, part := part, state := 1, slot := i }
        let stop := if p.mode = 1 then recPages v else 128 * recPages v
        .ok (t.modPort m fun p => { p with regions := tblPut p.regions r g, init := p.init ++ [{ region := r, next := 0, stop := stop }] })

/-- A write of a region record by a role (R196 to R198): a record that is not free takes the removal write alone, and the
KIND of system regions is the Installer's. -/
def State.regionWrite (m r : Nat) (b : Bytes) (role : Role) (s : State) : Except Nat State :=
  let v := leNat b
  if s.cfg.memPorts ≤ m then .error 0x0609
  else if recState v ≠ 0 && recKind v = 3 && role ≠ .installer then .error 0x0601
  else match tblFind (s.port m).regions r with
    | some _ => if recState v = 0 then .ok (s.retireRegion m r) else .error 0x0801
    | none => if recState v = 0 then .ok s else s.regionCreate m r v

/-- REGION_CREATE. -/
def execRegionCreate (m : Mgmt) (port region : Nat) (record : Bytes) (s : State) : Host.Outcome State Fault Refusal :=
  doneS (s.dictWriteAs m (0x3020 + port) region record (State.regionWrite port region record))

/-- REGION_REMOVE. -/
def execRegionRemove (m : Mgmt) (port region : Nat) (record : Bytes) (s : State) : Host.Outcome State Fault Refusal :=
  doneS (s.dictWriteAs m (0x3020 + port) region record (State.regionWrite port region record))

/-- REGION_INIT_COMPLETE (R197): the last initialisation write of the first region whose job has ended is done. -/
def execRegionInitComplete (port : Nat) (s : State) : Host.Outcome State Fault Refusal :=
  s.portRow port fun s => match (s.port port).init.find? fun j => decide (j.stop ≤ j.next) && !s.regionBusy port j.region with
    | none => s
    | some j =>
      let g := tblGet (s.port port).regions j.region {}
      if !s.usable g.slot then s.retireRegion port j.region
      else s.modPort port fun p =>
        { p with init := p.init.filter (fun i => i.region ≠ j.region), regions := tblPut p.regions j.region { g with state := 2 } }

/-- REGION_REMOVAL_DONE (R198): the accepted requests of a retiring region are over. -/
def execRegionRemovalDone (port region : Nat) (s : State) : Host.Outcome State Fault Refusal :=
  s.portRow port fun s =>
    let g := tblGet (s.port port).regions region {}
    if g.state = 4 && (s.partn g.part).state ≠ 3 && !s.regionBusy port region then s.dropRegion port region else s

/-- A write of 0x3030 (R222). -/
def State.scrubWrite (s : State) (m r : Nat) : Except Nat State :=
  let p := s.port m
  if s.cfg.memPorts ≤ m then .error 0x0609
  else if p.scrub.isSome || (tblGet p.regions r {}).state ≠ 2 then .error 0x0801
  else .ok (s.modPort m fun p => { p with scrub := some { region := r, next := 0, stop := if p.mode = 1 then (tblGet p.regions r {}).pages else 1 } })

/-- REGION_SCRUB. -/
def execRegionScrub (m : Mgmt) (port region : Nat) (s : State) : Host.Outcome State Fault Refusal :=
  doneS (s.dictWrite m 0x3030 (port + 1) (leBytes 1 region) fun s => s.scrubWrite port region)

/-- SCRUB_COMPLETE (R222). -/
def execScrubComplete (port : Nat) (s : State) : Host.Outcome State Fault Refusal :=
  s.portRow port fun s => match (s.port port).scrub with
    | some j => if decide (j.stop ≤ j.next) && j.outstanding = 0 then s.modPort port fun p => { p with scrub := none } else s
    | none => s

end Sys2Proof.Machine
end

