-- ==== Sys2Proof/Machine/Sweep.lean ====
section
/-! DEFINITION. Sys2Proof/Machine/Sweep.lean: the rekey sweep and its wet edge (R228 to R242). -/
namespace Sys2Proof.Machine

/-- Change the sweep engine of a port. -/
def State.modSweep (s : State) (m : Nat) (f : Sweep → Sweep) : State := s.modPort m fun p => { p with sweep := f p.sweep }

/-- A write of 0x3103 (R230). -/
def State.sweepQueue (s : State) (m r : Nat) : Except Nat State :=
  let p := s.port m
  if s.cfg.memPorts ≤ m then .error 0x0609
  else if p.sweep.queued.contains r || (p.sweep.active && p.sweep.region = r && r ≠ 0) then .ok s
  else if r ≠ 0 && (tblGet p.regions r {}).state ≠ 2 then .error 0x0801
  else if r = 0 then .error 0x0609
  else .ok ((s.modSweep m fun w => { w with queued := w.queued ++ [r] }).setSetting 0x3103 (m + 1) r)

/-- SWEEP_QUEUE. -/
def execSweepQueue (m : Mgmt) (port region : Nat) (s : State) : Host.Outcome State Fault Refusal :=
  doneS (s.dictWrite m 0x3103 (port + 1) (leBytes 1 region) fun s => s.sweepQueue port region)

/-- AUTOMATIC_INTERVAL (R230): an interval that expires while an automatic round is still running starts the next when it is over;
sweeps that software queued hold no round up. -/
def execAutomaticInterval (port : Nat) (s : State) : Host.Outcome State Fault Refusal :=
  s.portRow port fun s =>
    if s.setting 0x3102 (port + 1) = 0 then s
    else
      if (s.port port).sweep.roundRuns then s.modSweep port fun w => { w with roundDue := true } else s.queueRound port

/-- Take the head of the sweep queue (R231). A region that is no longer live is passed over; one at its generation end
stays live, and the status reports stopped until the next sweep starts. DESIGN CHOICE (log entry 99): a key store that refuses for
another reason, on which R231 is silent, takes the region from the queue under its own code, and the status stays as it was. -/
def State.sweepStart (s : State) (m : Nat) : State :=
  let p := s.port m
  if p.state ≠ 3 || p.sweep.active then s
  else
    let s0 := (s.modSweep m fun w => { w with queued := w.queued.filter fun r => (tblGet p.regions r {}).state = 2 }).roundCheck m
    let w0 := (s0.port m).sweep
    match w0.queued with
    | [] => s0
    | r :: rest =>
      let g := tblGet p.regions r {}
      let g0 := (s.slot g.slot).gen
      let s1 := s0.modSweep m fun w => { w with queued := rest, region := r, fromGen := g0, edge := 0, ahead := [], asked := [], fails := [], skip := [] }
      let s2 := s0.modSweep m fun w => { w with queued := rest }
      let k := if (s.slot g.slot).next then Except.ok s1 else s1.setNextGen g.slot []
      if !s.usable g.slot then (s2.refuseUse 0x8001).roundCheck m
      else if !bit (s.slot g.slot).use 7 then (s2.refuseUse 0x8002).roundCheck m
      else match k with
      | .error 4 => ((s1.modSweep m fun w => { w with state := 4 }).error 0 m (some g.part) 0x8004 (g.base * 2 ^ 14)).roundCheck m
      | .error e => (s2.keyRefused e).roundCheck m
      | .ok t => (t.modPort m fun p =>
        { p with regions := tblPut p.regions r { g with state := 3 }, sweep := { p.sweep with state := 1, edge := g.base * 2 ^ 14 } }).pinEdge m

/-- SWEEP_START. -/
def execSweepStart (port : Nat) (s : State) : Host.Outcome State Fault Refusal := s.portRow port fun s => s.sweepStart port

/-- Does the edge reseal a line (R232): not a zero line, not a poisoned one, not a line of a page under NEXT_GEN; none while the
page's counter line, which tells, is not at hand. -/
def State.resealed (s : State) (m a : Nat) : Option Bool :=
  let p := s.port m
  if p.sweep.skip.contains a then some false
  else if p.mode = 2 then some (poisonKey p a).isNone
  else (tblFind p.cache (metaLine p.dcap 0 a)).map fun c =>
    !ctrNextGen c.data && ctrMinor c.data (a / 128 % 128) ≠ 0 && ctrMinor c.data (a / 128 % 128) ≠ 0x7F

/-- A request of the sweep engine for a line, put at its order point. -/
def State.askAhead (s : State) (m a : Nat) : State :=
  s.modPort m fun p => { p with waiting := p.waiting ++ [⟨a, .load, (s.partAt m a).getD 0, 7, byAhead, .none, 0, false, 0⟩], sweep := { p.sweep with asked := p.sweep.asked ++ [a] } }

/-- Read metadata lines on their own for the sweep (R232): at the order point of line `a`, where it is free. -/
def State.askPage (s : State) (m a : Nat) (need : List Nat) : State :=
  let o := s.point m a
  if o.op.isSome || o.outstanding || o.unwritten || o.poisonTry.isSome || need.isEmpty then s
  else (s.countCache m 0 need.length).holdOp m ⟨a, .load, (s.partAt m a).getD 0, 7, byPage, .none, 0, false, 0⟩ need

/-- Read the next line ahead of the edge (R233, R237): at most 64 lines of a lane, within the cap of the window. The counter line
of a page comes first, on its own (R232). -/
def State.readAhead (s : State) (m : Nat) : State :=
  let p := s.port m
  let w := p.sweep
  if !(w.state = 1 || w.state = 2) || !s.sweepRoom m then s
  else
    let held := fun (a : Nat) => (tblFind w.ahead a).isSome || w.asked.contains a
    let load := fun (a : Nat) => ((w.ahead.map (·.1) ++ w.asked).filter fun x => laneOf x = laneOf a).length
    let last := s.sweepEnd m
    match ((List.range 512).map fun i => w.edge + 128 * i).find? fun a =>
        decide (a < last) && !held a && tblGet w.fails a 0 = 0 && s.resealed m a ≠ some false && decide (load a < 64) with
    | none => s
    | some a => if (s.resealed m a).isSome then s.askAhead m a else s.askPage m a (missing p (metaChain p.dcap a))

/-- READ_AHEAD. -/
def execReadAhead (port : Nat) (s : State) : Host.Outcome State Fault Refusal := s.portRow port fun s => s.readAhead port

/-- READ_AHEAD_RETRY (R236): a read ahead that failed is made again, within the cap. -/
def execReadAheadRetry (port line : Nat) (s : State) : Host.Outcome State Fault Refusal :=
  s.portRow port fun s =>
    let w := (s.port port).sweep
    let a := line / 128 * 128
    if !w.active || tblGet w.fails a 0 = 0 || w.asked.contains a || !s.sweepRoom port then s else s.askAhead port a

/-- The edge passes a line, or a page, and its pins move with it. -/
def State.edgeTo (s : State) (m a : Nat) : State :=
  (s.modSweep m fun w => { w with edge := a, state := 1, ahead := w.ahead.filter (fun kv => decide (a ≤ kv.1)), skip := w.skip.filter (fun x => decide (a ≤ x)), fails := w.fails.filter (fun kv => decide (a ≤ kv.1)) }).pinEdge m

/-- Reseal the edge line under g + 1 (R234): it keeps its MAJOR and minor, its ciphertext becomes the held copy, its write
is offered and the edge advances; the requests that wait for the line are counted. -/
def State.reseal (s : State) (m r : Nat) (g : Region) (a : Nat) (plain : Bytes) : State :=
  let p := s.port m
  let o := s.point m a
  if o.op.isSome || o.outstanding || o.unwritten || o.poisonTry.isSome || !s.sweepRoom m then s
  else if !s.usable g.slot then s.refuseUse 0x8001
  else match missing p [tagLine p.dcap a] with
    | x :: _ => s.askPage m a [x]
    | [] =>
      let minor := if p.mode = 1 then s.minor m a else 0
      let major := if p.mode = 1 then ctrMajor (tblGet p.cache (metaLine p.dcap 0 a) {}).data else 0
      let waits := (p.waiting.filter fun q => q.line = a).length
      let s1 := s.putLine m ⟨a, .store plain, g.part, 7, byAhead, .none, 0, false, 0⟩ g plain [] minor major ((s.slot g.slot).gen + 1)
      (((s1.bump 0x3105 (m + 1)).bumpBy 0x3106 (m + 1) waits).modSweep m fun w => { w with region := r }).edgeTo m (a + 128)

/-- The edge step (R232 to R235). -/
def State.edgeStep (s : State) (m : Nat) : State :=
  let p := s.port m
  let w := p.sweep
  let r := w.region
  let a := w.edge
  let g := tblGet p.regions r {}
  let x := metaLine p.dcap 0 a
  if !(w.state = 1 || w.state = 2) || p.state ≠ 3 || g.state ≠ 3 then s
  else if s.sweepEnd m ≤ a then (s.modSweep m fun w => { w with state := 3 }).pinEdge m
  else if p.mode = 1 && (transitionOf p x).isSome then (s.modSweep m fun w => { w with state := 2 }).pinEdge m
  else
    let s0 := (s.modSweep m fun w => { w with state := 1 }).pinEdge m
    let step := fun (s : State) =>
      if s.resealed m a ≠ some true then s.edgeTo m (a + 128)
      else match tblFind (s.port m).sweep.ahead a with
        | some plain => s.reseal m r g a plain
        | none => s
    if p.mode = 2 then step s0
    else match tblFind p.cache x with
      | none => if s.sweepRoom m then s0.askPage m a (missing p (metaChain p.dcap a)) else s0
      | some c =>
        if ctrNextGen c.data then
          if a % 2 ^ 14 = 0 then (s0.modPort m fun p => cacheSwept (cacheWrite p x fun b => setField b 56 56 0) x .sweep).edgeTo m (a + 2 ^ 14)
          else s0.edgeTo m (a + 128)
        else step s0

/-- EDGE_STEP. -/
def execEdgeStep (port : Nat) (s : State) : Host.Outcome State Fault Refusal := s.portRow port fun s => (s.edgeStep port).pump port

/-- The sweep completes (R238): every reseal write is acknowledged, generation g goes, the region is live under g + 1. A key
store that refuses leaves the region to its removal, every line under g + 1. -/
def State.sweepComplete (s : State) (m : Nat) : State :=
  let p := s.port m
  let w := p.sweep
  let g := tblGet p.regions w.region {}
  let rest := fun (s : State) => s.modSweep m fun w =>
    ({ queued := w.queued, round := w.round, roundDue := w.roundDue, roundAt := w.roundAt, used := w.used } : Sweep)
  if w.state ≠ 3 || (p.points.any fun kv => kv.2.sweepWrite) then s
  else match s.advanceGen g.slot with
    | .error e => (rest ((s.keyRefused e).modPort m fun p => { p with regions := tblPut p.regions w.region { g with edge := w.edge } })).roundCheck m
    | .ok t =>
      let g1 : Region := { g with state := 2, gen := (t.slot g.slot).gen % 2 ^ 16, edge := 0 }
      let s1 := rest (t.modPort m fun p => { p with regions := tblPut p.regions w.region g1 })
      ((s1.bump 0x3104 (m + 1)).setCount 0x3107 (m + 1) s.loc).roundCheck m

/-- SWEEP_COMPLETE. -/
def execSweepComplete (port : Nat) (s : State) : Host.Outcome State Fault Refusal := s.portRow port fun s => s.sweepComplete port

end Sys2Proof.Machine
end

