-- ==== Sys2Proof/Machine/Control.lean ====
section
/-! DEFINITION. Sys2Proof/Machine/Control.lean: doorbells, control pages and queue operations, the commands of the queue
manager, objects and fences (R372 to R395). -/
namespace Sys2Proof.Machine

/-! ## What a function reaches (R308) -/

/-- Is a context bound to a TDI that is not in RUN (R313). -/
def State.tdiHolds (s : State) (n : Nat) : Bool := match s.tdiOf n with | some (_, t) => t.state ≠ 2 | none => false

/-- Does a function of a host port reach a context: the function of the TDI it is bound to, or function 0 where it is bound
to none. -/
def State.reaches (s : State) (h fn n : Nat) : Bool :=
  match s.tdiOf n with
  | none => fn = 0
  | some (k, _) => fn ≠ 0 && k = tdiKey h (fn - 1)

/-- Record the last error of a host port, and the error. -/
def State.hostError (s : State) (h : Nat) (part : Option Nat) (e a : Nat) : State :=
  (s.modHost h fun p => { p with lastErr := e }).error 3 h part e a

/-- A BAR access that a function may not make (R308). -/
def State.barRefused (s : State) (h a : Nat) : State := (s.hostError h none 0x4003 a).bump 0x3340 (h + 1)

/-! ## Doorbells (R375, R376) -/

/-- Count an ignored doorbell. -/
def State.bellIgnored (s : State) : State := s.bump 0x5000 6

/-- A TAIL reaches an enabled queue. -/
def State.tailBell (s : State) (q v : Nat) : State :=
  let k := s.queue q
  let ahead := (v + 2 ^ 32 - k.tail) % 2 ^ 32
  if k.state ≠ 1 || ahead = 0 || 2 ^ 31 ≤ ahead then s.bellIgnored
  else if 2 ^ k.rlog < (v + 2 ^ 32 - k.head) % 2 ^ 32 then s.queueError q 0x6005 false
  else s.modQueue q fun k => { k with tail := v }

/-- A CHEAD reaches an enabled queue. -/
def State.cheadBell (s : State) (q v : Nat) : State :=
  let k := s.queue q
  if k.state ≠ 1 then s.bellIgnored
  else if 2 ^ k.clog < (k.ctail + 2 ^ 32 - v) % 2 ^ 32 then s.queueError q 0x6006 false
  else s.modQueue q fun k => { k with chead := v }

/-- A doorbell write whose sender reaches the queue: one write to a queue that is not enabled, or whose TDI is not in RUN, counts
once; a half counts only when it is whole, and one that arrives while the context resets waits. -/
def State.ring (s : State) (q be v : Nat) : State :=
  match s.ownerOf q with
  | none => s
  | some n =>
    let lo := be % 16
    let hi := be / 16 % 16
    if s.tdiHolds n then s.bellIgnored
    else if (s.ctx n).state = 2 then s.modQueue q fun k => { k with heldBells := k.heldBells ++ [(be, v)] }
    else if (s.queue q).state ≠ 1 then s.bellIgnored
    else
      let s1 := if lo ≠ 0 && lo ≠ 15 then s.bellIgnored else s
      let s2 := if hi ≠ 0 && hi ≠ 15 then s1.bellIgnored else s1
      let s3 := if lo = 15 then s2.tailBell q (v % 2 ^ 32) else s2
      if hi = 15 then s3.cheadBell q (v / 2 ^ 32 % 2 ^ 32) else s3

/-- A doorbell from its sender (R48, R305, R308): one that the sender does not reach is discarded and counted. -/
def State.doorbell (s : State) (r : Ringer) (q be v : Nat) : State :=
  match r with
  | .host h fn =>
    match (if s.cfg.queues ≤ q then none else s.ownerOf q) with
    | some n => if s.reaches h fn n then s.ring q be v else s.barRefused h (8 * q)
    | none => s.barRefused h (8 * q)
  | .chip c =>
    let bad := ((s.modChip c fun k => { k with lastErr := 0x300E }).error 1 c (s.chip c).bound 0x300E q).bellIgnored
    match s.ownerOf q with
    | some n =>
      if bit (s.ctx n).chipDb c && (s.chip c).bound = some (s.ctx n).part && (s.chip c).state = 4 then s.ring q 15 (v % 2 ^ 32) else bad
    | none => bad

/-- Is the port that a doorbell comes through in reset: it takes nothing then (R40). -/
def ringerDark (r : Ringer) (s : State) : Bool :=
  match r with
  | .host h _ => (s.host h).inReset
  | .chip c => (s.chip c).inReset

/-- DOORBELL. -/
def execDoorbell (r : Ringer) (q be value : Nat) (s : State) : Host.Outcome State Fault Refusal :=
  withUnit (match r with | .host h _ => decide (h < s.cfg.hostPorts) | .chip c => decide (c < s.cfg.chipPorts))
    (s.asked fun s => if ringerDark r s then s else s.doorbell r q be value)

/-! ## The control page (Table 15.2, R374) -/

/-- Count a queue operation refused for its state. -/
def State.stateRefused (s : State) : State := s.bump 0x5000 4

/-- GO of a queue operation: its cause, 0 where it is done. -/
def State.queueOp (s : State) (n op : Nat) : Nat × State :=
  let c := s.ctx n
  let q := c.qcfgQ
  let k := s.queue q
  if op = 0 || !decide (c.qbase ≤ q ∧ q < c.qbase + c.qcount) then (0x6003, s)
  else if op = 1 then
    let waits := match k.accepted with | some id => !(s.cmd id).waitPassed | none => false
    (0, s.modCtx n fun c =>
      { c with qcfgRing := k.ring + k.rlog * 2 ^ 48, qcfgCring := k.cring + k.clog * 2 ^ 48 + k.vec * 2 ^ 53, qcfgState := k.state + bn waits * 4 + k.head * 2 ^ 32, qcfgCount := k.tail + k.ctail * 2 ^ 32 })
  else if op = 2 then
    let ring := bits c.qcfgRing 47 0
    let rlog := bits c.qcfgRing 52 48
    let cring := bits c.qcfgCring 47 0
    let clog := bits c.qcfgCring 52 48
    let vec := bits c.qcfgCring 59 53
    if k.state ≠ 0 || c.state ≠ 1 then (0x6004, s.stateRefused)
    else if ring % 4096 ≠ 0 || cring % 4096 ≠ 0 || rlog < 4 || 20 < rlog || clog < 4 || 20 < clog || (64 ≤ vec && vec ≠ 0x7F) then (0x6003, s)
    else (0, s.modQueue q fun _ => { state := 1, ring := ring, rlog := rlog, cring := cring, clog := clog, vec := vec })
  else if k.state = 1 || k.state = 2 then
    let s1 := s.modQueue q fun k => { k with state := 3, fetching := false, fetched := none, probes := [], probing := [], probeFails := [] }
    (0, match k.accepted with | some id => s1.squashCmd id .squashed | none => s1)
  else (0x6004, s.stateRefused)

/-- Run GO and report it in QCFG_CMD. -/
def State.queueGo (s : State) (n op : Nat) : State :=
  let r := s.queueOp n op
  r.2.modCtx n fun c =>
    if r.1 = 0 then { c with qcfgOp := op, qcfgDone := true } else { c with qcfgOp := op, qcfgDone := true, qcfgErr := true, qcfgCause := r.1 }

/-- A control page register (Table 15.2); a free context's page reads as zero. -/
def State.pageRead (s : State) (n off : Nat) : Nat :=
  let c := s.ctx n
  if c.state = 0 then 0
  else match off / 8 with
    | 0 => c.state + c.part * 4 + c.resets * 2 ^ 32
    | 1 => bn c.fault + c.faultErr * 2 ^ 16 + c.faults * 2 ^ 32
    | 2 => c.qcfgOp + bn c.qcfgDone * 16 + bn c.qcfgErr * 32 + c.qcfgCause * 2 ^ 16
    | 3 => c.qcfgQ
    | 4 => c.qcfgRing
    | 5 => c.qcfgCring
    | 6 => c.qcfgState
    | 7 => c.qcfgCount
    | i => if 32 ≤ i && i < 96 then tblGet c.slots (i - 32) 0 else 0

/-- The bytes of `v` that are enabled, over `old`. -/
def enableBytes (n be old v : Nat) : Nat :=
  leNat ((leBytes n old).zipIdx.map fun b => if bit be b.2 then (leBytes n v).getD b.2 0#8 else b.1)

/-- A write of a control page register under its byte enables (R373). -/
def State.pageWrite (s : State) (n off be v : Nat) : State :=
  let c := s.ctx n
  let new := fun (old : Nat) => enableBytes 8 be old v
  if c.state = 0 then s
  else match off / 8 with
    | 1 => s.modCtx n fun c => { c with fault := c.fault && !(bit be 0 && bit v 0) }
    | 2 =>
      let op := if bit be 0 then v % 4 else c.qcfgOp
      let s1 := s.modCtx n fun c =>
        { c with qcfgOp := op, qcfgDone := c.qcfgDone && !(bit be 0 && bit v 4), qcfgErr := c.qcfgErr && !(bit be 0 && bit v 5) }
      if bit be 0 && bit v 2 then s1.queueGo n op else s1
    | 3 => s.modCtx n fun c => { c with qcfgQ := new c.qcfgQ % 2 ^ 18 }
    | 4 => s.modCtx n fun c => { c with qcfgRing := new c.qcfgRing % 2 ^ 53 }
    | 5 => s.modCtx n fun c => { c with qcfgCring := new c.qcfgCring % 2 ^ 60 }
    | i =>
      if 32 ≤ i && i < 96 then
        s.modCtx n fun c => { c with slots := tblSet c.slots (i - 32) (new (tblGet c.slots (i - 32) 0) % 2 ^ 64) 0 }
      else s

/-- A control page access of a function: one it does not reach is discarded and counted. -/
def State.pageBy (s : State) (h fn n : Nat) (f : State → State) : State :=
  if decide (n < s.cfg.contexts) && s.reaches h fn n then f s else s.barRefused h (0x200000 + 4096 * n)

/-- A row of a host port's control pages; a port in reset takes nothing (R40). -/
def State.pageRow (s : State) (h fn n : Nat) (f : State → State) : Host.Outcome State Fault Refusal :=
  withUnit (decide (h < s.cfg.hostPorts)) (s.asked fun s => if (s.host h).inReset then s else s.pageBy h fn n f)

/-- CTX_FAULT_CLEAR (R396): a W1C write clears FAULT where it was set. -/
def execCtxFaultClear (h fn ctx : Nat) (w1c : Bool) (s : State) : Host.Outcome State Fault Refusal :=
  s.pageRow h fn ctx fun s => s.pageWrite ctx 8 1 (bn w1c)

/-- QUEUE_READ: GO with OP read. -/
def execQueueRead (h fn ctx : Nat) (s : State) : Host.Outcome State Fault Refusal := s.pageRow h fn ctx fun s => s.pageWrite ctx 16 1 5

/-- QUEUE_ENABLE: GO with OP enable. -/
def execQueueEnable (h fn ctx : Nat) (s : State) : Host.Outcome State Fault Refusal := s.pageRow h fn ctx fun s => s.pageWrite ctx 16 1 6

/-- QUEUE_DISABLE: GO with OP disable. -/
def execQueueDisable (h fn ctx : Nat) (s : State) : Host.Outcome State Fault Refusal := s.pageRow h fn ctx fun s => s.pageWrite ctx 16 1 7

/-! ## Who still waits -/

/-- Does any request in flight answer to a route that a test picks. -/
def State.awaits (s : State) (f : ReplyTo → Bool) : Bool :=
  (s.walks.any fun w => w.waiting.any fun x => f x.reply) || (s.heldOps.any fun o => f o.reply) ||
  (s.otags.any fun kv => f kv.2.reply) || (s.comb.any fun kv => kv.2.joiners.any fun j => f j.reply) ||
  (s.hosts.any fun kv => (kv.2.dma.any fun d => f d.2.reply) || kv.2.dmaWaiting.any fun d => f d.1) ||
  (s.mem.any fun kv => (kv.2.waiting.any fun q => f q.reply) || kv.2.points.any fun o =>
    (match o.2.op with | some x => f x.req.reply | none => false) || (o.2.acks.any fun a => f a.1) || o.2.nextAcks.any fun a => f a.1)

/-- Does a reply go to a queue that a test picks. -/
def replyQueue (f : Nat → Bool) : ReplyTo → Bool
  | .fetch q => f q
  | .probe q _ => f q
  | .record q => f q
  | .fence q => f q
  | _ => false

/-- Has a queue written every record of its commands, and has it nothing in flight. -/
def State.queueQuiet (s : State) (q : Nat) : Bool :=
  let k := s.queue q
  k.records.isEmpty && !k.recBusy && !(s.cmds.any fun kv => kv.2.q = q) && !s.awaits (replyQueue fun x => x = q)

/-- QUEUE_DISABLED (R374): every started command of a disabling queue has written its record. -/
def execQueueDisabled (q : Nat) (s : State) : Host.Outcome State Fault Refusal :=
  s.work fun s => if (s.queue q).state = 3 && s.queueQuiet q then s.modQueue q fun k => { k with state := 0 } else s

/-! ## Commands of the queue manager -/

/-- DESCRIPTOR_ACCEPT (R377). -/
def execDescriptorAccept (q : Nat) (s : State) : Host.Outcome State Fault Refusal := s.work fun s => s.fetchNext q

/-- COMMAND_START (R377, R384). -/
def execCommandStart (q : Nat) (s : State) : Host.Outcome State Fault Refusal := s.work fun s => s.startCmd q

/-- Run a started command of an opcode that still has its work to do. -/
def State.ifStarted (s : State) (id op : Nat) (f : Cmd → State → State) : State :=
  let c := s.cmd id
  if (tblFind s.cmds id).isSome && c.opcode = op && c.phase = 1 && c.stage = 0 then f c s else s

/-- NOP (R380): it waits and signals. -/
def execNop (cmd : Nat) (s : State) : Host.Outcome State Fault Refusal :=
  s.work fun s => s.ifStarted cmd 0x01 fun _ s => s.finishCmd cmd .ok 0 0

/-- FENCE_BASE (R380): QB for the commands accepted after this one. -/
def execFenceBase (cmd : Nat) (s : State) : Host.Outcome State Fault Refusal :=
  s.work fun s => s.ifStarted cmd 0x02 fun c s => (s.modQueue c.q fun k => { k with qb := bits c.desc 126 64 }).finishCmd cmd .ok 0 0

/-- CTX_RESET (R380): the context's reset falls due, and the command ends when it completes. -/
def execCtxReset (cmd : Nat) (s : State) : Host.Outcome State Fault Refusal :=
  s.work fun s => s.ifStarted cmd 0x03 fun c s =>
    (s.modCmd cmd fun c => { c with stage := 1 }).modCtx c.ctx fun x => { x with resetDue := true, resetCmds := x.resetCmds ++ [cmd] }

/-- OBJ_CREATE (R388): the lowest free index at its generation; the handle is the command's DETAIL. -/
def execObjCreate (cmd : Nat) (s : State) : Host.Outcome State Fault Refusal :=
  s.work fun s => s.ifStarted cmd 0x10 fun c s => match s.freeObj with
    | none => s.finishCmd cmd .resource 0x600C 0
    | some i =>
      let o := tblGet s.objs i {}
      let d := c.desc
      let o1 : Obj := { gen := o.gen, live := true, owner := c.ctx, base := bits d 111 64, size := bits d 159 112, shared := bit d 160, rd := bit d 161, wr := bit d 162 }
      ({ s with objs := tblPut s.objs i o1, objLive := s.objLive + 1 } : State).finishCmd cmd .ok 0 (i + o.gen * 2 ^ 24)

/-- OBJ_FREE (R389): taken at acceptance; the started command waits for its quiescence. -/
def execObjFree (cmd : Nat) (s : State) : Host.Outcome State Fault Refusal :=
  s.work fun s => s.ifStarted cmd 0x11 fun _ s => s.modCmd cmd fun c => { c with stage := 1 }

/-- Return the index of a quiet free to the pool (R389). -/
def State.endFree (s : State) (i : Nat) : State :=
  ({ s with objs := tblMod s.objs i (fun o => { o with pendingFree := false, quiesce := [] }) {} } : State).setCount 0x5010 3 (s.count 0x5010 3 - 1)

/-- Frees whose earlier commands have all completed and whose own command is gone, squashed before its record: they take
effect and complete as quiescence allows (R397). -/
def State.sweepFrees (s : State) : State :=
  (s.objs.filter fun kv => kv.2.pendingFree && (tblFind s.cmds kv.2.freeCmd).isNone && kv.2.quiesce.all fun id => (tblFind s.cmds id).isNone).foldl
    (fun s kv => s.endFree kv.1) s

/-- FREE_QUIESCENCE (R389): every command accepted before the free, in its scope, has completed. -/
def execFreeQuiescence (cmd : Nat) (s : State) : Host.Outcome State Fault Refusal :=
  s.work fun s => match s.objs.find? fun kv => kv.2.pendingFree && kv.2.freeCmd = cmd with
    | none => s.sweepFrees
    | some (i, o) =>
      if !(o.quiesce.all fun id => (tblFind s.cmds id).isNone) then s
      else if (tblFind s.cmds cmd).isNone then s.endFree i
      else if (s.cmd cmd).phase = 1 then (s.endFree i).finishCmd cmd .ok 0 0
      else s

/-- FENCE_SIGNAL (R392, R393): the queue's oldest due signal is issued. -/
def execFenceSignal (q : Nat) (s : State) : Host.Outcome State Fault Refusal := s.work fun s => s.signal q

/-- Read the fence word of the waiting command of a queue, if it is watched as asked. -/
def State.rereadIf (s : State) (q : Nat) (watched : Bool) : State :=
  match (s.queue q).accepted with
  | some id => if (s.cmd id).watched = watched then s.readFence q else s
  | none => s

/-- FENCE_REREAD (R394): the watch table reports the waiting command's line. -/
def execFenceReread (q : Nat) (s : State) : Host.Outcome State Fault Refusal := s.work fun s => s.rereadIf q true

/-- FENCE_POLL (R394): the poll interval of a wait that found the watch table full. -/
def execFencePoll (q : Nat) (s : State) : Host.Outcome State Fault Refusal := s.work fun s => s.rereadIf q false

end Sys2Proof.Machine
end

