-- ==== Sys2Proof/Machine/Resets.lean ====
section
/-! DEFINITION. Sys2Proof/Machine/Resets.lean: contexts, their records and their resets, TDIs that wait for them, and
partition resets (R65 to R68, R313, R316, R369 to R371, R397, R479 to R481). -/
namespace Sys2Proof.Machine

/-! ## Messages still in the transmit queues -/

/-- Units cut into messages: the first piece is the rest of a message already begun, where there is one. -/
def splitUnits : List (Bool × Bytes) → List (List (Bool × Bytes))
  | [] => []
  | u :: us => match splitUnits us with
    | [] => [[u]]
    | m :: ms => match m with
      | v :: _ => if v.1 then [u] :: m :: ms else (u :: m) :: ms
      | [] => [u] :: ms

/-- Discard the whole messages of a channel's transmit queue that a test picks; a message already begun stays. -/
def State.dropQueued (s : State) (vc : Nat) (f : Msg → Bool) : State :=
  let keep := fun (us : List (Bool × Bytes)) => match us with
    | u :: _ => !(u.1 && f (msgOf (us.flatMap (·.2))))
    | [] => true
  { s with links := s.links.map fun kv =>
      (kv.1, { kv.2 with fs := { kv.2.fs with txq := tblMod kv.2.fs.txq vc (fun us => ((splitUnits us).filter keep).flatten) [], held := kv.2.fs.held.filter fun h => h.1 ≠ vc || keep h.2 } }) }

/-- An own operation is ended: its OTAG stays reserved (R289), and its response is not installed. One that opened a combining entry
goes on as the entry's, for the others that joined it (R185). -/
def Otag.ended (o : Otag) : Otag :=
  if o.entry.isSome && o.source ≠ srcEntry then { o with source := srcEntry, noInstall := true } else { o with reserved := true, noInstall := true, reply := .none }

/-- The requester that opened a combining entry is answered alone, and joins it no longer. -/
def State.leaveEntry (s : State) (e : Nat) (c : Code) (acc : Access) : State :=
  match tblFind s.comb e with
  | none => s
  | some x => match x.joiners with
    | [] => s
    | j :: js => ({ s with comb := tblPut s.comb e { x with joiners := js } } : State).reply j.reply c 0 (failData acc)

/-- End an own operation's requester with a code. -/
def State.squashOtags (s : State) (f : Otag → Bool) (c : Code) : State :=
  let mine := s.otags.filter fun kv => f kv.2 && !kv.2.reserved
  let s1 : State := { s with otags := s.otags.map fun kv => if f kv.2 && !kv.2.reserved then (kv.1, kv.2.ended) else kv }
  mine.foldl (fun s kv => match kv.2.entry with
    | some e => if kv.2.source = srcEntry then s else s.leaveEntry e c kv.2.acc
    | none => s.reply kv.2.reply c 0 (failData kv.2.acc)) s1

/-- End the requests of a partition or context that wait for a translation, for their turn, or for the host. -/
def State.squashRequests (s : State) (fx : XReq → Bool) (fo : Otag → Bool) (fd : Nat → ReplyTo → Bool) (c : Code) : State :=
  let xs := s.walks.flatMap fun w => w.waiting.filter fx
  let os := s.heldOps.filter fo
  let ds := s.hosts.flatMap fun kv => (kv.2.dma.filter fun d => fd d.2.ctx d.2.reply).map (·.2.reply)
  let ws := s.hosts.flatMap fun kv => (kv.2.dmaWaiting.filter fun d => fd d.2.1 d.1).map (·.1)
  let host := fun (h : HostPort) => ({ h with dma := h.dma.map (fun d => if fd d.2.ctx d.2.reply then (d.1, ({ d.2 with reply := .none } : DmaTag)) else d), dmaWaiting := h.dmaWaiting.filter (fun d => !fd d.2.1 d.1) } : HostPort)
  let s1 : State := { s with walks := s.walks.map fun w => { w with waiting := w.waiting.filter fun x => !fx x }, heldOps := s.heldOps.filter fun o => !fo o, hosts := s.hosts.map fun kv => (kv.1, host kv.2) }
  let s2 := xs.foldl (fun s x => s.reply x.reply c 0 (failData x.acc)) s1
  let s3 := os.foldl (fun s o => s.reply o.reply c 0 (failData o.acc)) s2
  (ds ++ ws).foldl (fun s r => s.reply r c 0 (List.replicate 128 0xFF#8)) s3

/-! ## Context resets (R397, R479) -/

/-- SQUASHED, or ABORTED under a job abort (R492). -/
def State.endCode (s : State) (n : Nat) : Code := if (s.ctx n).aborted || (s.partn (s.ctx n).part).aborted then .aborted else .squashed

/-- A reply that is a completion record's: records are still written during a reset. -/
def isRecord : ReplyTo → Bool
  | .record _ => true
  | _ => false

/-- The queues of a context. -/
def Ctx.queues (c : Ctx) : List Nat := (List.range c.qcount).map fun i => c.qbase + i

/-- Is a command a bridge stream toward a chiplet port under physical reset: it ends at its own bounded timeout, which a logical reset
waits for (R66, R67). -/
def State.streamCaught (s : State) (id : Nat) : Bool :=
  let c := s.cmd id
  c.opcode = 0x24 && c.phase = 1 && c.stage ≠ 0 && (match c.fail with | some (k, _) => k = .timeout | none => false) && (s.chip (bPort c.desc)).inReset

/-- Begin a context reset that has fallen due: fetch and acceptance stop, its commands are squashed, its messages are
discarded and its issued operations end. -/
def State.beginReset (s : State) (n : Nat) : State :=
  let c := s.ctx n
  if c.state ≠ 1 then s.modCtx n fun c => { c with resetDue := false }
  else
    let code := s.endCode n
    let mine := fun (q : Nat) => decide (c.qbase ≤ q ∧ q < c.qbase + c.qcount)
    let s1 := s.modCtx n fun c => { c with state := 2, resetDue := false }
    let s2 : State := { s1 with queues := s1.queues.map fun kv => if mine kv.1 then
        (kv.1, { kv.2 with fetching := false, fetched := none, probes := [], probing := [], probeFails := [], progress := kv.2.tail }) else kv }
    let ids := (s2.cmds.filter fun kv => kv.2.ctx = n && !c.resetCmds.contains kv.1).map (·.1)
    let s3 := ids.foldl (fun s id => if s.streamCaught id then s.modCmd id fun c => { c with fail := some (code, 0) } else s.squashCmd id code) s2
    let own := fun (o : Otag) => o.ctx = some n && !isRecord o.reply
    let tags := (s3.otags.filter fun kv => own kv.2).map (·.1)
    let s4 := s3.dropQueued 0 fun m => m.src = s.memberField && m.mtype ≠ 0 && tags.contains m.otag
    let s5 := s4.squashOtags own .squashed
    s5.squashRequests (fun x => x.ctx = some n && !isRecord x.reply) own (fun k r => k = n && !isRecord r) .squashed

/-- Free every object that a context of a removed partition owns, at once: no command of the partition is left to wait for (R371, R389). -/
def State.freeObjects (s : State) (n : Nat) : State :=
  let one := fun (o : Obj) =>
    if o.owner = n && (o.live || o.pendingFree) then
      let retire := o.live && decide (255 ≤ o.gen)
      ({ gen := if o.live then (o.gen + 1) % 256 else o.gen, retired := o.retired || retire } : Obj)
    else o
  let gone := (s.objs.filter fun kv => kv.2.owner = n && kv.2.live).length
  let waits := (s.objs.filter fun kv => kv.2.owner = n && kv.2.pendingFree).length
  let retired := (s.objs.filter fun kv => kv.2.owner = n && kv.2.live && decide (255 ≤ kv.2.gen)).length
  let s1 : State := { s with objs := s.objs.map fun kv => (kv.1, one kv.2), objLive := s.objLive - gone }
  (s1.setCount 0x5010 3 (s1.count 0x5010 3 - waits)).bumpBy 0x5010 4 retired

/-- Free a context: its queues are disabled, its objects are freed and its scratch share is scrubbed (R371). -/
def State.freeContext (s : State) (n : Nat) : State :=
  let c := s.ctx n
  let s1 : State := { s with queues := s.queues.filter fun kv => !decide (c.qbase ≤ kv.1 ∧ kv.1 < c.qbase + c.qcount) }
  let s2 := s1.freeObjects n
  { s2 with ctxs := tblDel s2.ctxs n, auLastCtx := s2.auLastCtx.filter fun kv => kv.2 ≠ n }

/-- Is an operation of a context outstanding toward a port under physical reset, its bounded timeout still to pass (R67): a fabric
operation that left by such a link, or a read of such a host port. -/
def State.towardReset (s : State) (n : Nat) : Bool :=
  (s.otags.any fun kv => kv.2.ctx = some n && (kv.2.reserved || kv.2.source = srcEntry) && !kv.2.timed && kv.2.via.any fun l => (s.link l).inReset) ||
  s.hosts.any fun kv => kv.2.inReset && kv.2.dma.any fun d => d.2.ctx = n

/-- Is everything a resetting context owns over: its commands, its records, and the operations of its queues. -/
def State.resetQuiet (s : State) (n : Nat) : Bool :=
  let c := s.ctx n
  let mine := fun (q : Nat) => decide (c.qbase ≤ q ∧ q < c.qbase + c.qcount)
  !(s.cmds.any fun kv => kv.2.ctx = n && !c.resetCmds.contains kv.1) &&
  (s.queues.all fun kv => !mine kv.1 || (kv.2.records.isEmpty && !kv.2.recBusy)) && !s.awaits (replyQueue mine) && !s.towardReset n

/-! ## TDIs (R313, R316) -/

/-- Does a context still owe a reset. -/
def Ctx.resetting (c : Ctx) : Bool := c.state = 2 || (c.resetDue && c.state = 1)

/-- Does a TDI wait for a reset of a bound context. -/
def State.tdiBusy (s : State) (t : Tdi) : Bool := s.ctxs.any fun kv => t.names kv.1 && kv.2.resetting

/-- Ask for the reset of every bound context of a TDI. -/
def State.resetBound (s : State) (t : Tdi) : State :=
  { s with ctxs := s.ctxs.map fun kv => if t.names kv.1 && kv.2.state = 1 then (kv.1, { kv.2 with resetDue := true }) else kv }

/-- The TDISP message codes of the responses (TDISP 1.0). -/
def tdispStopRsp : Nat := 0x07

/-- A TDI returns to CONFIG_UNLOCKED. -/
def Tdi.unlocked (t : Tdi) : Tdi := { t with state := 0, slot := 0, stream := 0, stopping := false }

/-- Answer the STOP_INTERFACE requests and pulse hp_flr_done for the function-level resets whose context resets are over; the outputs of a port in reset stay as they are (R40). -/
def State.tdiSettle (s : State) : State :=
  let ready := s.tdis.filter fun kv => (kv.2.stopping || kv.2.flr) && !s.tdiBusy kv.2
  let s1 := ready.foldl (fun s kv =>
    let t := kv.2
    let h := kv.1 / 256
    let dark := (s.host h).inReset
    let s2 := if t.stopping && !dark then s.emit (.tdisp h t.slot tdispStopRsp (Config.standardBody tdispStopRsp [leBytes 4 (kv.1 % 256 + 1)])) else s
    let s3 := if t.flr && !dark then s2.emit (.flrDone h (kv.1 % 256 + 1)) else s2
    s3.modTdi kv.1 fun t => { (if t.stopping then t.unlocked else t) with flr := false }) s
  let ports := s1.hosts.filter fun kv => kv.2.flr && !(s1.tdis.any fun t => t.1 / 256 = kv.1 && s1.tdiBusy t.2)
  ports.foldl (fun s kv => (if kv.2.inReset then s else s.emit (.flrDone kv.1 0)).modHost kv.1 fun p => { p with flr := false }) s1

/-- A locked or running TDI's state becomes ERROR (R313): its bound contexts are reset and a notice of kind 0x08 is queued.
Partition removal and a fenced partition name no error code for it: 0 records none. -/
def State.tdiEnter (s : State) (k e : Nat) : State :=
  let t := s.tdi k
  if t.state = 0 || t.state = 3 then s
  else
    let s1 := (s.modTdi k fun t => { t with state := 3 }).resetBound t
    ((if e = 0 then s1 else s1.hostError (k / 256) (some t.part) e 0).note 8 0 e (some t.part) 0 (unitField 3 (k / 256) + k % 256 * 2 ^ 16 + 2 ^ 24) 3)

/-- The locked and running TDIs of a session slot. -/
def State.tdisOf (s : State) (slot : Nat) : List Nat := (s.tdis.filter fun kv => (kv.2.state = 1 || kv.2.state = 2) && kv.2.slot = slot).map (·.1)

/-- The session key of a slot is invalidated, with the stream's keys (R27, R322): only where its leaf still holds that key. -/
def State.dropSessionKey (s : State) (slot : Nat) : State :=
  let k := s.hslot slot
  let s1 := if k.keyGen = some (s.slot k.leaf).gen then s.invalidateSlot k.leaf else s
  s1.modSlot slot fun k => { k with secure := false, activeSet := none, cells := [], keyGen := none, binding := [] }

/-- The stream of a slot becomes insecure (R314): every TDI on it enters ERROR; where one leaves RUN by it the session key goes
first (R27). -/
def State.streamInsecure (s : State) (slot e : Nat) : State :=
  let run := (s.tdisOf slot).any fun k => (s.tdi k).state = 2
  let s1 := if run then s.dropSessionKey slot else s.modSlot slot fun k => { k with secure := false, activeSet := none, cells := [] }
  (s1.tdisOf slot).foldl (fun s k => s.tdiEnter k e) s1

/-- A TDI leaves RUN (R27): the session key of its slot is invalidated first, which leaves its stream without keys, and the other
TDIs on that stream enter ERROR (DEDUCED, log entry 104). -/
def State.leaveRun (s : State) (k : Nat) : State :=
  let t := s.tdi k
  if t.state ≠ 2 then s
  else
    let s1 := s.dropSessionKey t.slot
    ((s1.tdisOf t.slot).filter (· ≠ k)).foldl (fun s j => s.tdiEnter j 0x400B) s1

/-- A TDI enters ERROR on its own: a refused TLP, the removal or fencing of its partition. -/
def State.tdiError (s : State) (k e : Nat) : State := (s.leaveRun k).tdiEnter k e

/-! ## Completion of a context reset -/

/-- The reset of a destroyed context is over (R371): its queues are disabled and its objects are freed (R389): their generations
increment at once, and each waits for the commands accepted in its scope so far. -/
def State.startFrees (s : State) (n : Nat) : State :=
  let c := s.ctx n
  let id := s.cmdNext
  let mine := fun (o : Obj) => o.owner = n && o.live
  let before := fun (o : Obj) => (s.cmds.filter fun kv => if o.shared then kv.2.part = c.part else kv.2.ctx = n).map (·.1)
  let one := fun (o : Obj) => if mine o then
    ({ o with gen := (o.gen + 1) % 256, live := false, retired := o.retired || decide (255 ≤ o.gen), pendingFree := true, freeCmd := id, quiesce := before o } : Obj) else o
  let gone := (s.objs.filter fun kv => mine kv.2).length
  let retired := (s.objs.filter fun kv => mine kv.2 && decide (255 ≤ kv.2.gen)).length
  let s1 : State := { s with objs := s.objs.map fun kv => (kv.1, one kv.2), objLive := s.objLive - gone, cmdNext := id + 1,
                             queues := s.queues.map fun kv => if decide (c.qbase ≤ kv.1 ∧ kv.1 < c.qbase + c.qcount) then (kv.1, { kv.2 with state := 0 }) else kv }
  ((s1.modCtx n fun c => { c with state := 2, freeing := true }).setCount 0x5010 3 (s.count 0x5010 3 + gone)).bumpBy 0x5010 4 retired

/-- Are the frees of a context's objects quiet (R389): the commands they wait for are gone, and so are their own. -/
def State.freesQuiet (s : State) (n : Nat) : Bool :=
  s.objs.all fun kv => kv.2.owner ≠ n || !kv.2.pendingFree ||
    ((tblFind s.cmds kv.2.freeCmd).isNone && kv.2.quiesce.all fun id => (tblFind s.cmds id).isNone)

/-- A destroyed context is free once its records are written and its objects' frees are quiet (R371). -/
def State.endDestroy (s : State) (n : Nat) : State := if s.resetQuiet n && s.freesQuiet n then s.freeContext n else s

/-- A context reset completes (R397, R479), but for a partition that is being removed, which frees its contexts itself: unfetched
descriptors are gone, the count increments, the commands that asked for it end behind the squashed ones of their queues (R393), held
doorbells apply, and a destroyed context's objects are freed. -/
def State.endReset (s : State) (n : Nat) : State :=
  let c := s.ctx n
  if c.state ≠ 2 || !s.resetQuiet n || (s.partn c.part).state = 3 then s
  else if c.freeing then (s.endDestroy n).tdiSettle
  else
    let mine := fun (q : Nat) => decide (c.qbase ≤ q ∧ q < c.qbase + c.qcount)
    let bells := (s.queues.filter fun kv => mine kv.1).flatMap fun kv => kv.2.heldBells.map fun b => (kv.1, b)
    let done1 := fun (k : Queue) =>
      ({ k with head := k.progress, qb := 0, heldBells := [], state := if k.state = 2 || k.state = 3 then 0 else k.state } : Queue)
    let clear := fun (k : Queue) => ({ k with failedAt := none } : Queue)
    let s1 : State := { s with queues := s.queues.map fun kv => if mine kv.1 then (kv.1, done1 kv.2) else kv }
    let s2 := (s1.modCtx n fun c => { c with state := 1, resets := sat32 (c.resets + 1), faultsSinceReset := 0, aborted := false, resetCmds := [] }).bump 0x5260 4
    let s3 := c.resetCmds.foldl (fun s id => s.finishCmd id .ok 0 0) s2
    let s4 : State := { s3 with queues := s3.queues.map fun kv => if mine kv.1 then (kv.1, clear kv.2) else kv }
    let s5 := if c.destroying then (s4.startFrees n).endDestroy n else bells.foldl (fun s b => s.ring b.1 b.2.1 b.2.2) s4
    s5.tdiSettle

/-- A reset that has fallen due begins: in S1 to S3 the block first exits to S0 (R68). -/
def State.resetRow (s : State) (due : Bool) (f : State → State) : Host.Outcome State Fault Refusal :=
  doneS (if !(s.alive && s.faults.phase = 0 && due) then s else if s.power.state = 0 then f s.beginExit else s.beginExit)

/-- CONTEXT_RESET (R479). -/
def execContextReset (ctx : Nat) (s : State) : Host.Outcome State Fault Refusal := s.resetRow (s.ctx ctx).resetDue fun s => s.beginReset ctx

/-- CONTEXT_RESET_DONE (R479). -/
def execContextResetDone (ctx : Nat) (s : State) : Host.Outcome State Fault Refusal := s.work fun s => s.endReset ctx

/-! ## Context records (R369 to R371) -/

/-- Fields of a context record as written (Table 15.1). -/
def cState (v : Nat) : Nat := bits v 1 0
@[inherit_doc cState] def cPart (v : Nat) : Nat := bits v 7 2
@[inherit_doc cState] def cScratch (v : Nat) : Nat := bits v 13 8
@[inherit_doc cState] def cChipDb (v : Nat) : Nat := bits v 21 14
@[inherit_doc cState] def cQbase (v : Nat) : Nat := bits v 39 22
@[inherit_doc cState] def cQcount (v : Nat) : Nat := bits v 52 40
@[inherit_doc cState] def cFaultVec (v : Nat) : Nat := bits v 58 53

/-- Scratch units that the contexts of a partition hold in each of its AUs (R127). -/
def State.scratchHeld (s : State) (p : Nat) : Nat := ((s.ctxs.filter fun kv => kv.2.state ≠ 0 && kv.2.part = p).map (·.2.scratch)).foldl (· + ·) 0

/-- Creation of a context (R370). -/
def State.contextCreate (s : State) (n v : Nat) : Except Nat State :=
  let p := s.partn (cPart v)
  let clash := s.ctxs.any fun kv => kv.2.state ≠ 0 && decide (kv.2.qbase < cQbase v + cQcount v ∧ cQbase v < kv.2.qbase + kv.2.qcount)
  let units := s.setting 0x2120 3
  if p.state = 3 then .error 0x0801
  else if p.state = 0 || cQcount v = 0 || 4096 < cQcount v || cQbase v < p.qbase || p.qbase + p.qcount < cQbase v + cQcount v || clash || 44 < cScratch v then .error 0x0609
  else if p.auMask ≠ 0 && units < s.scratchHeld (cPart v) + cScratch v then .error 0x0802
  else if p.mode = 1 && cScratch v ≠ 0 && s.scratchHeld (cPart v) ≠ 0 then .error 0x0802
  else
    let c : Ctx := { state := 1, part := cPart v, scratch := cScratch v, chipDb := cChipDb v, qbase := cQbase v, qcount := cQcount v, faultVec := cFaultVec v }
    .ok { s with ctxs := tblPut s.ctxs n c }

/-- A write of a context record (R370, R371), by the STATE it carries. -/
def State.contextWrite (n : Nat) (b : Bytes) (s : State) : Except Nat State :=
  let v := leNat b
  let c := s.ctx n
  let locked := s.tdis.any fun kv => kv.2.names n && (kv.2.state = 1 || kv.2.state = 2)
  if s.cfg.contexts ≤ n then .error 0x0609
  else if c.state = 0 then
    match cState v with
    | 0 => .ok s
    | 1 => s.contextCreate n v
    | 2 => .error 0x0801
    | _ => .error 0x0609
  else if c.destroying then .error 0x0801
  else match cState v with
    | 1 =>
      if cPart v = c.part && cScratch v = c.scratch && cQbase v = c.qbase && cQcount v = c.qcount then
        .ok (s.modCtx n fun c => { c with chipDb := cChipDb v, faultVec := cFaultVec v })
      else .error 0x0801
    | 2 => .ok (if c.state = 2 then s else s.modCtx n fun c => { c with resetDue := true })
    | 0 => if locked then .error 0x0801 else .ok (s.modCtx n fun c => { c with destroying := true, resetDue := c.state = 1 })
    | _ => .error 0x0609

/-- The dictionary entry of a context's record. -/
def ctxEntry (n : Nat) : Nat × Nat := (0x5080 + n / 128, n % 128 + 1)

/-- A write of a context record through the dictionary. -/
def State.contextRow (s : State) (m : Mgmt) (n : Nat) (b : Bytes) : Host.Outcome State Fault Refusal :=
  doneS (s.dictWrite m (ctxEntry n).1 (ctxEntry n).2 b (State.contextWrite n b))

/-- CONTEXT_CREATE. -/
def execContextCreate (m : Mgmt) (ctx : Nat) (record : Bytes) (s : State) : Host.Outcome State Fault Refusal := s.contextRow m ctx record

/-- CONTEXT_UPDATE. -/
def execContextUpdate (m : Mgmt) (ctx : Nat) (record : Bytes) (s : State) : Host.Outcome State Fault Refusal := s.contextRow m ctx record

/-- CONTEXT_DESTROY. -/
def execContextDestroy (m : Mgmt) (ctx : Nat) (record : Bytes) (s : State) : Host.Outcome State Fault Refusal := s.contextRow m ctx record

/-! ## Partition resets (R480) -/

/-- Discard the combining entries of a partition (Table 7.5): joiners and the senders of folded chunks complete with
SQUASHED; its chunks that wait for a slot go too, and what an entry had sent upstream is answered to no one. -/
def State.dropComb (s : State) (p : Nat) : State :=
  let mine := fun (c : Comb) => if c.kind = 2 then c.chunk.part = p else c.part = p
  let gone := s.comb.filter fun kv => mine kv.2
  let held := s.early.filter fun x => x.chunk.part = p
  let ends := fun (o : Otag) => if o.entry.any fun e => gone.any fun kv => kv.1 = e then { o with reserved := true, noInstall := true, reply := .none, entry := none } else o
  let s1 : State := { s with comb := s.comb.filter (fun kv => !mine kv.2), early := s.early.filter (fun x => decide (x.chunk.part ≠ p)), otags := s.otags.map fun kv => (kv.1, ends kv.2) }
  let s2 := gone.foldl (fun s kv =>
    let s' := kv.2.joiners.foldl (fun s j => s.reply j.reply .squashed 0 []) s
    kv.2.froms.foldl (fun s f => s.ackChunk f .squashed) s') s1
  held.foldl (fun s x => x.froms.foldl (fun s f => s.ackChunk f .squashed) (s.earlyFreed x)) s2

/-- Close the open slots of a partition (R178): their commands end. -/
def State.closeSlots (s : State) (p : Nat) (code : Code) : State :=
  (s.rslots.filter fun kv => kv.2.part = p).foldl (fun s kv => s.squashCmd kv.2.cmd code) s

/-- Begin a partition reset: its contexts reset together, its slots close, its combining entries go and its cached remote
lines are scrubbed. -/
def State.beginPartReset (s : State) (p : Nat) : State :=
  let k := s.partn p
  if k.state = 0 then s.modPart p fun k => { k with resetDue := false }
  else
    let s1 := s.modPart p fun k => { k with resetDue := false, resetting := true }
    let ns := (s1.ctxs.filter fun kv => kv.2.part = p && kv.2.state = 1).map (·.1)
    let s2 := ns.foldl (fun s n => s.beginReset n) s1
    (((s2.closeSlots p (if k.aborted then .aborted else .squashed)).dropComb p).rdrop false fun r => r.part = p).bump 0x5260 4

/-- PARTITION_RESET (R480). -/
def execPartitionReset (p : Nat) (s : State) : Host.Outcome State Fault Refusal :=
  withUnit (decide (p < s.cfg.partitions)) (s.resetRow (s.partn p).resetDue fun s => s.beginPartReset p)

/-- PARTITION_RESET_DONE (R480): every context reset of the partition has completed. -/
def execPartitionResetDone (p : Nat) (s : State) : Host.Outcome State Fault Refusal :=
  withUnit (decide (p < s.cfg.partitions)) (s.work fun s =>
    if (s.partn p).resetting && !(s.ctxs.any fun kv => kv.2.part = p && kv.2.resetting) then
      s.modPart p fun k => { k with resetting := false, aborted := false }
    else s)

end Sys2Proof.Machine
end

