-- ==== Sys2Proof/Machine/Hosts.lean ====
section
/-! DEFINITION. Sys2Proof/Machine/Hosts.lean: host ports: session slots and their streams, TDIs, TDISP, IDE key management,
host TLPs and the configuration window (R308 to R316). -/
namespace Sys2Proof.Machine

/-- A command of a host port. -/
def State.hostRow (s : State) (h : Nat) (f : State → State) : Host.Outcome State Fault Refusal :=
  withUnit (decide (h < s.cfg.hostPorts)) (s.asked fun s => if (s.host h).inReset then s else f s)

/-- A host session ends (R27, R310): its key is invalidated first, its stream is insecure, and its slot is free. -/
def State.endHostSession (s : State) (slot : Nat) : State :=
  if !(s.hslot slot).held then s
  else
    let s1 := (s.dropSessionKey slot).streamInsecure slot 0x400B
    { s1 with slots := tblDel s1.slots slot }

/-- May a new session take a slot: it is free, and no TDI names it that has yet to return to its unlocked state (R27). -/
def State.slotFree (s : State) (i : Nat) : Bool := !(s.hslot i).held && !(s.tdis.any fun kv => kv.2.state ≠ 0 && kv.2.slot = i)

/-- Is a slot an established session of a host port. -/
def State.slotUp (s : State) (h slot : Nat) : Bool := let k := s.hslot slot; k.held && k.port = h && k.session.stage = 5

/-! ## IDE key management (R309, R311, R314) -/

/-- Object codes of the IDE_KM answers (PRESUMED from PCIe 6.x, log entry 40). -/
def kmQueryResp : Nat := 0x01
@[inherit_doc kmQueryResp] def kmKeyAck : Nat := 0x03
@[inherit_doc kmQueryResp] def kmGoStopAck : Nat := 0x06

/-- The engine number of a host port in the key caches. -/
def hostEngine (h : Nat) : Nat := 0x160 + h

/-- Does a slot's leaf still hold its session's key: the leaf's generation is that of the session, and its engine material is the
session binding value taken when the session was established (Table 13.7). -/
def State.boundLeaf (s : State) (k : HostSlot) : Bool :=
  let g := (s.slot k.leaf).gen
  k.keyGen = some g && k.binding = s.masked ((s.material k.leaf g).take 32)

/-- KEY_PROG (R311): one key of the slot's stream, masked into its cell; a slot carries one stream of its port. The session binding
value is checked against the leaf that the message names (Table 13.7), and the host port engine needs use bit 5 of it (R325, R326):
an unusable leaf owns no cells (R322). -/
def State.keyProg (s : State) (h slot stream sub set : Nat) (rx : Bool) (key : Bytes) : State :=
  let k := s.hslot slot
  let taken := s.slots.any fun kv => kv.1 ≠ slot && kv.2.held && kv.2.port = h && kv.2.stream = some stream
  if !s.slotUp h slot then s
  else if 3 ≤ sub || 2 ≤ set || 256 ≤ stream || taken || (k.stream.isSome && k.stream ≠ some stream) || key.length ≠ 32 || !s.boundLeaf k then
    s.emit (.ideKm h slot kmKeyAck [3#8])
  else match s.useKey (hostEngine h) 5 k.leaf (s.slot k.leaf).gen with
    | .error e => (s.refuseUse e).emit (.ideKm h slot kmKeyAck [3#8])
    | .ok t =>
      (t.modSlot slot fun k => { k with stream := some stream, cells := tblPut k.cells (ideCell sub rx set) (s.masked key) }).emit (.ideKm h slot kmKeyAck [0#8])

/-- KEY_PROG. -/
def execKeyProg (h slot stream sub keySet : Nat) (rx : Bool) (key : Bytes) (s : State) : Host.Outcome State Fault Refusal :=
  s.hostRow h fun s => s.keyProg h slot stream sub keySet rx key

/-- K_SET_GO (R309): a key set whose six cells are written becomes the stream's active one, its invocation counts start, and the
stream is secure. -/
def execKSetGo (h slot stream keySet : Nat) (s : State) : Host.Outcome State Fault Refusal :=
  s.hostRow h fun s =>
    let k := s.hslot slot
    let whole := [0, 1, 2].all fun sub => [true, false].all fun rx => (tblFind k.cells (ideCell sub rx keySet)).isSome
    if s.slotUp h slot && k.stream = some stream && whole then
      (s.modSlot slot fun k => { k with activeSet := some keySet, secure := true, txCount := [], rxCount := [] }).emit (.ideKm h slot kmGoStopAck [])
    else s

/-- K_SET_STOP (R314): the stream becomes insecure; the session and its slot stay held. -/
def execKSetStop (h slot stream : Nat) (s : State) : Host.Outcome State Fault Refusal :=
  s.hostRow h fun s =>
    if s.slotUp h slot && (s.hslot slot).stream = some stream then (s.streamInsecure slot 0x400B).emit (.ideKm h slot kmGoStopAck []) else s

/-- QUERY (R309). -/
def execQuery (h slot : Nat) (s : State) : Host.Outcome State Fault Refusal :=
  s.hostRow h fun s => if s.slotUp h slot then s.emit (.ideKm h slot kmQueryResp (Config.standardBody 0x100 [leBytes 1 h])) else s

/-! ## TDISP (R312, R313) -/

/-- TDISP ERROR codes (PRESUMED from TDISP 1.0, log entry 40). -/
def tdispBadRequest : Nat := 0x0001
@[inherit_doc tdispBadRequest] def tdispBadState : Nat := 0x0004
@[inherit_doc tdispBadRequest] def tdispBadInterface : Nat := 0x0101
@[inherit_doc tdispBadRequest] def tdispBadConfig : Nat := 0x0104

/-- Refuse a TDISP request: a TDISP ERROR, the port's last error, and nothing else. -/
def State.tdispError (s : State) (h slot code err : Nat) : State :=
  ((s.hostError h none err 0)).emit (.tdisp h slot 0x7F (leBytes 4 code))

/-- Serve a TDISP request from the session concerned with the TDI and in a state that permits it. -/
def State.tdispRow (s : State) (h slot tdi : Nat) (states : List Nat) (f : Tdi → State → State) : Host.Outcome State Fault Refusal :=
  s.hostRow h fun s =>
    let t := s.tdi (tdiKey h tdi)
    let mine := s.slotUp h slot && (t.state = 0 || t.slot = slot)
    if 256 ≤ tdi then s.tdispError h slot tdispBadInterface 0x4009
    else if !mine then s.tdispError h slot tdispBadRequest 0x4009
    else if !states.contains t.state || t.stopping then s.tdispError h slot tdispBadState 0x4004
    else f t s

/-- Do the checks of LOCK_INTERFACE hold. -/
def State.lockable (s : State) (k slot : Nat) (t : Tdi) : Bool :=
  decide (1 ≤ t.ctxCount) && (s.hslot slot).secure &&
  (List.range t.ctxCount).all fun i =>
    let n := t.ctxBase + i
    (s.ctx n).state ≠ 0 && (s.ctx n).part = t.part && !(s.tdis.any fun kv => kv.1 ≠ k && kv.2.state ≠ 0 && kv.2.names n)

/-- LOCK_INTERFACE. -/
def execLockInterface (h slot tdi : Nat) (s : State) : Host.Outcome State Fault Refusal :=
  s.tdispRow h slot tdi [0] fun t s =>
    if s.lockable (tdiKey h tdi) slot t then
      (s.modTdi (tdiKey h tdi) fun t => { t with state := 1, slot, stream := (s.hslot slot).stream.getD 0 }).emit
        (.tdisp h slot 0x02 (Config.standardBody 0x202 [leBytes 4 (tdi + 1)]))
    else s.tdispError h slot tdispBadConfig 0x400A

/-- The device-specific part of an interface report, and the ranges it names (R313). -/
def State.reportParts (s : State) (t : Tdi) : List Bytes :=
  let pages := (List.range t.ctxCount).map fun i =>
    let n := t.ctxBase + i
    leBytes 8 (0x200000 + 4096 * n) ++ leBytes 8 (8 * (s.ctx n).qbase) ++ leBytes 8 (8 * (s.ctx n).qcount)
  [leBytes 1 t.part ++ leBytes 2 s.memberField ++ leBytes 2 t.ctxBase ++ leBytes 1 t.ctxCount ++ leBytes 2 0x0201] ++ pages

/-- GET_DEVICE_INTERFACE_REPORT. -/
def execGetDeviceInterfaceReport (h slot tdi : Nat) (s : State) : Host.Outcome State Fault Refusal :=
  s.tdispRow h slot tdi [1, 2] fun t s => s.emit (.tdisp h slot 0x04 (Config.standardBody 0x204 (s.reportParts t)))

/-- START_INTERFACE. -/
def execStartInterface (h slot tdi : Nat) (s : State) : Host.Outcome State Fault Refusal :=
  s.tdispRow h slot tdi [1] fun _ s =>
    (s.modTdi (tdiKey h tdi) fun t => { t with state := 2 }).emit (.tdisp h slot 0x06 (Config.standardBody 0x206 [leBytes 4 (tdi + 1)]))

/-- STOP_INTERFACE: a TDI in RUN loses its session key first (R27), every bound context is reset, and the answer follows the last
reset. -/
def execStopInterface (h slot tdi : Nat) (s : State) : Host.Outcome State Fault Refusal :=
  s.tdispRow h slot tdi [1, 2, 3] fun t s => (((s.leaveRun (tdiKey h tdi)).modTdi (tdiKey h tdi) fun t => { t with stopping := true }).resetBound t).tdiSettle

/-- GET_DEVICE_INTERFACE_STATE. -/
def execGetDeviceInterfaceState (h slot tdi : Nat) (s : State) : Host.Outcome State Fault Refusal :=
  s.hostRow h fun s =>
    let t := s.tdi (tdiKey h tdi)
    if 256 ≤ tdi then s.tdispError h slot tdispBadInterface 0x4009
    else if !(s.slotUp h slot && (t.state = 0 || t.slot = slot)) then s.tdispError h slot tdispBadRequest 0x4009
    else s.emit (.tdisp h slot 0x05 (leBytes 1 t.state))

/-- A TDISP request that only reports, for any state. -/
def State.tdispReport (s : State) (h slot tdi what : Nat) : State :=
  let t := s.tdi (tdiKey h tdi)
  if 256 ≤ tdi then s.tdispError h slot tdispBadInterface 0x4009
  else if !(s.slotUp h slot && (t.state = 0 || t.slot = slot)) then s.tdispError h slot tdispBadRequest 0x4009
  else s.emit (.tdisp h slot what (Config.standardBody (0x200 + what) [leBytes 1 0x10]))

/-- GET_TDISP_VERSION. -/
def execGetTdispVersion (h slot tdi : Nat) (s : State) : Host.Outcome State Fault Refusal := s.hostRow h fun s => s.tdispReport h slot tdi 0x01

/-- GET_TDISP_CAPABILITIES. -/
def execGetTdispCapabilities (h slot tdi : Nat) (s : State) : Host.Outcome State Fault Refusal := s.hostRow h fun s => s.tdispReport h slot tdi 0x03

/-- A write of a TDI record (R312, R319). -/
def State.tdiWrite (i j : Nat) (b : Bytes) (s : State) : Except Nat State :=
  let h := (i - 0x3330) / 2
  let k := tdiKey h (128 * ((i - 0x3330) % 2) + j - 1)
  let v := leNat b
  if i < 0x3330 || 0x3337 < i || s.cfg.hostPorts ≤ h then .error 0x0609
  else if (s.tdi k).state ≠ 0 then .error 0x0801
  else if 64 < bits v 44 38 || s.cfg.contexts < bits v 37 24 + bits v 44 38 || s.cfg.partitions ≤ bits v 21 16 then .error 0x0609
  else .ok (s.modTdi k fun t => { t with part := bits v 21 16, ctxBase := bits v 37 24, ctxCount := bits v 44 38 })

/-- TDI_RECORD_WRITE. -/
def execTdiRecordWrite (m : Mgmt) (index sub : Nat) (record : Bytes) (s : State) : Host.Outcome State Fault Refusal :=
  doneS (s.dictWrite m index sub record (State.tdiWrite index sub record))

/-! ## TLPs (R47, R308, R314) -/

/-- The 8-byte registers that an access covers, each with its byte enables and its bytes of the data. -/
def tlpWords (t : Tlp) : List (Nat × Nat × Nat) :=
  let sh := t.addr % 8
  let be := t.be <<< sh
  let d := leNat t.data <<< (8 * sh)
  (List.range (Nat.log2 be / 8 + 1)).map fun i => (t.addr / 8 * 8 + 8 * i, (be >>> (8 * i)) % 256, (d >>> (64 * i)) % 2 ^ 64)

/-- Write one register of the BAR for a function. -/
def State.barWrite (s : State) (h fn a be v : Nat) : State :=
  if a < 0x200000 then s.doorbell (.host h fn) (a / 8) be v
  else s.pageBy h fn ((a - 0x200000) / 4096) fun s => s.pageWrite ((a - 0x200000) / 4096) (a % 4096) be v

/-- Does a function reach a register of the BAR (R308). -/
def State.barOpen (s : State) (h fn a : Nat) : Bool :=
  if a < 0x200000 then (match (if s.cfg.queues ≤ a / 8 then none else s.ownerOf (a / 8)) with | some n => s.reaches h fn n | none => false)
  else decide ((a - 0x200000) / 4096 < s.cfg.contexts) && s.reaches h fn ((a - 0x200000) / 4096)

/-- Read one register of the BAR for a function: all ones where it is out of reach. -/
def State.barRead (s : State) (h fn a : Nat) : Nat :=
  if !s.barOpen h fn a then 2 ^ 64 - 1
  else if a < 0x200000 then (s.queue (a / 8)).tail + (s.queue (a / 8)).chead * 2 ^ 32
  else s.pageRead ((a - 0x200000) / 4096) (a % 4096)

/-- An IDE integrity failure (R314): an integrity event, an alarm event of the partition of each TDI on the stream
(Table 21.1), and every TDI on the stream enters ERROR. -/
def State.ideFailure (s : State) (h stream : Nat) : State :=
  let s1 := ((s.hostError h none 0x4001 0).bump 0x6206 2).note 6 0 0x4001 none 0 (unitField 3 h) 0
  let unit := unitField 3 h
  match s1.slots.find? fun kv => kv.2.held && kv.2.port = h && kv.2.stream = some stream with
  | some (i, _) =>
    let ps := dedup ((s1.tdisOf i).map fun k => (s1.tdi k).part)
    let s2 := if ps.isEmpty then s1.alarm 9 none unit 0x4001 else ps.foldl (fun s p => s.alarm 9 (some p) unit 0x4001) s1
    s2.streamInsecure i 0x4001
  | none => s1.alarm 9 none unit 0x4001

/-- The IDE check of a TLP (R314): one outside any stream carries its text. -/
def State.ideCheck (s : State) (h : Nat) (t : Tlp) : IdeCheck × State :=
  match t.stream with
  | none => (.passed t.data, s)
  | some x => s.ideOpen h x (if t.posted then subPr else subNpr) (ideHeader (bn t.write) t.fn t.addr t.be t.tag x t.data.length t.tbit) t.data t.mac

/-- Send the completion of a request TLP, sealed on the stream that the request came on. -/
def State.sendCompletion (s : State) (h : Nat) (t : Tlp) (status : Nat) (data : Bytes) : State :=
  match t.stream with
  | none => s.emit (.tlpCompletion h t.tag status data none [])
  | some x => match s.ideSeal h x subCpl (ideHeader 2 t.fn t.addr status t.tag x data.length t.tbit) data with
    | some (ct, mac, u) => u.emit (.tlpCompletion h t.tag status ct (some x) mac)
    | none => s

/-- A request TLP whose text is released (R308): what is out of the function's reach is discarded or reads as ones, and the TLP counts
once (R319). -/
def State.tlpServe (s : State) (h : Nat) (t : Tlp) : State :=
  let ws := tlpWords t
  let s1 := match ws.find? fun w => !s.barOpen h t.fn w.1 with | some w => s.barRefused h w.1 | none => s
  if t.write then (ws.filter fun w => s.barOpen h t.fn w.1).foldl (fun s w => s.barWrite h t.fn w.1 w.2.1 w.2.2) s1
  else
    let bytes := (ws.flatMap fun w => leBytes 8 (s.barRead h t.fn w.1)).drop (t.addr % 8)
    s1.sendCompletion h t 0 (bytes.take (Nat.log2 t.be + 1))

/-- A request TLP (R308, R314). One that may not reach a TDI in RUN, a failed IDE check among the causes, sends it to ERROR and is refused
and counted. One on a stream that is not secure is discarded, and answered Unsupported Request outside any
stream (DEDUCED, log entry 103). -/
def State.tlpIn (s : State) (h : Nat) (t : Tlp) : State :=
  let k := tdiKey h (t.fn - 1)
  let d := s.tdi k
  let refuse := fun (s : State) => if t.posted then s else s.emit (.tlpCompletion h t.tag 1 [] none [])
  if t.malformed then s.hostError h none 0x4006 t.addr
  else
    let ide := s.ideCheck h t
    let s := ide.2
    let run := decide (1 ≤ t.fn ∧ t.fn ≤ 256) && d.state = 2
    let refused := fun (s : State) => refuse ((s.tdiError k 0x4002).bump 0x3340 (h + 1))
    match ide.1 with
    | .failed => let u := s.ideFailure h (t.stream.getD 0); if run then refused u else u
    | .unknown => if run then refused s else refuse s
    | .passed text => if run && !(t.stream = some d.stream && t.tbit) then refused s else s.tlpServe h { t with data := text }

/-- HOST_TLP: it also wakes the block (R72). -/
def execHostTlp (h : Nat) (t : Tlp) (s : State) : Host.Outcome State Fault Refusal := s.hostRow h fun s => s.tlpIn h t

/-! ## The configuration window (R48) -/

/-- Dword offsets of the DOE mailbox's registers: control, status, write and read mailbox (PRESUMED, log entry 42). -/
def doeControl : Nat := 0x202
@[inherit_doc doeControl] def doeStatus : Nat := 0x203
@[inherit_doc doeControl] def doeWrite : Nat := 0x204
@[inherit_doc doeControl] def doeReadMailbox : Nat := 0x205

/-- The DOE object that carries a response to a host port. -/
def doeObject (h : Nat) (o : Out) : Option Bytes :=
  match o with
  | .spdm (.host h' _) what body => if h' = h then some (Config.standardBody 0x301 [leBytes 2 what, body]) else none
  | .ideKm h' _ what body => if h' = h then some (Config.standardBody 0x302 [leBytes 2 what, body]) else none
  | .tdisp h' _ what body => if h' = h then some (Config.standardBody 0x303 [leBytes 2 what, body]) else none
  | _ => none

/-- The words of the answer that the read mailbox still holds: of the responses since the last object was handed over. -/
def State.doeWords (s : State) (h : Nat) : List Nat :=
  match (s.host h).doeAt with
  | none => []
  | some n => ((chunks 4 ((s.out.drop n).filterMap (doeObject h)).flatten).map leNat).drop (s.host h).doeRead

/-- Is a dword the capability register of an IDE stream block, or its status register. -/
def ideBlockAt (a : Nat) : Bool := (List.range ideBlocks).any fun b => a = ideBlock b
@[inherit_doc ideBlockAt] def ideStatusAt (a : Nat) : Bool := (List.range ideBlocks).any fun b => a = ideBlock b + 2

/-- A read of a dword of the window: an IDE stream block shows whether its stream is secure (R309). -/
def State.cfgValue (s : State) (h fn a : Nat) : Nat :=
  if fn = 0 && a = doeStatus then
    bn ((s.host h).doeAt.isSome && (s.doeWords h).isEmpty && (s.host h).doeRead = 0) + bn (!(s.doeWords h).isEmpty) * 2 ^ 31
  else if fn = 0 && a = doeReadMailbox then (s.doeWords h).headD 0
  else if fn = 0 && (a = doeControl || a = doeWrite) then 0
  else if fn = 0 && a = ideCap then 0x00010030
  else if fn = 0 && a = ideCap + 1 then 0x62 + (ideBlocks - 1) * 2 ^ 16
  else if fn = 0 && ideStatusAt a then
    let c := tblGet (s.host h).cfg (a - 1) 0
    if bit c 0 && (s.streamSlot h (bits c 31 24)).isSome then 2 else 0
  else if fn = 0 && ideBlockAt a then 2
  else tblGet (s.host h).cfg (fn * 1024 + a) 0

/-- A write of a dword of the window: an aborted mailbox is empty; GO hands the written object to the security controller, whose
message is the next SPDM, IDE_KM or TDISP command of the port; a write of the read mailbox takes its word. -/
def State.cfgWrite (s : State) (h fn a v : Nat) : State :=
  if fn = 0 && a = doeControl then
    if bit v 0 then s.modHost h fun p => { p with doeIn := [], doeObject := [], doeAt := none, doeRead := 0 }
    else if bit v 31 && !(s.host h).doeIn.isEmpty then s.modHost h fun p => { p with doeIn := [], doeObject := p.doeIn, doeAt := some s.out.length, doeRead := 0 }
    else s
  else if fn = 0 && a = doeWrite then s.modHost h fun p => { p with doeIn := p.doeIn ++ [v] }
  else if fn = 0 && a = doeReadMailbox then s.modHost h fun p => { p with doeRead := p.doeRead + bn (!(s.doeWords h).isEmpty) }
  else if fn = 0 && (a = doeStatus || a = ideCap || a = ideCap + 1 || ideBlockAt a || ideStatusAt a) then s
  else s.modHost h fun p => { p with cfg := tblSet p.cfg (fn * 1024 + a) v 0 }

/-- HP_CFG_ACCESS (R47, R48): a dword of the block's window, answered with hp_cfg_done. Function 0 holds the DOE mailbox and the
IDE capability; the other registers hold what is written (PRESUMED: PCIe defines them, log entry 42). -/
def execHpCfgAccess (h fn addr : Nat) (write : Bool) (wdata be : Nat) (s : State) : Host.Outcome State Fault Refusal :=
  s.hostRow h fun s =>
    if addr < 0x200 || 0x300 ≤ addr || 256 < fn then s
    else if write then (s.cfgWrite h fn addr (enableBytes 4 be (s.cfgValue h fn addr) wdata % 2 ^ 32)).emit (.cfgDone h none)
    else s.emit (.cfgDone h (some (s.cfgValue h fn addr)))

/-- The outcome of a DMA read whose completion came (R29, R292): its text once the completion's MAC verifies; INTEGRITY, and the
integrity event of the port, where it does not; ACCESS where its TDI no longer runs on a secure stream; TIMEOUT where the port was reset
meanwhile (R66). The manual states no error
code for a read that the host fails: it is open. -/
def State.dmaDone (s : State) (h tag code : Nat) (data mac : Bytes) (d : DmaTag) : State :=
  let none_ := List.replicate 128 0xFF#8
  if d.lost then
    let e := s.free
    e.2.reply d.reply .timeout (e.1 % 2 ^ 16) none_
  else match s.tdiOf d.ctx with
  | some (k, t) =>
    let r := if t.state = 2 then s.ideOpen h t.stream subCpl (ideHeader 2 (k % 256 + 1) 0 code tag t.stream data.length true) data mac else (.unknown, s)
    match r.1 with
    | .passed text =>
      let e := r.2.free
      if codeOf code = .ok then r.2.reply d.reply .ok 0 (padTo 128 text) else e.2.reply d.reply (codeOf code) (e.1 % 2 ^ 16) none_
    | .failed => (r.2.reply d.reply .integrity 0x4001 none_).ideFailure h t.stream
    | .unknown => r.2.reply d.reply .access 0x4008 none_
  | none => s.reply d.reply .access 0x4008 none_

/-- The read that waits for a tag takes it, in the order of the masters of its port (R428) and of one master's the oldest. -/
def State.dmaNext (s : State) (h : Nat) : State :=
  let part := fun (x : ReplyTo × Nat × Nat) => (s.ctx x.2.1).part
  match argMin (fun x => s.masterRank (40 + h) (s.host h).master (part x)) (s.host h).dmaWaiting with
  | none => s
  | some x => (s.modHost h fun p => { p with dmaWaiting := p.dmaWaiting.erase x, master := part x }).hostAccess x.2.1 x.2.2 .load x.1

/-- HOST_DMA_COMPLETION (R292): the read ends; the completion's data comes with its IDE MAC, 12 bytes, after it. Its tag goes to a read
that waits for one. -/
def execHostDmaCompletion (h tag code : Nat) (data : Bytes) (s : State) : Host.Outcome State Fault Refusal :=
  withUnit (decide (h < s.cfg.hostPorts)) (doneS (s.whenAlive fun s => s.woken fun s => match tblFind (s.host h).dma tag with
    | none => s
    | some d =>
      let s1 := (s.modHost h fun p => { p with dma := tblDel p.dma tag }).touch 7 h
      (s1.dmaDone h tag code (data.take (data.length - 12)) (data.drop (data.length - 12)) d).dmaNext h))

end Sys2Proof.Machine
end

