-- ==== Sys2Proof/Machine/Frames.lean ====
section
/-! DEFINITION. Sys2Proof/Machine/Frames.lean: what the frames of Spaek links and chiplet ports share: checks, sealing,
messages in payload units, acknowledgement and replay (R245 to R256, R299 to R301). -/
namespace Sys2Proof.Machine

/-! ## Checks (R245, R247) -/

/-- One byte of CRC-16: polynomial 0x1021, most significant bit first. -/
def crc16Byte (c b : Nat) : Nat :=
  (List.range 8).foldl (fun c _ => if c < 0x8000 then 2 * c else (2 * c % 2 ^ 16) ^^^ 0x1021) (c ^^^ (b * 256))

/-- CRC-16 with initial value 0xFFFF, no reflection and no final XOR. -/
def crc16 (bs : Bytes) : Nat := bs.foldl (fun c b => crc16Byte c b.toNat) 0xFFFF

/-- One byte of the reflected CRC-32 of IEEE 802.3. -/
def crc32Byte (c b : Nat) : Nat :=
  (List.range 8).foldl (fun c _ => if c % 2 = 0 then c / 2 else (c / 2) ^^^ 0xEDB88320) (c ^^^ b)

/-- CRC-32 of IEEE 802.3. -/
def crc32 (bs : Bytes) : Nat := (bs.foldl (fun c b => crc32Byte c b.toNat) 0xFFFFFFFF) ^^^ 0xFFFFFFFF

/-- A header number with its HCRC in bits [127:112]. -/
def withHcrc (h : Nat) : Bytes := let b := leBytes 14 h; b ++ leBytes 2 (crc16 b)

/-- Does the header CRC of a frame hold. -/
def hcrcOk (b : Bytes) : Bool := crc16 (b.take 14) = bits (leNat (b.take 16)) 127 112

/-! ## Sealing (R246, R301) -/

/-- Key and salt of one direction of engine material (Table 13.7): the first direction is hub to chiplet, or requester to
responder. -/
def directionKey (material : Bytes) (first : Bool) : Bytes × Bytes :=
  if first then ((material.take 32), (material.drop 64).take 4) else ((material.drop 32).take 32, (material.drop 68).take 4)

/-- The IV of a frame: the salt, then SEQ big-endian. -/
def frameIv (salt : Bytes) (seq : Nat) : Bytes := salt ++ beBytes 8 seq

/-- Seal a payload under a header. -/
def sealFrame (key salt : Bytes) (seq : Nat) (hdr text : Bytes) : Bytes :=
  let ct := gcmCrypt key (frameIv salt seq) text
  hdr ++ ct ++ gcmTag key (frameIv salt seq) hdr ct

/-- Open a sealed frame: its payload, or nothing where the tag fails. -/
def openFrame (key salt : Bytes) (seq : Nat) (b : Bytes) : Option Bytes :=
  let hdr := b.take 16
  let ct := (b.drop 16).take (b.length - 32)
  if gcmTag key (frameIv salt seq) hdr ct = b.drop (b.length - 16) then some (gcmCrypt key (frameIv salt seq) ct) else none

/-! ## Messages in payload units (R248) -/

/-- What the payload units of a frame gave: units of a message not yet whole, messages whole, the lengths of those that
started, and whether one was malformed. -/
structure Gathered where
  rest : List Bytes := []
  msgs : List Bytes := []
  starts : List Nat := []
  bad : Bool := false

/-- Take payload units one by one. `first` is where FIRST says the first message starts, none once one has. An all-zero
unit where a message would start is padding (DEDUCED, log entry 3: no message has such a header). -/
def gatherUnits (len : Bytes → Option Nat) : Nat → Option Nat → Gathered → List Bytes → Gathered
  | _, _, g, [] => g
  | i, first, g, u :: us =>
    match g.rest with
    | [] =>
      if u.all (· = 0#8) then g
      else if (match first with | some f => decide (f ≠ i) | none => false) then { g with bad := true }
      else match len u with
        | none => { g with bad := true }
        | some n =>
          let g1 : Gathered := if n ≤ 1 then { g with msgs := g.msgs ++ [u], starts := g.starts ++ [n] } else { g with rest := [u], starts := g.starts ++ [n] }
          gatherUnits len (i + 1) none g1 us
    | h :: _ =>
      let all := g.rest ++ [u]
      let whole := decide ((len h).getD 0 ≤ all.length)
      let g1 : Gathered := if whole then { g with rest := [], msgs := g.msgs ++ [all.flatten] } else { g with rest := all }
      gatherUnits len (i + 1) first g1 us

/-! ## Sequence and acknowledgement (R255, R256) -/

/-- The sequence after the highest one that an ACK of `w` bits covers, from what was covered before. -/
def ackUpTo (w acked txSeq ack : Nat) : Nat :=
  let n := acked + (ack + 1 + 2 ^ w - acked % 2 ^ w) % 2 ^ w
  if n ≤ txSeq then n else acked

/-- Take the ACK and NAK of an accepted frame: covered frames leave the replay buffer. -/
def FrameSide.takeAck (f : FrameSide) (w ack : Nat) (nak : Bool) : FrameSide :=
  let a := ackUpTo w f.acked f.txSeq ack
  { f with acked := a, replay := f.replay.filter fun kv => decide (a ≤ kv.1), replayFrom := if nak then some a else f.replayFrom }

/-- A frame has been accepted in order. -/
def FrameSide.accept (f : FrameSide) : FrameSide := { f with rxSeq := f.rxSeq + 1, refusals := 0, hunting := false, nakHold := false, nakDue := false }

/-- A frame has been refused: NAK is owed, and beats are discarded until the expected frame comes. -/
def FrameSide.refuse (f : FrameSide) : FrameSide := { f with refusals := f.refusals + 1, hunting := true, nakHold := true, nakDue := true }

/-- The ACK field of the next frame: the low bits of the highest sequence received in order. -/
def FrameSide.ackField (f : FrameSide) (w : Nat) : Nat := (f.rxSeq + 2 ^ 64 - 1) % 2 ^ w

/-- A frame has been sealed and sent: it stays in the replay buffer until an ACK covers it, and messages held for want of room enter
the transmit queues. -/
def FrameSide.sent (f : FrameSide) (b : Bytes) : FrameSide := ({ f with txSeq := f.txSeq + 1, replay := tblPut f.replay f.txSeq b, nakDue := false } : FrameSide).letIn

/-- Has a replay buffer of a size room for one more frame of the greatest length: no frame is sealed that it could not keep (R255,
DEDUCED, log entry 107). -/
def FrameSide.replayRoom (f : FrameSide) (size frame : Nat) : Bool := decide ((f.replay.map fun kv => kv.2.length).foldl (· + ·) 0 + frame ≤ size)

/-- The transmit sequence at which an end starts a key update (R258). -/
def updateSeq : Nat := 2 ^ 63

/-- Units of a transmit queue up to the end of the first message, or of the message under way. -/
def headMessage (q : List (Bool × Bytes)) : List (Bool × Bytes) := (splitUnits q).headD []

end Sys2Proof.Machine
end

