-- ==== Sys2Proof/Machine/Chips.lean ====
section
/-! DEFINITION. Sys2Proof/Machine/Chips.lean: chiplet ports: states, admission, data keys, frames in and out, standby and
the messages of a chiplet (R295 to R307). -/
namespace Sys2Proof.Machine

/-! ## States (Tables 12.1 and 12.6) -/

/-- lp_stream of a port (R46): the one streaming protocol value, 0 in reset. -/
def State.lpStream (s : State) (c : Nat) : Nat := if (s.chip c).stateReq = 0 then 0 else Config.fdiStream.toNat

/-- Record an error of a chiplet port. -/
def State.chipError (s : State) (c e a : Nat) : State := (s.modChip c fun k => { k with lastErr := e }).error 1 c (s.chip c).bound e a

/-- An integrity event of a chiplet port. -/
def State.chipIntegrity (s : State) (c e a : Nat) : State :=
  (s.modChip c fun k => { k with lastErr := e }).integrity 0x3308 (c + 1) 1 c (s.chip c).bound e a 8

/-- The commands that wait for a chiplet port: deliveries, streams, and messages not yet transmitted. -/
def Chip.waits (k : Chip) : List Nat :=
  dedup (k.deliveries.map (·.cmd) ++ k.streams ++ k.queuedStreams ++ k.marks.map (·.1))

/-- The first row of a stream that its port has not transmitted whole (R168): of those read, one that waits at the lane and those that
wait in the transmit queue. -/
def State.rowsSent (s : State) (c id : Nat) : Nat :=
  let k := s.chip c
  (s.cmd id).done - bn (k.rows.any fun x => x.cmd = id && !x.last) - (k.rowMarks.filter fun m => m.1 = id && decide (k.unitsOut < m.2)).length

/-- A bridge stream ends early with its port (0x2221, R168), unless its own early end has been counted. -/
def State.streamLost (s : State) (c id : Nat) : State :=
  let x := s.cmd id
  if x.opcode = 0x24 && !(x.stage = 99 && x.fail.isSome) then s.bump 0x2221 (c + 1) else s

/-- A port leaves its session (R27, R66): its slot is invalidated first, everything it holds is discarded, and the commands
that wait for it, but those excepted, end with ACCESS, 0x3010 (R295). -/
def State.chipDropBut (s : State) (c state : Nat) (unbind : Bool) (but : List Nat) : State :=
  let k := s.chip c
  let s1 := match k.slot with | some i => s.invalidateSlot i | none => s
  let s2 := s1.modChip c fun k =>
    { state, inReset := k.inReset, stateReq := k.stateReq, cfgCredits := k.cfgCredits, lastErr := k.lastErr, palette := k.palette, holdoff := k.holdoff, modules := k.modules, discarded := k.discarded, sess := k.sess + 1, bound := if unbind then none else k.bound }
  let s3 := (k.waits.filter fun id => !but.contains id).foldl (fun t id =>
    (t.streamLost c id).finishCmd id .access 0x3010 (if (s.cmd id).opcode = 0x24 then s.rowsSent c id else 0)) s2
  s3.trace 8 1 c none 0 [k.state + state * 2 ^ 8]

/-- A port leaves its session: every command that waits for it ends. -/
def State.chipDrop (s : State) (c state : Nat) (unbind : Bool) : State := s.chipDropBut c state unbind []

/-- A port's physical reset (R66, R168): deliveries end as their port loses its binding, and the bridge streams finish with TIMEOUT at
their own bounded timeouts, their records naming the first row not delivered; the manual names no error code for them. -/
def State.chipReset (s : State) (c : Nat) : State :=
  let ids := (s.chip c).waits.filter fun id => (s.cmd id).opcode = 0x24
  let s1 := ids.foldl (fun t id => let (v, t') := t.free
    (t'.streamLost c id).modCmd id fun x => { x with stage := min x.stage 1, fail := some (.timeout, v % 2 ^ 16), pendingFrames := 0, detail := s.rowsSent c id }) s
  s1.chipDropBut c 0 true ids

/-- A port enters state 6 (Table 12.6). -/
def State.chipFail (s : State) (c e : Nat) : State :=
  ((s.chipError c e 0).chipDrop c 6 false).note 8 0 e none 0 (unitField 1 c) 6

/-- A port enters state 5: attestation or admission failed. -/
def State.chipRefuse (s : State) (c e : Nat) : State :=
  let s1 := if e = 0x3003 then s.chipError c e 0 else s.chipIntegrity c e 0
  (((s1.chipDrop c 5 true).modChip c fun k => { k with holdoff := true }).bump 0x3309 (c + 1)).note 8 0 e none 0 (unitField 1 c) 5

/-- A port loses its standing and returns to isolation (R27). -/
def State.chipIsolate (s : State) (c : Nat) : State := s.chipDrop c 1 true

/-! ## Keys (R298, R301, R335) -/

/-- The number of a chiplet port's engine key cache. -/
def chipEngine (c : Nat) : Nat := 0x140 + c

/-- Key and salt of a direction of a port under a generation; the state with its cache loaded, or the refusal. -/
def State.chipKey (s : State) (c g : Nat) (tx : Bool) : Except Nat ((Bytes × Bytes) × State) :=
  match (s.chip c).slot with
  | none => .error 0x8001
  | some i => match s.useKey (chipEngine c) 4 i g with
    | .error e => .error e
    | .ok t => .ok (directionKey (t.material i g) tx, t)

/-- The seed of a generation of a port's data keys from its session (Table 13.5). -/
def chipSeed (exportMaster : Bytes) (c p g : Nat) : Bytes := kdf exportMaster "SH9v2 chiplet" (leBytes 1 c ++ leBytes 1 p ++ leBytes 4 g) 256

/-- The grant (R297, R298): the palette entry, the hub's receive and operation credits, the partition number. -/
def State.grantBytes (s : State) (c p : Nat) : Bytes :=
  leBytes 8 (paletteWord (s.chip c).palette) ++ leBytes 2 14336 ++ leBytes 2 8192 ++ leBytes 4 p

/-- A partition is bound to an attested port (R298): its data keys are installed and the second grant is sent. A partition
that is not live, or a key store that refuses, leaves the port in state 3. -/
def State.chipBind (s : State) (c : Nat) : State :=
  let k := s.chip c
  match k.bound, s.freeLeaf with
  | some p, none => if k.state ≠ 3 || !(s.partn p).live then s else s.error 8 0 (some p) 0x8003 0
  | some p, some i =>
    if k.state ≠ 3 || !(s.partn p).live then s
    else match s.createSeedKey i 3 p 0 0 (chipSeed k.session.exportMaster c p 0) with
      | .error e => s.keyRefused e
      | .ok t =>
        ((t.modChip c fun k => { k with state := 4, slot := some i, fs := {}, rx := [], rxUnits := 0, owed := 0, owedOpc := 0, opsHeld := 0, standby := 0, update := false, updateX := none, rxNew := false, withhold := false, fresh := false, boundRunning := false, sess := k.sess + 1 }).emit
          (.spdm (.chip c) 0x7E (vendorHeader ++ t.grantBytes c p))).trace 8 1 c (some p) 0 [3 + 4 * 2 ^ 8]
  | _, _ => s

/-- Has the removal of a port's partition begun: it goes first, and a key update is abandoned (R318). -/
def State.chipRemoving (s : State) (c : Nat) : Bool := match (s.chip c).bound with | some p => (s.partn p).state = 3 | none => false

/-- Generation k + 1 is derived for both directions (R258, step 1, R301), as the hub asks for the update (DEDUCED, log entry 111). -/
def State.chipNext (s : State) (c : Nat) : State :=
  let k := s.chip c
  match k.slot with
  | none => s
  | some i =>
    if k.update || s.chipRemoving c then s
    else match s.setNextGen i (chipSeed k.session.exportMaster c (k.bound.getD 0) ((s.slot i).gen + 1)) with
      | .error e => (if e = 1 then s.bump 0x4000 4 else s).chipFail c (0x8000 + e)
      | .ok t => t.modChip c fun k => { k with update := true, updateX := none, rxNew := false, boundRunning := true, fresh := k.withhold }

/-- The hub chooses the X from which it seals under k + 1 (R258, step 2); the update of a port whose partition is being removed is
abandoned (R318). -/
def State.chipUpdate (s : State) (c : Nat) : State :=
  if s.chipRemoving c then s.modChip c fun k => { k with updateDue := false, session := { k.session with updateAsked := false } }
  else
    let t := s.chipNext c
    if (t.chip c).update && (t.chip c).updateX.isNone then t.modChip c fun k => { k with updateX := some k.fs.txSeq } else t

/-- Start a key update of an admitted port, which the hub alone may do (R258); it waits while an image is staged (R364). -/
def State.chipUpdateStart (s : State) (c : Nat) : State :=
  let k := s.chip c
  if k.state ≠ 4 || k.update || k.session.stage ≠ 5 || s.chipRemoving c then s
  else if s.fw.fw = 1 then s.modChip c fun k => { k with updateDue := true }
  else
    ((s.modChip c fun k => { k with updateDue := false, boundRunning := true, session := { k.session with updateAsked := true } }).emit
      (.spdmRequest (.chip c) 0xE9 [])).chipNext c

/-- The generation that seals a port's next frame. -/
def State.chipTxGen (s : State) (k : Chip) : Nat :=
  let g := (s.slot (k.slot.getD 0)).gen
  match k.updateX with | some x => if k.update && decide (x ≤ k.fs.txSeq) then g + 1 else g | none => g

/-- The generation that GEN and KEY_PHASE of a frame name, of those a port's receiver accepts. -/
def State.chipRxGen (s : State) (k : Chip) (gen : Nat) (phase : Bool) : Option Nat :=
  let g := (s.slot (k.slot.getD 0)).gen
  let fits := fun (x : Nat) => gen = x % 256 && phase = decide (x % 2 = 1)
  if !(k.update && k.rxNew) && fits g then some g else if k.update && fits (g + 1) then some (g + 1) else none

/-! ## Frames out (R299 to R302) -/

/-- Take units for a frame from a port's queue, message by message: a message starts only when the chiplet's buffer covers
its whole length. Answers the units, where the first message starts, what remains queued and the credit left. -/
def fillChip : Nat → List Bytes → Option Nat → List (Bool × Bytes) → Nat → List Bytes × Option Nat × List (Bool × Bytes) × Nat
  | 0, us, first, q, credit => (us, first, q, credit)
  | n + 1, us, first, q, credit =>
    let m := headMessage q
    let starts := (m.headD (false, [])).1
    if m.isEmpty || 126 ≤ us.length || (starts && decide (credit < m.length)) then (us, first, q, credit)
    else
      let k := min m.length (126 - us.length)
      fillChip n (us ++ (m.take k).map (·.2)) (if starts && first.isNone then some us.length else first) (q.drop k) (if starts then credit - m.length else credit)

/-- Messages whose last unit has been sent no longer hold their commands (R122). -/
def State.chipSent (s : State) (c : Nat) : State :=
  let k := s.chip c
  let out := k.marks.filter fun m => decide (m.2 ≤ k.unitsOut)
  let s1 := s.modChip c fun k => { k with marks := k.marks.filter fun m => decide (k.unitsOut < m.2), rowMarks := k.rowMarks.filter fun m => decide (k.unitsOut < m.2) }
  out.foldl (fun s m => (s.modCmd m.1 fun x => { x with pendingFrames := x.pendingFrames - 1 }).cmdCheck m.1) s1

/-- The units that a port may send: while it waits for STANDBY_ACK, those up to STANDBY's end (R303). -/
def Chip.sendable (k : Chip) : List (Bool × Bytes) :=
  let q := tblGet k.fs.txq 0 []
  if k.standby = 1 then q.take (k.standbyAt - k.unitsOut) else q

/-- Seal and send one frame of an admitted port: what its queue holds, or an idle frame where asked or where it holds nothing; none while the 256 KB of replay buffer are
full (R302). The frame that takes the sequence to 2⁶³ starts a key update (R258). -/
def State.chipFrameOf (s : State) (c : Nat) (idle : Bool) : State :=
  let k0 := s.chip c
  if !s.sealing then s
  else if 2 ^ 64 - 1 ≤ k0.fs.txSeq then s.chipFail c 0x300C
  else if !k0.fs.replayRoom 262144 2048 then s
  else
    let g := s.chipTxGen k0
    match s.chipKey c g true with
    | .error e => (s.refuseUse e).chipFail c e
    | .ok (ks, s1) =>
      let q := k0.sendable
      let r := if idle then ([], none, q, k0.credits) else fillChip 126 [] none q k0.credits
      let later := (tblGet k0.fs.txq 0 []).drop q.length
      let us := r.1
      let n := max 1 ((us.length + 17) / 16)
      let units := if k0.withhold then 0 else min 255 k0.owed
      let ops := if k0.withhold then 0 else min 15 k0.owedOpc
      let hdr := withHcrc ((if us.isEmpty then 2 else 1) + (n - 1) * 2 ^ 2 + g % 2 * 2 ^ 5 + bn k0.fs.nakDue * 2 ^ 6 + g % 256 * 2 ^ 8 +
        (r.2.1.getD 0x7F) * 2 ^ 16 + k0.fs.ackField 12 * 2 ^ 24 + ops * 2 ^ 36 + k0.fs.txSeq * 2 ^ 40 + units * 2 ^ 104)
      let b := sealFrame ks.1 ks.2 k0.fs.txSeq hdr (padTo (16 * (16 * n - 2)) us.flatten)
      let s2 := s1.modChip c fun k =>
        { k with fs := ({ k.fs with txq := tblSet k.fs.txq 0 (r.2.2.1 ++ later) [] } : FrameSide).sent b, credits := r.2.2.2, owed := k.owed - units, owedOpc := k.owedOpc - ops, unitsOut := k.unitsOut + us.length }
      let s3 := (((s2.emit (.chipFrame c (k0.fs.txSeq % max 1 k0.used) b)).bump 0x3306 (c + 1)).bumpBy 0x6202 (c + 1) (if us.isEmpty then 0 else 16 * (16 * n - 2))).chipSent c
      let s4 := if us.isEmpty then s3 else s3.touch 5 c
      let s5 := if k0.fs.txSeq + 1 = updateSeq then s4.chipUpdateStart c else s4
      if k0.fs.nakDue then s5.trace 6 1 c none 0 [k0.fs.txSeq, 1] else s5

/-- Seal and send the next frame of an admitted port. -/
def State.chipFrameOut (s : State) (c : Nat) : State := s.chipFrameOf c false

/-- Has a port something to send. -/
def Chip.hasWork (k : Chip) : Bool := !(tblGet k.fs.txq 0 []).isEmpty || !k.deliveries.isEmpty || !k.rows.isEmpty

/-- A port in standby resumes with an idle frame, and waits for the chiplet's (R303). -/
def State.resumeChip (s : State) (c : Nat) : State :=
  if (s.chip c).state = 4 && (s.chip c).standby = 2 then (s.modChip c fun k => { k with standby := 3 }).chipFrameOf c true else s

/-- At a module's turn (R299): a frame, or nothing where STANDBY has been sent. -/
def State.chipTurn (s : State) (c : Nat) : State :=
  let k := s.chip c
  if k.state ≠ 4 then s
  else if !s.sealing then (if k.hasWork then s.beginExit else s)
  else match k.standby with
    | 1 => if k.sendable.isEmpty then s else s.chipFrameOut c
    | 2 => if k.hasWork then (s.modChip c fun k => { k with standby := 3 }).chipFrameOf c true else s
    | _ => s.chipFrameOut c

/-- Serve a NAK received (R256, R301). -/
def State.chipReplay (s : State) (c : Nat) : State :=
  let k := s.chip c
  match k.fs.replayFrom with
  | none => s
  | some a =>
    let again := k.fs.replay.filter fun kv => decide (a ≤ kv.1)
    let s1 := s.modChip c fun k => { k with fs := { k.fs with replayFrom := none } }
    (again.foldl (fun s kv => s.emit (.chipFrame c (kv.1 % max 1 k.used) kv.2)) s1).trace 6 1 c none 0 [a, 2]

/-- A wake frame (R303): one beat whose header has KIND 0b11 and zero bytes after it. -/
def chipWakeBeat : Bytes := padTo 256 (withHcrc 3)

/-- A wake frame reaches a port in standby (R303): the hub exits to S0 and resumes the port. -/
def State.wakeChip (s : State) (c : Nat) : State :=
  if !((s.chip c).state = 4 && (s.chip c).standby = 2) then s
  else if s.power.state = 0 && s.power.exiting.isNone then s.resumeChip c else s.beginExit

/-! ## Messages in (R304, R305) -/

/-- Return the units of a message that holds no operation credit. -/
def State.freeChipUnits (s : State) (c units : Nat) : State :=
  s.modChip c fun k => { k with owed := k.owed + min units k.rxUnits, rxUnits := k.rxUnits - units }

/-- Units of a chiplet's message with its header. -/
def ChipMsg.units (m : ChipMsg) : Nat := (chipMsgBytes m).length / 16

/-- Does a message of a chiplet take an operation credit: the requests that are answered (R302). -/
def chipRequest (t : Nat) : Bool := t < 5

/-- Doorbells act in the order of the port's messages; a STANDBY_ACK that was not asked for has no effect (R303, R305). -/
def State.drainBellsN (c : Nat) : Nat → State → State
  | 0, s => s
  | n + 1, s => match (s.chip c).rx with
    | [] => s
    | m :: rest =>
      let s1 := (s.modChip c fun k => { k with rx := rest }).freeChipUnits c m.units
      if m.mtype = 0x06 then State.drainBellsN c n (s1.doorbell (.chip c) m.otag 15 m.addr)
      else if m.mtype = 0x07 && (s.chip c).standby ≠ 1 then State.drainBellsN c n s1
      else s

@[inherit_doc State.drainBellsN] def State.drainBells (s : State) (c : Nat) : State := State.drainBellsN c (s.chip c).rx.length s

/-- Take the message at the head of a port, where it is of a type. -/
def State.takeChipMsg (s : State) (c t : Nat) : Option (ChipMsg × State) :=
  match (s.chip c).rx with
  | m :: rest => if m.mtype = t && (s.chip c).state = 4 then some (m, s.modChip c fun k => { k with rx := rest }) else none
  | [] => none

/-- The request that a chiplet's message asks for (Table 10.3, R305). -/
def chipAccess (m : ChipMsg) : Access × Bool :=
  match m.mtype with
  | 0x01 => (.load, true)
  | 0x02 => (.store m.body, false)
  | 0x03 => (normalAccess (.partialStore (leNat (m.body.take 16)) (m.body.drop 16)), false)
  | _ =>
    let v := leNat (m.body.take 16)
    (.atomic (bits v 7 0) (bit v 8) (m.addr % 128) (bits v 127 64), bit v 9)

/-- Serve the request at the head of a port through its first-level buffer under its partition. -/
def State.chipRequestGo (s : State) (c t : Nat) : State :=
  match s.takeChipMsg c t with
  | none => s
  | some (m, s1) =>
    let a := chipAccess m
    (s1.access { buf := bufChip c, part := (s1.chip c).bound.getD 0, ctx := none, dev := m.addr / 128 * 128, acc := a.1, cls := 4, source := srcChip c,
                 reply := .chip c (s1.chip c).sess m.otag a.2 m.units, ret := a.2 }).drainBells c

/-- Serve the chunk at the head of a port (R176 to R180), in its partition's turn at the lanes (R170): its buffer returns at once, its operation credit with its
acknowledgement. One of another partition is dropped (DEDUCED: R305 translates under the bound partition alone, log entry 59). -/
def State.chipChunk (s : State) (c : Nat) : State :=
  match s.takeChipMsg c 0 with
  | none => s
  | some (m, s1) =>
    let k := chunkOf m.body
    if !s.computing then s.beginExit else
    if !s.lanesFor ((s.chip c).bound.getD 0) then s.takeEarly else
    let s2 := (s1.freeChipUnits c m.units).lanesServed ((s.chip c).bound.getD 0)
    let f : ChunkFrom := .chip c (s2.chip c).sess (bits (leNat (m.body.take 16)) 81 64) (m.body.take 15)
    let s3 := if some k.part ≠ (s2.chip c).bound then s2.freeChip c 0
      else if k.count ≠ 1 || k.combine then s2.refuseChunk f .format
      else if k.home = s2.memberField then s2.chunkArrive k f else s2.chunkForward none k f
    (s3.takeEarly).drainBells c

/-! ## Frames in (R299 to R303) -/

/-- A frame is refused with NAK; the eighth refusal of one sequence fails the port. -/
def State.chipNak (s : State) (c e : Nat) : State :=
  let a := (s.chip c).fs.rxSeq
  let s1 := if e = 0x3005 then s.chipIntegrity c e a else s.chipError c e a
  let s2 := s1.modChip c fun k => { k with fs := k.fs.refuse }
  if 8 ≤ (s2.chip c).fs.refusals then s2.chipFail c 0x300B else s2

/-- Charge the messages that start in a frame against the port's receive buffer and operation credits; none where the
chiplet overran them (0x3009). -/
def Chip.charge (k : Chip) (starts : List Nat) : Option Chip :=
  let n := starts.foldl (· + ·) 0
  if 14336 < k.rxUnits + k.owed + n then none else some { k with rxUnits := k.rxUnits + n }

/-- The payload of an accepted data frame. -/
def State.chipPayload (s : State) (c first : Nat) (text : Bytes) : State :=
  let k := s.chip c
  let g := gatherUnits chipMsgUnits 0 (some first) { rest := tblGet k.fs.partialRx 0 [] } (chunks 16 text)
  let ms := g.msgs.map chipMsgOf
  let ops := (ms.filter fun m => chipRequest m.mtype).length
  if g.bad then s.chipFail c 0x300A
  else match k.charge g.starts with
    | none => s.chipFail c 0x3009
    | some k1 =>
      if 8192 < k.opsHeld + k.owedOpc + ops then s.chipFail c 0x3009
      else
        (s.modChip c fun _ => { k1 with fs := { k1.fs with partialRx := tblSet k1.fs.partialRx 0 g.rest [] }, opsHeld := k1.opsHeld + ops, rx := k1.rx ++ ms }).drainBells c

/-- A frame that passed its checks: ACK, NAK and credits are taken, then its messages. -/
def State.chipAccept (s : State) (c h g : Nat) (text : Bytes) : State :=
  let k := s.chip c
  let newGen := decide (g ≠ (s.slot (k.slot.getD 0)).gen)
  let s1 := s.modChip c fun k =>
    { k with fs := k.fs.accept.takeAck 12 (bits h 35 24) (bit h 6), rxNew := k.rxNew || newGen, credits := if bit h 7 then k.credits + bits h 111 104 else k.credits, standby := if k.standby = 3 then 0 else k.standby }
  let s2 := s1.bump 0x3307 (c + 1)
  if bits h 1 0 = 1 then (s2.bumpBy 0x6202 (c + 1) text.length).chipPayload c (bits h 22 16) text else s2

/-- A frame reaches an admitted port (R301, Table 12.6). -/
def State.chipSealedIn (s : State) (c : Nat) (beats : Bytes) : State :=
  let k := s.chip c
  let h := leNat (beats.take 16)
  let n := bits h 4 2 + 1
  let b := padTo (256 * n) beats
  let inj := s.takeInjection 6 c
  let s0 := inj.getD s
  let crc := decide (hcrcOk b = inj.isNone)
  let seq := bits h 103 40
  let kind := bits h 1 0
  let framed := kind = 1 || kind = 2
  if k.fs.hunting && (!crc || !framed || seq ≠ k.fs.rxSeq) then
    (if k.fs.nakHold || decide (crc ∧ framed ∧ seq < k.fs.rxSeq) then s0 else s0.chipNak c (if !crc then 0x3004 else 0x3006))
  else if !crc then s0.chipNak c 0x3004
  else if !framed then s0
  else match s0.chipRxGen k (bits h 15 8) (bit h 5) with
    | none => (s0.chipError c 0x3008 seq).modChip c fun k => { k with owed := k.owed + (if kind = 1 then 16 * n - 2 else 0) }
    | some g =>
      if k.fs.rxSeq < seq then s0.chipNak c 0x3006
      else if seq < k.fs.rxSeq then s0.chipError c 0x3007 seq
      else match s0.chipKey c g false with
        | .error e => (s0.refuseUse e).chipFail c e
        | .ok (ks, s1) => match s1.takeInjection 0x13 c with
          | some t => t.chipNak c 0x3005
          | none => match openFrame ks.1 ks.2 seq b with
            | none => s1.chipNak c 0x3005
            | some text => s1.chipAccept c h g text

/-- A frame reaches a chiplet port: data on a port that is not admitted is discarded, and counted in isolation; a port in standby takes only
wake frames (Table 12.1), which are dropped elsewhere (R303); while the clock of the ports is stopped pl_valid wakes the block (R72). -/
def State.chipFrameIn (s : State) (c : Nat) (beats : Bytes) : State :=
  if !s.sealing then s.beginExit
  else if (s.chip c).state ≠ 4 then (if (s.chip c).state = 1 then s.modChip c fun k => { k with discarded := k.discarded + 1 } else s)
  else if (s.chip c).standby = 2 then (if beats = chipWakeBeat then s.wakeChip c else s)
  else if bits (leNat (beats.take 16)) 1 0 = 3 && hcrcOk beats then s
  else s.chipSealedIn c beats

end Sys2Proof.Machine
end

