-- ==== Sys2Proof/Machine/Links.lean ====
section
/-! DEFINITION. Sys2Proof/Machine/Links.lean: Spaek links: states, keys, frames in and out, forwarding and idle-low
(R245 to R269, R351). -/
namespace Sys2Proof.Machine

/-! ## States (Table 10.6) -/

/-- Does a link's peer belong to this hub's domain. -/
def State.sameDomain (s : State) (k : Link) : Bool :=
  match k.peer with | some h => s.bring.member && h.isMember && h.domain = s.bring.domain | none => false

/-- Record an error of a link. -/
def State.linkError (s : State) (l e a : Nat) : State := (s.modLink l fun k => { k with lastErr := e }).error 2 l none e a

/-- An integrity event of a link. -/
def State.linkIntegrity (s : State) (l e a : Nat) : State := (s.modLink l fun k => { k with lastErr := e }).integrity 0x3203 (l + 1) 2 l none e a 7

/-- Everything a link holds is discarded (R66, R263): its slot is invalidated, and its next session starts afresh. The rank that the
peer's last HELLO gave stays known (R270). -/
def State.linkDrop (s : State) (l state : Nat) : State :=
  let k := s.link l
  let s1 := match k.slot with | some i => s.invalidateSlot i | none => s
  let mine := fun (x : RouteHeld) => x.back.any fun b => b.1 = l
  let s2 : State := { s1 with chunkRecs := s1.chunkRecs.filter (fun r => r.link ≠ l), routeHold := s1.routeHold.filter fun x => !mine x }
  (s2.modLink l fun k => { state, pcsUp := k.pcsUp, inReset := k.inReset, lastErr := k.lastErr, holdoff := k.holdoff, sess := k.sess + 1, rank := k.rank }).trace 8 2 l none 0 [k.state + state * 2 ^ 8]

/-- A join under way is refused with a reason of Table 24.3, and audited (R535). -/
def State.joinStop (s : State) (reason : Nat) : State :=
  if s.bring.join = 1 then ({ s with bring := { s.bring with join := 3, joinReason := reason } } : State).auditHub 2 0x7002 4 0 (3 + reason * 2 ^ 8) else s

/-- A join over a link is abandoned (R535, R537). -/
def State.joinLost (s : State) (l : Nat) : State := if s.bring.joinLink = l then s.joinStop 3 else s

/-- Send JOIN inside the session of the join's link, once this hub is its requester (R535, steps 2 and 3). -/
def State.joinGo (s : State) (l : Nat) : State :=
  if s.bring.join = 1 && s.bring.joinLink = l && (s.link l).state = 3 && (s.link l).session.requester then
    s.say (.spdmRequest (.link l) 0xFE (0x20#8 :: leBytes 2 (s.setting 0x7002 1)))
  else s

/-- A link fails (Table 10.7, R263): it raises sl_train_req and stays failed until sl_pcs_up falls. -/
def State.linkFail (s : State) (l e : Nat) : State :=
  let k := s.link l
  if k.state = 0 || k.state = 6 || k.state = 7 then s
  else
    let s1 := if e = 0x2010 then (s.linkIntegrity l e 0).modLink l fun k => { k with holdoff := true } else s.linkError l e 0
    let s2 := ((s1.linkDrop l 6).modLink l fun k => { k with trainReq := true }).joinLost l
    (s2.bump 0x3207 (l + 1)).note 8 0 e none 0 (unitField 2 l) 6

/-- The HELLO record of this hub (Table 10.8). -/
def State.helloBody (s : State) (l : Nat) : Bytes :=
  leBytes 16 (s.memberField + bn s.bring.member * 2 ^ 16 + l * 2 ^ 24 + s.setting 0x3210 1 * 2 ^ 32 + 0x0201 * 2 ^ 48 +
    (if s.bring.member then s.bring.domain else 0) * 2 ^ 64)

/-- Queue a HELLO. -/
def State.sendHello (s : State) (l : Nat) : State :=
  (s.sendOn l { mtype := 0x31, src := s.memberField, body := s.helloBody l }).modLink l fun k => { k with sentHello := true }

/-! ## Keys (R257, R258, R335) -/

/-- The number of a link's engine key cache. -/
def linkEngine (l : Nat) : Nat := 0x100 + l

/-- Was this end the requester of the session that a generation of a link's keys comes from: during a key update that moves the link to
a fresh session the two generations may differ (R257, R260). -/
def State.linkAsked (s : State) (k : Link) (g : Nat) : Bool := if g = (s.slot (k.slot.getD 0)).gen then k.asked else k.askedNext

/-- Key and salt of a direction of a link under a generation; the state with its cache loaded, or the refusal. -/
def State.linkKey (s : State) (l g : Nat) (tx : Bool) : Except Nat ((Bytes × Bytes) × State) :=
  match (s.link l).slot with
  | none => .error 0x8001
  | some i => match s.useKey (linkEngine l) 6 i g with
    | .error e => .error e
    | .ok t => .ok (directionKey (t.material i g) (decide (s.linkAsked (s.link l) g = tx)), t)

/-- The seed of a generation of a link from its session (Table 13.5). -/
def linkSeed (exportMaster : Bytes) (g : Nat) : Bytes := kdf exportMaster "SH9v2 link" (leBytes 4 g) 256

/-- Generation k + 1 is derived for both directions (R258, step 1): the receiver takes both phases from now on. The end that asks
for the update derives it as its request leaves, since the peer's answer may already stand under k + 1 (DEDUCED, log entry 111). -/
def State.linkNext (s : State) (l : Nat) : State :=
  let k := s.link l
  match k.slot with
  | none => s
  | some i =>
    if k.update then s
    else match s.setNextGen i (linkSeed k.session.exportMaster ((s.slot i).gen + 1)) with
      | .error c => (if c = 1 then s.bump 0x4000 4 else s).linkFail l (0x8000 + c)
      | .ok t => t.modLink l fun k => { k with update := true, updateX := none, rxNew := false, boundRunning := true, fresh := k.rekeying, askedNext := k.session.requester }

/-- Both ends hold k + 1, and this one chooses the X from which it seals under it (R258, steps 1 and 2); under the fresh session of a
commit the same steps move the link to its keys (R260), once an update that already runs has ended. -/
def State.linkUpdate (s : State) (l : Nat) : State :=
  let t := s.linkNext l
  if (t.link l).update && (t.link l).updateX.isNone then t.modLink l fun k => { k with updateX := some k.fs.txSeq } else t

/-- Start a key update of a keyed link (R258): KEY_UPDATE from the requester end, an encapsulated one from the responder; it waits
while an image is staged (R364) and while the link sleeps (DEDUCED, log entry 108). -/
def State.linkUpdateStart (s : State) (l : Nat) : State :=
  let k := s.link l
  if !(k.state = 3 || k.state = 4 || k.state = 5) || k.update || k.session.stage ≠ 5 then s
  else if s.fw.fw = 1 || k.state = 5 then s.modLink l fun k => { k with updateDue := true }
  else
    ((s.modLink l fun k => { k with updateDue := false, boundRunning := true, session := { k.session with updateAsked := true } }).say
      (if k.session.requester then .spdmRequest (.link l) 0xE9 [] else .spdm (.link l) 0x6A [0xE9#8])).linkNext l

/-- A key update that fell due while the link slept starts. -/
def State.linkUpdateDue (s : State) (l : Nat) : State := if (s.link l).updateDue then s.linkUpdateStart l else s

/-- The generation that seals a link's next frame. -/
def State.txGen (s : State) (k : Link) : Nat :=
  let g := (s.slot (k.slot.getD 0)).gen
  match k.updateX with | some x => if k.update && decide (x ≤ k.fs.txSeq) then g + 1 else g | none => g

/-- The generation that a key phase names, of those a link's receiver accepts. -/
def State.rxGen (s : State) (k : Link) (phase : Bool) : Option Nat :=
  let g := (s.slot (k.slot.getD 0)).gen
  if !(k.update && k.rxNew) && phase = decide (g % 2 = 1) then some g
  else if k.update && phase = decide ((g + 1) % 2 = 1) then some (g + 1) else none

/-! ## Frames out (R251, R252) -/

/-- Is a message covered by the credits of its channel. -/
def Link.covers (k : Link) (vc units : Nat) : Bool :=
  decide (units ≤ tblGet k.credits vc (vcReserve vc) + k.shared) && (vc ≠ 0 || decide (1 ≤ k.opc))

/-- Spend the credits of a message: the channel's reserved ones first (R252, R253). -/
def Link.spend (k : Link) (vc units : Nat) : Link :=
  let r := tblGet k.credits vc (vcReserve vc)
  let a := min r units
  { k with credits := tblSet k.credits vc (r - a) (vcReserve vc), shared := k.shared - (units - a), opc := k.opc - (if vc = 0 then 1 else 0) }

/-- The message a channel sends next: one under way; else, among the waiting messages, that of the partition whose turn the
regulation gives (R428). -/
def State.nextMessage (s : State) (l vc : Nat) : Option (List (Bool × Bytes)) :=
  let k := s.link l
  let ms := splitUnits (tblGet k.fs.txq vc [])
  match ms with
  | [] => none
  | m :: _ =>
    if vc ≥ 2 || !((m.headD (false, [])).1) then some m
    else argMin (fun x => s.masterRank (8 + l) k.fs.master (msgOf (x.flatMap (·.2))).part) ms

/-- May a channel send now: units wait, and the next message is under way or covered. -/
def State.vcReady (s : State) (l vc : Nat) : Bool :=
  match s.nextMessage l vc with
  | none => false
  | some m => !((m.headD (false, [])).1) || (s.link l).covers vc m.length

/-- The channel of the next frame (R251); none where an idle frame is sent. -/
def State.nextVc (s : State) (l : Nat) : Option Nat :=
  let k := s.link l
  let waits := fun vc => !(tblGet k.fs.txq vc []).isEmpty
  let vc3 := s.vcReady l 3
  if k.state = 3 || k.peerLow then (if vc3 then some 3 else none)
  else if s.vcReady l 2 then some 2
  else if vc3 && (decide (15 ≤ k.fs.sinceVc3) || !(waits 0 || waits 1)) then some 3
  else
    let a := if k.fs.turn = 0 then 1 else 0
    if s.vcReady l a then some a else if s.vcReady l (1 - a) then some (1 - a) else none

/-- Take units for a frame of a channel: at most `room`, message by message. Answers the units, where the first message
starts, and the state. -/
def State.fillFrame (l vc : Nat) : Nat → List Bytes → Option Nat → State → List Bytes × Option Nat × State
  | 0, us, first, s => (us, first, s)
  | n + 1, us, first, s =>
    match s.nextMessage l vc with
    | none => (us, first, s)
    | some m =>
      let starts := (m.headD (false, [])).1
      if 62 ≤ us.length || (starts && !(s.link l).covers vc m.length) then (us, first, s)
      else
        let part := (msgOf (m.flatMap (·.2))).part
        let take := m.take (62 - us.length)
        let left := m.drop (62 - us.length)
        let s1 := s.modLink l fun k =>
          let rest := ((splitUnits (tblGet k.fs.txq vc [])).erase m).flatten
          let k1 := if starts then k.spend vc m.length else k
          { k1 with fs := { k1.fs with txq := tblSet k1.fs.txq vc (left ++ rest) [], master := if starts && vc < 2 then part else k1.fs.master } }
        let s2 := if starts && vc < 2 then s1.charge (8 + l) part (16 * m.length) else s1
        State.fillFrame l vc n (us ++ take.map (·.2)) (if starts && first.isNone then some us.length else first) s2

/-- Credits for the next frame to return: shared ones first, then the lowest channel that is owed some; none of VC0 and VC1
while they are withheld (R252, R260). Answers CRD_SHARED, CRD_VC, CRD_UNITS, OPC and the link after. -/
def Link.returns (k : Link) : Bool × Nat × Nat × Nat × Link :=
  let o := if k.withhold then 0 else min 15 k.owedOpc
  let k0 : Link := { k with owedOpc := k.owedOpc - o }
  if k.owedShared ≠ 0 && !k.withhold then
    let n := min 4095 k.owedShared
    (true, 0, n, o, { k0 with owedShared := k.owedShared - n, peerShared := k.peerShared + n })
  else match (if k.withhold then [2, 3] else [0, 1, 2, 3]).find? fun vc => decide (tblGet k.owed vc 0 ≠ 0) with
    | none => (false, 0, 0, o, k0)
    | some vc =>
      let n := min 4095 (tblGet k.owed vc 0)
      (false, vc, n, o, { k0 with owed := tblMod k0.owed vc (· - n) 0, peerCredits := tblMod k0.peerCredits vc (· + n) (vcReserve vc) })

/-- Seal and send one frame of a keyed link: units of a channel, or an idle frame; none while the 96 KB of replay buffer are full
(R254, R255). The frame that takes the sequence to 2⁶³ starts a key update (R258). -/
def State.sealedFrameOn (s : State) (l : Nat) (vc : Option Nat) : State :=
  let k0 := s.link l
  if !s.sealing then s
  else if 2 ^ 64 - 1 ≤ k0.fs.txSeq then s.linkFail l 0x200D
  else if !k0.fs.replayRoom 98304 1024 then s
  else
    let r := match vc with | some v => State.fillFrame l v 62 [] none s | none => ([], none, s)
    let us := r.1
    let g := s.txGen k0
    match r.2.2.linkKey l g true with
    | .error e => (s.refuseUse e).linkFail l e
    | .ok (ks, s1) =>
      let k := s1.link l
      let c := k.returns
      let n := max 1 ((us.length + 9) / 8)
      let nak := k.fs.nakDue
      let hdr := withHcrc (1 + vc.getD 3 * 2 ^ 2 + (n - 1) * 2 ^ 4 + g % 2 * 2 ^ 7 + (r.2.1.getD 0x3F) * 2 ^ 8 + bn nak * 2 ^ 14 + bn c.1 * 2 ^ 15 +
        c.2.1 * 2 ^ 16 + k.fs.ackField 14 * 2 ^ 18 + k.fs.txSeq * 2 ^ 32 + c.2.2.1 * 2 ^ 96 + c.2.2.2.1 * 2 ^ 108)
      let b := sealFrame ks.1 ks.2 k.fs.txSeq hdr (padTo (16 * (8 * n - 2)) us.flatten)
      let data := vc = some 0 || vc = some 1
      let fs1 := (c.2.2.2.2).fs.sent b
      let fs2 : FrameSide := { fs1 with turn := if data then vc.getD 0 else fs1.turn, sinceVc3 := if vc = some 3 then 0 else fs1.sinceVc3 + 1, abortEnd := if vc = some 2 then fs1.txSeq else fs1.abortEnd }
      let s2 := (((s1.modLink l fun _ => { c.2.2.2.2 with fs := fs2 }).emit (.frame l b)).bump 0x3201 (l + 1)).bumpBy 0x6201 (l + 1) (if us.isEmpty then 0 else 16 * (8 * n - 2))
      let s3 := if data then s2.touch 3 l else s2
      let s4 := if nak then (s3.bump 0x3204 (l + 1)).trace 6 2 l none 0 [k.fs.txSeq, 1] else s3
      let s5 := if fs2.txSeq = updateSeq then s4.linkUpdateStart l else s4
      if k.peerLow && (tblGet fs2.txq 3 []).isEmpty then
        (s5.modLink l fun k => { k with state := 5 }).trace 8 2 l none 0 [4 + 5 * 2 ^ 8] else s5

/-- Seal and send the next frame of a keyed link. -/
def State.sealedFrame (s : State) (l : Nat) : State := s.sealedFrameOn l (s.nextVc l)

/-- Send one plain frame of VC3 (R247), where units wait. -/
def State.plainFrame (s : State) (l : Nat) : State :=
  let q := tblGet (s.link l).fs.txq 3 []
  let us := q.take 62
  if us.isEmpty || !s.sealing then s
  else
    let n := (us.length + 9) / 8
    let first := (us.zipIdx.find? fun u => u.1.1).map (·.2)
    let b := withHcrc (3 * 2 ^ 2 + (n - 1) * 2 ^ 4 + first.getD 0x3F * 2 ^ 8) ++ padTo (16 * (8 * n - 2)) (us.flatMap (·.2))
    (((s.modLink l fun k => { k with fs := ({ k.fs with txq := tblSet k.fs.txq 3 (q.drop 62) [] } : FrameSide).letIn }).emit (.frame l (b ++ padTo 16 (leBytes 4 (crc32 b))))).bump 0x3201 (l + 1)).bumpBy
      0x6201 (l + 1) (16 * (8 * n - 2))

/-- Plain frames for all that waits on VC3: the last messages before a link's keys. -/
def State.plainFlush (s : State) (l : Nat) : State :=
  (List.range ((tblGet (s.link l).fs.txq 3 []).length / 62 + 1)).foldl (fun s _ => s.plainFrame l) s

/-- The link session is established (R257, R352): its keys are installed and it is sealed from SEQ 0. -/
def State.linkKeyed (s0 : State) (l : Nat) : State :=
  let s := s0.plainFlush l
  let k := s.link l
  match s.freeLeaf with
  | none => s.linkFail l 0x8003
  | some i => match s.createSeedKey i 4 0x41 0 0 (linkSeed k.session.exportMaster 0) with
    | .error c => (if c = 1 then s.bump 0x4000 4 else s).linkFail l (0x8000 + c)
    | .ok t =>
      let st := if s.sameDomain k then 4 else 3
      ((t.modLink l fun k =>
        { k with state := st, slot := some i, fs := {}, rx := [], credits := [], shared := 4608, opc := 8192, occupied := [], owed := [], owedShared := 0, owedOpc := 0, vc0Held := 0, peerCredits := [], peerShared := 4608, sess := k.sess + 1, update := false, updateX := none, rxNew := false, withhold := false, boundRunning := false, rekeying := false, fresh := false, asked := k.session.requester, askedNext := k.session.requester }).trace 8 2 l none 0 [k.state + st * 2 ^ 8]).joinGo l

/-- Send the next frame that a link's state permits. -/
def State.transmit (s : State) (l : Nat) : State :=
  match (s.link l).state with
  | 1 => s.plainFrame l
  | 2 => s.plainFrame l
  | 3 => s.sealedFrame l
  | 4 => s.sealedFrame l
  | _ => s

/-- Serve a NAK received: every frame after ACK is sent again, unchanged (R256). -/
def State.replay (s : State) (l : Nat) : State :=
  let k := s.link l
  match k.fs.replayFrom with
  | none => s
  | some a =>
    let again := k.fs.replay.filter fun kv => decide (a ≤ kv.1)
    let s1 := s.modLink l fun k => { k with fs := { k.fs with replayFrom := none } }
    ((again.foldl (fun s kv => s.emit (.frame l kv.2)) s1).bumpBy 0x3205 (l + 1) again.length).trace 6 2 l none 0 [a, 2]

/-- A wake frame: one beat, zero after its header (R247). Its FIRST names no message; the other fields of its header are zeros (DESIGN
CHOICE, log entry 65: no rule gives them). -/
def wakeBeat : Bytes := padTo 128 (withHcrc (2 + 0x3F * 2 ^ 8))

/-- Are beats a wake frame (R247): one beat of KIND 0b10 whose header CRC holds, with zeros after the header. The other header fields
are not looked at. -/
def isWake (beats : Bytes) : Bool :=
  let b := padTo 128 beats
  let h := leNat (b.take 16)
  decide (beats.length ≤ 128) && bits h 1 0 = 2 && bits h 6 4 = 0 && hcrcOk b && (b.drop 16).all (· = 0#8)

/-- A link leaves idle-low: up, or keyed alone where the two ends no longer share a domain (R262); a HELLO that a change of membership
owes the peer leaves now, and so does a key update that fell due. -/
def State.linkAwake (s : State) (l : Nat) : State :=
  if (s.link l).state ≠ 5 then s
  else
    let st := if s.sameDomain (s.link l) then 4 else 3
    let s1 := (s.modLink l fun k => { k with state := st, idleSent := false, peerLow := false, wakeSent := false }).trace 8 2 l none 0 [5 + st * 2 ^ 8]
    (if (s1.link l).sentHello then s1 else s1.sendHello l).linkUpdateDue l

/-- A link in idle-low resumes with an idle frame (R265). -/
def State.resumeLink (s : State) (l : Nat) : State := if (s.link l).state = 5 then (s.linkAwake l).sealedFrameOn l none else s

/-- A wake frame reaches a link in idle-low: the hub exits to S0 and resumes the link (R265, R72). -/
def State.wakeLink (s : State) (l : Nat) : State :=
  if (s.link l).state ≠ 5 then s
  else if s.power.state = 0 && s.power.exiting.isNone then s.resumeLink l else s.beginExit

/-! ## Forwarding (R248 to R250, R261, R267) -/

/-- Has the removal of a partition begun at this hub (R261). -/
def State.removing (s : State) (p : Nat) : Bool := (s.partn p).state = 3 && decide (1 ≤ (s.partn p).step)

/-- Units of a message with its header. -/
def Msg.units (m : Msg) : Nat := (msgBytes m).length / 16

/-- Drop a message: its credits return, and R261 counts it (0x3206). -/
def State.dropMsg (s : State) (l e : Nat) (m : Msg) : State :=
  (((s.freeUnits l (mtypeVc m.mtype) m.units (bn (mtypeVc m.mtype = 0))).bump 0x3206 (l + 1)).modLink l fun k => { k with lastErr := e }).error 2 l (some m.part) e m.addr

/-- Who is answered for a request that arrived on a link. -/
def State.askerOf (s : State) (l : Nat) (m : Msg) (ret : Bool) : ReplyTo := .link l (s.link l).sess m.src m.otag m.part ret m.units

/-- Does a store or atomic find an atomic of its issuer, from the same link toward the same member, still waiting in a combining entry
that it does not join: it waits behind it (R277). -/
def State.behindAtomic (s : State) (l : Nat) (m : Msg) : Bool :=
  let u := atomicUnit m.body
  let joins := if m.mtype = 0x04 && !(u.1 = 2 && u.2.2.1) then s.atomicEntry (m.dst * 2 ^ 48 + m.addr) m.part u.1 u.2.1 else none
  decide (2 ≤ m.mtype ∧ m.mtype ≤ 4) && s.atomicWaits m.dst joins fun r => match r with
    | .link l' _ src _ _ _ _ => l' = l && src = m.src
    | _ => false

/-- A message leaves a link's receive buffer on its way elsewhere: its credits return, unless it waits out the hold of R271, which it
does in its buffer (R253). -/
def State.forwardOn (s : State) (l : Nat) (m : Msg) : State :=
  if s.holdsRoute m then { s with routeHold := s.routeHold ++ [{ arrived := some l, msg := m, back := some (l, (s.link l).sess) }] }
  else (s.freeUnits l (mtypeVc m.mtype) m.units (bn (mtypeVc m.mtype = 0))).sendToward (some l) m

/-- Forward one message that ends elsewhere: into the combining table, or onto its link; none where it has to wait, behind an atomic, or
for room in that link's 32 KB of transmit queue (R254). -/
def State.forward (s : State) (l : Nat) (m : Msg) : Option State :=
  if s.removing m.part then some (s.dropMsg l 0x2009 m)
  else if s.behindAtomic l m then none
  else
    let u := atomicUnit m.body
    let join : Joiner := ⟨s.askerOf l m (m.mtype = 0x01 || u.2.2.1), u.2.2.2, m.mtype = 0x01 || u.2.2.1⟩
    let s1 := s.passes m
    match s1.combineRequest (some l) m none join with
    | some t => some t
    | none =>
      let room := match s1.routeOf (some l) m.dst m.adaptive with | some o => decide ((s1.link o).queued + m.units ≤ 2048) | none => true
      if !room && !s1.holdsRoute m then none else some ((s1.countUncombined m).forwardOn l m)

/-- Forward what a link has received, in order on each channel. -/
def State.forwardLink (s : State) (l : Nat) : State :=
  let r := (s.link l).rx.foldl (fun (acc : State × List Msg × List Nat) m =>
    let vc := mtypeVc m.mtype
    if acc.1.endsHere m || acc.2.2.contains vc then (acc.1, acc.2.1 ++ [m], acc.2.2)
    else match acc.1.forward l m with
      | some t => (t, acc.2.1, acc.2.2)
      | none => (acc.1, acc.2.1 ++ [m], acc.2.2 ++ [vc])) (s, [], [])
  r.1.modLink l fun k => { k with rx := r.2.1 }

/-- Forward what every link has received. -/
def State.forwardAll (s : State) : State := (List.range s.cfg.links).foldl (fun s l => if (s.link l).rx.isEmpty then s else s.forwardLink l) s

/-! ## Frames in (R256) -/

/-- A frame is refused with NAK; the eighth refusal of one sequence fails the link. -/
def State.linkNak (s : State) (l e : Nat) : State :=
  let s1 := if e = 0x2003 then s.linkIntegrity l e (s.link l).fs.rxSeq else s.linkError l e (s.link l).fs.rxSeq
  let s2 := s1.modLink l fun k => { k with fs := k.fs.refuse }
  if 8 ≤ (s2.link l).fs.refusals then s2.linkFail l 0x200B else s2

/-- Charge the units of a message against what the peer may spend; none where it overruns (0x2007). -/
def Link.charge (k : Link) (vc units : Nat) : Option Link :=
  let r := tblGet k.peerCredits vc (vcReserve vc)
  let a := min r units
  if k.peerShared < units - a || (vc = 0 && decide (8192 ≤ k.vc0Held)) then none
  else some { k with peerCredits := tblSet k.peerCredits vc (r - a) (vcReserve vc), peerShared := k.peerShared - (units - a), occupied := tblMod k.occupied vc (· + units) 0, vc0Held := k.vc0Held + (if vc = 0 then 1 else 0) }

/-- Take one whole message of a keyed link: an MCTP packet goes to the security controller, which takes the message it ends as one of the
SPDM commands, and a link in state 3 drops fabric messages. -/
def State.takeMsg (s : State) (l vc : Nat) (b : Bytes) : State :=
  let m := msgOf b
  if m.mtype = 0x30 then (s.freeUnits l 3 m.units 0).modLink l fun k => { k with mctp := k.mctp ++ [m.body] }
  else if vc ≠ 3 && (s.link l).state = 3 then s.dropMsg l 0x2012 m
  else s.modLink l fun k => { k with rx := k.rx ++ [m] }

/-- The payload of an accepted frame. -/
def State.takePayload (s : State) (l vc first : Nat) (text : Bytes) : State :=
  let k := s.link l
  let g := gatherUnits (msgUnits vc) 0 (some first) { rest := tblGet k.fs.partialRx vc [] } (chunks 16 text)
  if g.bad then s.linkFail l 0x2008
  else match g.starts.foldl (fun (o : Option Link) n => o.bind fun k => k.charge vc n) (some k) with
    | none => s.linkFail l 0x2007
    | some k1 =>
      let s1 := s.modLink l fun _ => { k1 with fs := { k1.fs with partialRx := tblSet k1.fs.partialRx vc g.rest [] } }
      (g.msgs.foldl (fun s b => s.takeMsg l vc b) s1).forwardAll

/-- A sealed frame that passed its checks: ACK, NAK and credits are taken, then its messages. -/
def State.acceptFrame (s : State) (l h g : Nat) (text : Bytes) : State :=
  let k := s.link l
  let newGen := decide (g ≠ (s.slot (k.slot.getD 0)).gen)
  let n := bits h 107 96
  let vc := bits h 17 16
  let sharedCredit := bit h 15
  let s1 := (s.linkAwake l).modLink l fun k =>
    { k with wakeSent := false, fs := k.fs.accept.takeAck 14 (bits h 31 18) (bit h 14), rxNew := k.rxNew || newGen, shared := if sharedCredit then k.shared + n else k.shared, credits := if sharedCredit then k.credits else tblMod k.credits vc (· + n) (vcReserve vc), opc := k.opc + bits h 111 108 }
  ((s1.bump 0x3202 (l + 1)).takePayload l (bits h 3 2) (bits h 13 8) text).faultGo

/-- A frame reaches a keyed link (R256, Table 10.7). -/
def State.sealedIn (s : State) (l : Nat) (beats : Bytes) (fec : Bool) : State :=
  let k := s.link l
  let h := leNat (beats.take 16)
  let b := padTo (128 * (bits h 6 4 + 1)) beats
  let inj := s.takeInjection 2 l
  let s0 := inj.getD s
  let crc := decide (hcrcOk b = inj.isNone)
  let seq := bits h 95 32
  let kind := bits h 1 0
  if k.fs.hunting && (fec || !crc || kind ≠ 1 || seq ≠ k.fs.rxSeq) then
    (if k.fs.nakHold || decide (crc ∧ kind = 1 ∧ seq < k.fs.rxSeq) then s0 else s0.linkNak l (if fec then 0x2001 else if !crc then 0x2002 else 0x2004))
  else if fec then s0.linkNak l 0x2001
  else if !crc then s0.linkNak l 0x2002
  else if kind ≠ 1 then s0.linkIntegrity l 0x2006 seq
  else if k.fs.rxSeq < seq then s0.linkNak l 0x2004
  else if seq < k.fs.rxSeq then s0.linkError l 0x2005 seq
  else match s0.rxGen k (bit h 7) with
    | none => s0.linkIntegrity l 0x2006 seq
    | some g => match s0.linkKey l g false with
      | .error e => (s0.refuseUse e).linkFail l e
      | .ok (ks, s1) => match s1.takeInjection 0x12 l with
        | some t => t.linkNak l 0x2003
        | none => match openFrame ks.1 ks.2 seq b with
          | none => s1.linkNak l 0x2003
          | some text => s1.acceptFrame l h g text

/-- A plain frame reaches a link in state 1 or 2 (R247): VC3 alone, under its CRC-32. -/
def State.plainIn (s : State) (l : Nat) (beats : Bytes) : State :=
  let h := leNat (beats.take 16)
  let b := padTo (128 * (bits h 6 4 + 1)) beats
  let body := b.take (b.length - 16)
  if bits h 1 0 ≠ 0 || bits h 3 2 ≠ 3 || !hcrcOk b || b.drop (b.length - 16) ≠ padTo 16 (leBytes 4 (crc32 body)) then s
  else
    let g := gatherUnits (msgUnits 3) 0 (some (bits h 13 8)) { rest := tblGet (s.link l).fs.partialRx 3 [] } (chunks 16 (body.drop 16))
    if g.bad then s
    else (s.bump 0x3202 (l + 1)).modLink l fun k =>
      { k with rx := k.rx ++ (g.msgs.map msgOf).filter (fun m => decide (m.mtype ≠ 0x30)), mctp := k.mctp ++ ((g.msgs.map msgOf).filter (fun m => decide (m.mtype = 0x30))).map (·.body), fs := { k.fs with partialRx := tblSet k.fs.partialRx 3 g.rest [] } }

/-- A frame reaches a link; while the clock of the links is stopped it wakes the block (R72, log entry 106). Only a hub in idle-low
recognises a wake frame (R247); on another keyed link it is dropped without an event, since a peer repeats it until a sealed frame
reaches it (DESIGN CHOICE, log entry 65: Table 10.7 names no such frame). -/
def State.frameIn (s : State) (l : Nat) (beats : Bytes) (fec : Bool) : State :=
  if !s.sealing then (if decide (1 ≤ (s.link l).state ∧ (s.link l).state ≤ 5) then s.beginExit else s)
  else match (s.link l).state with
  | 1 => if fec then s.linkError l 0x2001 0 else s.plainIn l beats
  | 2 => if fec then s.linkError l 0x2001 0 else s.plainIn l beats
  | 3 => if isWake beats && !fec then s else s.sealedIn l beats fec
  | 4 => if isWake beats && !fec then s else s.sealedIn l beats fec
  | 5 => if isWake beats && !fec then s.wakeLink l else s.sealedIn l beats fec
  | _ => s

/-! ## Bring-up (R262 to R264, R351, R271) -/

/-- A link that is trained and enabled enters state 1 and sends HELLO; the gate and a holdoff keep it down (R533, R263). -/
def State.linkRise (s : State) (l : Nat) : State :=
  let k := s.link l
  if k.state = 0 && k.pcsUp && s.bring.gate && !k.holdoff && !k.inReset then
    (((s.modLink l fun k => { k with state := 1, trainReq := false, sentHello := false, peer := none }).sendHello l).plainFrame l).trace 8 2 l none 0 [2 ^ 8]
  else s

/-- Is this end the requester of the link's session (R351); none where no item differs. -/
def State.isRequester (s : State) (l : Nat) (p : Hello) : Option Bool :=
  if s.bring.member ≠ p.isMember then some (!s.bring.member)
  else if s.setting 0x3210 1 ≠ p.level then some (decide (s.setting 0x3210 1 < p.level))
  else if s.bring.member && s.bring.memberId ≠ p.member then some (decide (s.bring.memberId < p.member))
  else if l ≠ p.link then some (decide (l < p.link))
  else none

/-- The HELLO record a message carries; none where its major version differs (R264). -/
def helloOf (m : Msg) : Option Hello :=
  let v := leNat (m.body.take 16)
  if bits v 63 56 ≠ 2 then none
  else some { member := bits v 15 0, isMember := bit v 16, link := bits v 31 24, level := bits v 47 32, domain := bits v 127 64 }

/-- Does a peer that ranks higher stand against an installed FIXED_DOWN that names its link (R271); the entry of this hub's own ID is
ignored (R269). -/
def State.rankConflict (s : State) (l : Nat) : Bool :=
  s.peerHigher l = some true && s.liveRoutes.any fun kv => !(s.bring.member && kv.1 = s.bring.memberId) && bit kv.2 11 && bits kv.2 9 5 = l

/-- A received HELLO (R262, R264, R271). -/
def State.helloIn (s : State) (l : Nat) (m : Msg) : State :=
  match helloOf m with
  | none => s
  | some p =>
    let k := s.link l
    let s1 := s.modLink l fun k => { k with peer := some p, rank := some (p.level, p.member) }
    if s1.rankConflict l then s1.linkFail l 0x2010
    else if k.state = 1 then
      ((((s1.sendHello l).plainFrame l).modLink l fun k =>
        { k with state := 2, boundRunning := true, session := { requester := (s1.isRequester l p).getD false } }).trace 8 2 l none 0 [1 + 2 * 2 ^ 8])
    else if k.state = 3 || k.state = 4 then
      let st := if s1.sameDomain (s1.link l) then 4 else 3
      (s1.modLink l fun k => { k with state := st }).trace 8 2 l none 0 [k.state + st * 2 ^ 8]
    else s1

/-- This hub's membership changed: HELLO at once on every keyed link, whose state follows (R260, R535); one that sleeps owes it until it
resumes. -/
def State.helloAll (s : State) : State :=
  (List.range s.cfg.links).foldl (fun s l =>
    let k := s.link l
    if k.state = 3 || k.state = 4 then
      (s.sendHello l).modLink l fun k => { k with state := if s.sameDomain k then 4 else 3 }
    else if k.state = 5 then s.modLink l fun k => { k with sentHello := false }
    else s) s

end Sys2Proof.Machine
end

