-- ==== Sys2Proof/Machine/LinkRows.lean ====
section
/-! DEFINITION. Sys2Proof/Machine/LinkRows.lean: the commands of Spaek links, those that links and chiplet ports share, and
the route tables (R247, R251, R255 to R271). -/
namespace Sys2Proof.Machine

/-- A command of a link. -/
def State.linkRow (s : State) (l : Nat) (f : State → State) : Host.Outcome State Fault Refusal :=
  withUnit (decide (l < s.cfg.links)) (doneS (s.whenAlive f))

/-- A command of a chiplet port. -/
def State.chipRow (s : State) (c : Nat) (f : State → State) : Host.Outcome State Fault Refusal :=
  withUnit (decide (c < s.cfg.chipPorts)) (doneS (s.whenAlive f))

/-- A command of a link or of a chiplet port. -/
def State.frameRow (s : State) (p : FramePort) (fl fc : Nat → State → State) : Host.Outcome State Fault Refusal :=
  match p with
  | .link l => s.linkRow l (fl l)
  | .chip c => s.chipRow c (fc c)

/-- A step of a link or chiplet port on A-clk, which S2 and S3 stop (R69). -/
def State.portClocked (s : State) (p : FramePort) (fl fc : Nat → State → State) : Host.Outcome State Fault Refusal :=
  s.frameRow p (fun l s => if s.sealing then fl l s else s) fun c s => if s.sealing then fc c s else s

/-- A row of an input level: while the block is held in reset or halted it does nothing but follow the level. -/
def State.levelRow (s : State) (present : Bool) (level full : State → State) : Host.Outcome State Fault Refusal :=
  withUnit present (doneS (if s.alive then full s else level s))

/-- The oldest message of a link's channel that ends here, where it is of a type. -/
def State.takeLinkMsg (s : State) (l t : Nat) : Option (Msg × State) :=
  match (s.link l).rx.find? fun m => mtypeVc m.mtype = mtypeVc t && s.endsHere m with
  | some m => if m.mtype = t then some (m, s.modLink l fun k => { k with rx := k.rx.erase m }) else none
  | none => none

/-- The idle and standby handshakes of an entry into S2 are over (R69): the state is entered. -/
def State.entryCheck (s : State) : State :=
  if s.power.entering = some 2 && s.links.all (fun kv => kv.2.state ≠ 4) && s.chips.all fun kv => kv.2.state ≠ 4 || kv.2.standby = 2 then
    ({ s with power := { s.power with state := 2, entering := none } } : State).stateTrace 8 0 s.power.state 2
  else s

/-! ## Training and frames -/

/-- PCS_UP (R262). -/
def execPcsUp (l : Nat) (s : State) : Host.Outcome State Fault Refusal :=
  s.levelRow (decide (l < s.cfg.links)) (fun s => s.modLink l fun k => { k with pcsUp := true })
    fun s => (s.modLink l fun k => { k with pcsUp := true }).linkRise l

/-- sl_pcs_up falls, or a bit of sl_lane_ok (R263): a keyed link fails; with sl_pcs_up low it is down. -/
def State.linkFall (s : State) (l : Nat) (lane : Bool) : State :=
  let st := (s.link l).state
  let keyed := st = 3 || st = 4 || st = 5
  let s1 := if keyed then s.linkFail l 0x200F else s
  if lane then s1
  else
    let s2 := s1.modLink l fun k => { k with pcsUp := false, trainReq := false }
    if st = 0 || st = 7 then s2 else (s2.linkDrop l 0).joinLost l

/-- PCS_DOWN. -/
def execPcsDown (l : Nat) (laneFault : Bool) (s : State) : Host.Outcome State Fault Refusal :=
  s.levelRow (decide (l < s.cfg.links)) (fun s => if laneFault then s else s.modLink l fun k => { k with pcsUp := false })
    fun s => s.linkFall l laneFault

/-- FRAME_RECEIVED (R256). -/
def execFrameReceived (l : Nat) (beats : Bytes) (fecErr : Bool) (s : State) : Host.Outcome State Fault Refusal :=
  s.linkRow l fun s => s.frameIn l beats fecErr

/-- PLAIN_FRAME (R247): a sealed state drops it and counts it. -/
def execPlainFrame (l : Nat) (beats : Bytes) (s : State) : Host.Outcome State Fault Refusal := s.linkRow l fun s => s.frameIn l beats false

/-- FRAME_TRANSMIT (R251). -/
def execFrameTransmit (l : Nat) (s : State) : Host.Outcome State Fault Refusal := s.linkRow l fun s => (s.transmit l).forwardAll.faultGo

/-- NAK (R256). -/
def execNak (p : FramePort) (s : State) : Host.Outcome State Fault Refusal :=
  s.portClocked p (fun l s => s.replay l) fun c s => s.chipReplay c

/-- NAK_HOLDOFF_EXPIRY (R256). -/
def execNakHoldoffExpiry (p : FramePort) (s : State) : Host.Outcome State Fault Refusal :=
  s.portClocked p (fun l s => s.modLink l fun k => { k with fs := { k.fs with nakHold := false } })
    fun c s => s.modChip c fun k => { k with fs := { k.fs with nakHold := false } }

/-- KEEPALIVE (R255, R301): suspended in idle-low and in standby. -/
def execKeepalive (p : FramePort) (s : State) : Host.Outcome State Fault Refusal :=
  s.portClocked p (fun l s => if (s.link l).state = 3 || (s.link l).state = 4 then s.transmit l else s)
    fun c s => if (s.chip c).standby = 0 then s.chipTurn c else s

/-- SILENCE_TIMEOUT (Table 10.7). -/
def execSilenceTimeout (l : Nat) (s : State) : Host.Outcome State Fault Refusal :=
  s.linkRow l fun s => if s.sealing && ((s.link l).state = 3 || (s.link l).state = 4) then s.linkFail l 0x200C else s

/-! ## HELLO, attestation and idle-low -/

/-- HELLO (R264). -/
def execHello (l : Nat) (s : State) : Host.Outcome State Fault Refusal :=
  s.linkRow l fun s => match s.takeLinkMsg l 0x31 with
    | some (m, t) => (t.freeUnits l 3 m.units 0).helloIn l m
    | none => s

/-- HELLO_TIMER (R262). -/
def execHelloTimer (l : Nat) (s : State) : Host.Outcome State Fault Refusal :=
  s.linkRow l fun s => if s.sealing && (s.link l).state = 1 then (s.sendHello l).plainFrame l else s

/-- LINK_ATTESTATION_START (R351): the requester end asks for the peer's versions; not while an image is staged, or the controller
restarts (R364, R365). -/
def execLinkAttestationStart (l : Nat) (s : State) : Host.Outcome State Fault Refusal :=
  s.linkRow l fun s =>
    let k := s.link l
    let asks := match k.peer with | some p => s.isRequester l p = some true | none => false
    if (k.state = 2 || k.rekeying) && asks && k.session.stage = 0 && s.fw.fw = 0 then
      (s.modLink l fun k => { k with session := { k.session with requester := true } }).say
        (.spdmRequest (.link l) 0x84 offeredVersions) else s

/-- LINK_IDLE (R265). Where both ends send it at once, each acknowledges the other's; the sealed frame that carries an acknowledgement
then wakes a link that is asleep already, as any sealed frame does (DESIGN CHOICE, log entry 111). -/
def execLinkIdle (l : Nat) (s : State) : Host.Outcome State Fault Refusal :=
  s.linkRow l fun s => match s.takeLinkMsg l 0x32 with
    | some (m, t) =>
      let t1 := t.freeUnits l 3 m.units 0
      if (t1.link l).state = 4 then ((t1.sendOn l { mtype := 0x33, src := t1.memberField }).modLink l fun k => { k with peerLow := true }) else t1
    | none => s

/-- LINK_IDLE_ACK (R265): one that comes after the entry was abandoned finds the link resumed at once. -/
def execLinkIdleAck (l : Nat) (s : State) : Host.Outcome State Fault Refusal :=
  s.linkRow l fun s => match s.takeLinkMsg l 0x33 with
    | some (m, t) =>
      let t1 := t.freeUnits l 3 m.units 0
      if (t1.link l).state = 4 && (t1.link l).idleSent then
        let t2 := (t1.modLink l fun k => { k with state := 5 }).trace 8 2 l none 0 [4 + 5 * 2 ^ 8]
        if t2.power.entering = some 2 then t2.entryCheck else t2.resumeLink l
      else t1
    | none => s

/-- WAKE_FRAME (R265). -/
def execWakeFrame (l : Nat) (s : State) : Host.Outcome State Fault Refusal := s.linkRow l fun s => s.wakeLink l

/-- WAKE_REPEAT (R265): this end has traffic for a peer that sleeps. -/
def execWakeRepeat (l : Nat) (s : State) : Host.Outcome State Fault Refusal :=
  s.linkRow l fun s =>
    let k := s.link l
    if k.state = 5 && k.peerLow && decide (0 < k.queued) then if !s.sealing then s.beginExit else (s.emit (.frame l wakeBeat)).modLink l fun k => { k with wakeSent := true } else s

/-- WAKE_UNANSWERED (R265). -/
def execWakeUnanswered (l : Nat) (s : State) : Host.Outcome State Fault Refusal :=
  s.linkRow l fun s => if (s.link l).state = 5 && (s.link l).wakeSent then s.linkFail l 0x2013 else s

/-! ## Key updates (R258, R364) -/

/-- A write of 0x3211 (R258, R262): 0 enables, 1 disables, 2 starts a key update, which a link without keys cannot (DEDUCED,
log entry 30); on a link in idle-low it waits until the link wakes (log entry 108). -/
def State.linkWrite (l v : Nat) (s : State) : Except Nat State :=
  let st := (s.link l).state
  if s.cfg.links ≤ l || 3 ≤ v then .error 0x0609
  else if v = 2 then (if st = 3 || st = 4 || st = 5 then .ok (s.linkUpdateStart l) else .error 0x0801)
  else if v = 1 then .ok (if st = 7 then s else (s.linkDrop l 7).joinLost l)
  else .ok (if st = 7 then (s.linkDrop l 0).linkRise l else s)

/-- Has a link or port an interval of key updates (R258, R301). -/
def State.updateInterval (s : State) : FramePort → Bool
  | .link _ => s.setting 0x3210 2 ≠ 0
  | .chip _ => s.setting 0x3305 3 ≠ 0

/-- KEY_UPDATE_START: by the interval, where there is one, or by a write of 2 to 0x3211; the sequence starts one by itself. -/
def execKeyUpdateStart (p : FramePort) (m : Option Mgmt) (s : State) : Host.Outcome State Fault Refusal :=
  match p, m with
  | .link l, some m => doneS (s.dictWrite m 0x3211 (l + 1) (leBytes 1 2) (State.linkWrite l 2))
  | p, _ => s.frameRow p (fun l s => if s.updateInterval p then s.linkUpdateStart l else s) fun c s => if s.updateInterval p then s.chipUpdateStart c else s

/-- LINK_DISABLE. -/
def execLinkDisable (m : Mgmt) (l value : Nat) (s : State) : Host.Outcome State Fault Refusal :=
  doneS (s.dictWrite m 0x3211 (l + 1) (leBytes 1 value) (State.linkWrite l value))

/-- Generation k of a link is retired (R258, step 4). -/
def State.linkUpdated (s : State) (l : Nat) : State :=
  let k := s.link l
  match k.slot with
  | none => s
  | some i =>
    if !(k.update && k.rxNew && (match k.updateX with | some x => decide (x ≤ k.fs.acked) | none => false)) then s
    else match s.advanceGen i with
      | .error e => (if e = 1 then s.bump 0x4000 4 else s).linkFail l (0x8000 + e)
      | .ok t =>
        -- an update that began before a commit leaves the credits withheld; the fresh session's own update follows it
        let u := ((t.modLink l fun k => { k with update := false, updateX := none, rxNew := false, boundRunning := k.rekeying && !k.fresh, withhold := k.withhold && !k.fresh, rekeying := k.rekeying && !k.fresh, fresh := false, asked := k.askedNext }).bump
          0x3208 (l + 1)).trace 6 2 l none 0 [k.updateX.getD 0, 3]
        if (u.link l).rekeying && (u.link l).session.stage = 5 then u.linkUpdate l else u

/-- Generation k of a chiplet port is retired. -/
def State.chipUpdated (s : State) (c : Nat) : State :=
  let k := s.chip c
  match k.slot with
  | none => s
  | some i =>
    if !(k.update && k.rxNew && (match k.updateX with | some x => decide (x ≤ k.fs.acked) | none => false)) || s.chipRemoving c then s
    else match s.advanceGen i with
      | .error e => (if e = 1 then s.bump 0x4000 4 else s).chipFail c (0x8000 + e)
      | .ok t =>
        let u := (t.modChip c fun k => { k with update := false, updateX := none, rxNew := false, boundRunning := k.withhold && !k.fresh, withhold := k.withhold && !k.fresh, fresh := false }).trace
          6 1 c none 0 [k.updateX.getD 0, 3]
        if (u.chip c).withhold && (u.chip c).session.stage = 5 then u.chipUpdate c else u

/-- KEY_UPDATE_COMPLETE (R258). -/
def execKeyUpdateComplete (p : FramePort) (s : State) : Host.Outcome State Fault Refusal :=
  s.portClocked p (fun l s => s.linkUpdated l) fun c s => s.chipUpdated c

/-- LINK_BOUND_EXPIRY (R258, R262). -/
def execLinkBoundExpiry (l : Nat) (s : State) : Host.Outcome State Fault Refusal :=
  s.linkRow l fun s => if (s.link l).boundRunning then s.linkFail l 0x200E else s

/-- ATTESTATION_HOLDOFF (R263). -/
def execAttestationHoldoff (l : Nat) (s : State) : Host.Outcome State Fault Refusal :=
  s.linkRow l fun s => (s.modLink l fun k => { k with holdoff := false }).linkRise l

/-! ## Routes (R268 to R271) -/

/-- The links of an adaptive mask that an entry names; an entry with no valid field names none. -/
def State.maskLinks (s : State) (e : Nat) : List Nat :=
  if bit e 10 || bit e 11 then (List.range 32).filter fun l => bit (s.setting 0x3221 (bits e 15 12 + 1)) l else []

/-- The first check that a staging entry fails: 1 to 3 in the order of R270, 0 none. -/
def State.routeFails (s : State) (e : Nat) : Nat :=
  let named := (if bit e 10 then [bits e 4 0] else []) ++ (if bit e 11 then [bits e 9 5] else [])
  let absent := fun (l : Nat) => decide (s.cfg.links ≤ l) || (s.link l).state = 7
  if (named ++ s.maskLinks e).any absent then 1
  else if bit e 11 && s.peerHigher (bits e 9 5) ≠ some false then 2
  else if (s.maskLinks e).any fun l => (s.link l).rank.isNone then 3
  else 0

/-- The commit of the staging table (R270, R271). -/
def State.routeCommit (s : State) : State :=
  let own := fun (n : Nat) => s.bring.member && n = s.bring.memberId
  match s.stagingRoutes.find? fun kv => !own kv.1 && s.routeFails kv.2 ≠ 0 with
  | some (n, e) => (s.error 2 0 none 0x2011 n).setCount 0x3220 4 (2 + n * 2 ^ 16 + s.routeFails e * 2 ^ 32)
  | none =>
    let keys := dedup (s.stagingRoutes.map (·.1) ++ s.liveRoutes.map (·.1))
    let moved := keys.filter fun n => bits (tblGet s.stagingRoutes n 0) 11 0 ≠ bits (tblGet s.liveRoutes n 0) 11 0
    ({ s with liveRoutes := s.stagingRoutes, routeHeld := dedup (s.routeHeld ++ moved) } : State).setCount 0x3220 4 1

/-- ROUTE_COMMIT. -/
def execRouteCommit (m : Mgmt) (value : Nat) (s : State) : Host.Outcome State Fault Refusal :=
  doneS (s.dictWrite m 0x3220 3 (leBytes 1 value) fun s =>
    if 2 ≤ value then .error 0x0609 else .ok (if value = 1 then s.routeCommit else s))

/-- LEVEL_WRITE (R271). -/
def execLevelWrite (m : Mgmt) (value : Nat) (s : State) : Host.Outcome State Fault Refusal :=
  doneS (s.dictWrite m 0x3210 1 (leBytes 2 value) fun s =>
    if s.links.any fun kv => kv.2.state = 3 || kv.2.state = 4 then .error 0x0801 else .ok (s.setSetting 0x3210 1 (value % 2 ^ 16)))

/-- DOMAIN_ABORT (R492). -/
def execDomainAbort (l : Nat) (s : State) : Host.Outcome State Fault Refusal :=
  s.linkRow l fun s => match s.takeLinkMsg l 0x20 with
    | some (m, t) => (t.freeUnits l 2 m.units 0).abortReceived l m
    | none => s

end Sys2Proof.Machine
end

