-- ==== Sys2Proof/Machine/Partitions.lean ====
section
/-! DEFINITION. Sys2Proof/Machine/Partitions.lean: partition records, their creation, resize and removal, guarantees, and
the translation records and map requests (R403, R407, R416 to R433). -/
namespace Sys2Proof.Machine

/-! ## The partition record (Table 17.1) -/

/-- Fields of a partition record as written. -/
def pState (v : Nat) : Nat := bits v 2 0
@[inherit_doc pState] def pMode (v : Nat) : Nat := bits v 3 3
@[inherit_doc pState] def pQbase (v : Nat) : Nat := bits v 25 8
@[inherit_doc pState] def pQcount (v : Nat) : Nat := bits v 44 26
@[inherit_doc pState] def pMask (v : Nat) : Nat := bits v 79 48
@[inherit_doc pState] def pStaging (v : Nat) : Nat := bits v 88 80
@[inherit_doc pState] def pKgen (v : Nat) : Nat := bits v 127 96
@[inherit_doc pState] def pJob (v : Nat) : Nat := bits v 159 128

/-- A partition record as it reads: 32 bytes. -/
def Part.bytes (k : Part) : Bytes :=
  leBytes 32 (k.state + k.mode * 2 ^ 3 + k.qbase * 2 ^ 8 + k.qcount * 2 ^ 26 + k.auMask * 2 ^ 48 + k.staging * 2 ^ 80 + k.kgen * 2 ^ 96 + k.job * 2 ^ 128)

/-- Row 1 of Table 17.2. -/
def State.partShape (s : State) (v : Nat) : Bool :=
  pQbase v % 64 ≠ 0 || pQcount v % 64 ≠ 0 || pQcount v < 64 || s.cfg.queues < pQbase v + pQcount v || 2 ^ s.cfg.aus ≤ pMask v || 256 < pStaging v

/-- Row 4 of Table 17.2: the queue range reaches into another partition's. -/
def State.partQueues (s : State) (p v : Nat) : Bool :=
  s.parts.any fun kv => kv.1 ≠ p && kv.2.state ≠ 0 && decide (kv.2.qbase < pQbase v + pQcount v ∧ pQbase v < kv.2.qbase + kv.2.qcount)

/-- Row 5 of Table 17.2: an AU of the mask belongs to another partition. -/
def State.partAus (s : State) (p v : Nat) : Bool :=
  (List.range s.cfg.aus).any fun a => bit (pMask v) a && tblGet s.auOwner a 0xFF ≠ 0xFF && tblGet s.auOwner a 0xFF ≠ p

/-- Row 6 of Table 17.2: more staging than the others leave; 2 MB a chiplet port (Table 2.16). -/
def State.partStaging (s : State) (p v : Nat) : Bool :=
  decide (32 * s.cfg.chipPorts < pStaging v + ((s.parts.filter fun kv => kv.1 ≠ p).map fun kv => kv.2.stagingHeld).foldl (· + ·) 0)

/-- Give a partition the AUs of a mask. -/
def State.ownAus (s : State) (p mask : Nat) : State :=
  { s with auOwner := (List.range s.cfg.aus).foldl (fun t a => if bit mask a then tblPut t a p else t) s.auOwner }

/-- A partition's guarantees return to 0 and its weights to 1, on every regulated port (R419, R430). -/
def State.freeMins (s : State) (p : Nat) : State :=
  (List.range 44).foldl (fun s i => s.setSetting (0x5210 + i) (p + 1) 0x10000) s

/-- Creation of a partition (R418, R419). The refusal for KGEN at the generation end records 0x8004. -/
def State.partCreate (s : State) (p v : Nat) : Except Nat State :=
  if s.partShape v then .error 0x0609
  else if !s.bring.member || s.life.debug = 4 then .error 0x0801
  else if pKgen v = 2 ^ 32 - 1 then .error (0x8004 * 2 ^ 16 + 0x0609)
  else if pKgen v < (s.slot (partSlot p)).gen then .error 0x0609
  else if s.partQueues p v then .error 0x0609
  else if s.partAus p v || s.partStaging p v then .error 0x0802
  else match s.createPartKey p (pKgen v) with
    | .error _ => .error 0x0801
    | .ok t =>
      let k : Part := { state := 1, mode := pMode v, qbase := pQbase v, qcount := pQcount v, auMask := pMask v, staging := pStaging v, kgen := pKgen v, job := pJob v, stagingHeld := pStaging v }
      let t1 := (({ t with parts := tblPut t.parts p k } : State).ownAus p (pMask v)).freeMins p
      .ok ((List.range s.cfg.chipPorts).foldl (fun s c => if (s.chip c).bound = some p then s.chipBind c else s) t1)

/-! ## Resizing (R420, R421) -/

/-- Pages in page list order. -/
def pagesInOrder (l : List KvPage) : List KvPage :=
  l.foldl (fun acc x => acc.filter (fun y => decide (y.idx < x.idx)) ++ [x] ++ acc.filter (fun y => decide (x.idx ≤ y.idx))) []

/-- Place again, by R123 and so in page list order, the shards of a partition that have not started (R137). -/
def State.replaceShards (s : State) (p : Nat) : State :=
  let mine := s.cmds.filter fun kv => kv.2.part = p && kv.2.stage = 3 && kv.2.shards.any fun h => !h.started
  let bare : State := { s with cmds := s.cmds.map fun kv => if mine.any (fun m => m.1 = kv.1) then (kv.1, { kv.2 with shards := kv.2.shards.filter fun h => h.started }) else kv }
  let off : State := { bare with auQueue := (bare.auQueue.map fun kv => (kv.1, kv.2.filter fun id =>
      !(mine.any fun m => m.1 = id) || (bare.cmd id).shards.any fun h => h.au = kv.1 && !h.finished)).filter fun kv => !kv.2.isEmpty }
  mine.foldl (fun s m =>
    let c := m.2
    let pages := pagesInOrder ((c.shards.filter fun h => !h.started).flatMap (·.pages))
    match s.placePages c pages with
    | none => s.cmdFail m.1 .resource 0x5104
    | some hs => s.shardsIn m.1 hs) off

/-- A resize of a live partition (R420): the fixed fields, rows 1 and 4 to 6 of Table 17.2, then the refusals of its queues, staging and
AUs in the rule's order (DEDUCED, log entry 113). -/
def State.partResize (s : State) (p v : Nat) : Except Nat State :=
  let k := s.partn p
  let outside := s.ctxs.any fun kv => kv.2.state ≠ 0 && kv.2.part = p && decide (k.qbase + pQcount v < kv.2.qbase + kv.2.qcount)
  let scratch := s.ctxs.any fun kv => kv.2.state = 1 && kv.2.part = p && decide (0 < kv.2.scratch)
  if pState v ≠ 1 || pMode v ≠ k.mode || pQbase v ≠ k.qbase || pKgen v ≠ k.kgen || pJob v ≠ k.job then .error 0x0801
  else if s.partShape v || s.partQueues p v then .error 0x0609
  else if s.partAus p v || s.partStaging p v then .error 0x0802
  else if outside then .error 0x0801
  else if pStaging v * 2 ^ 16 < k.stagingUsed then .error 0x0802
  else if pMask v = 0 && k.auMask ≠ 0 && scratch then .error 0x0801
  else
    let s1 := (s.modPart p fun k => { k with state := 2, qcount := pQcount v, auMask := pMask v, staging := pStaging v, stagingHeld := max k.stagingHeld (pStaging v) }).ownAus p (pMask v)
    .ok (if k.auMask ||| pMask v = pMask v then s1 else s1.replaceShards p)

/-- The AUs that are leaving a partition. -/
def State.leavingAus (s : State) (p : Nat) : List Nat := ((s.auOwner.filter fun kv => kv.2 = p && !bit (s.partn p).auMask kv.1).map (·.1))

/-- Has an AU a started shard that is not finished, or an append that runs on it (R107). -/
def State.auBusy (s : State) (a : Nat) : Bool :=
  s.cmds.any fun kv => (kv.2.shards.any fun h => h.au = a && h.started && !h.finished) || (kv.2.opcode = 0x22 && kv.2.phase = 1 && kv.2.au = some a)

/-- RESIZE_COMPLETE (R421, R423): every removed AU has finished its started shards; it and the removed staging are scrubbed. -/
def execResizeComplete (p : Nat) (s : State) : Host.Outcome State Fault Refusal :=
  withUnit (decide (p < s.cfg.partitions)) (s.work fun s =>
    let k := s.partn p
    let gone := s.leavingAus p
    if k.state ≠ 2 || gone.any s.auBusy then s
    else
      let s0 := gone.foldl (fun s a => s.dropEngine p a) (if gone.isEmpty then s else s.dropTlb p none)
      let s1 : State := { s0 with auOwner := s0.auOwner.filter fun kv => !gone.contains kv.1 }
      let s2 := s1.modPart p fun k => { k with state := 1, stagingHeld := k.staging }
      if gone.isEmpty && k.stagingHeld = k.staging then s2 else s2.bump 0x5260 4)

/-! ## Removal (R424 to R426) -/

/-- Step 1 of R425, and of a fenced partition (R501): queues revoked, TDIs in ERROR, commands not started squashed. -/
def State.revoke (s : State) (p : Nat) : State :=
  let s1 := s.modPart p fun k => { k with revoked := true }
  let tdis := (s1.tdis.filter fun kv => kv.2.part = p).map (·.1)
  let s2 := tdis.foldl (fun s k => s.tdiError k 0) s1
  let ids := (s2.cmds.filter fun kv => kv.2.part = p && kv.2.phase = 0).map (·.1)
  ids.foldl (fun s id => s.squashCmd id .squashed) s2

/-- Step 2 of R425: the partition slot and its leaves retire, and so do its regions. -/
def State.retireAll (s : State) (p : Nat) : State :=
  let old := fun (i : Nat) (k : KeySlot) => k.state = 1 && (i = partSlot p || (i < 65536 && k.kind ≠ 0 && k.parent = p))
  let s1 := s.modKeys fun ks => { ks with slots := ks.slots.map fun kv => if old kv.1 kv.2 then (kv.1, { kv.2 with state := 2 }) else kv }
  s1.mem.foldl (fun s kv => (kv.2.regions.filter fun g => g.2.part = p).foldl (fun s g => s.stopRegion kv.1 g.1) s) s1

/-- Steps 3 to 5 of R425: waiting reads are discarded, and everything of the partition in flight ends with SQUASHED. -/
def State.endWork (s : State) (p : Nat) : State :=
  let loads := fun (o : Otag) => o.part = p && (match o.acc with | .load => true | _ => false) && !isRecord o.reply
  let s1 := (s.dropQueued 0 fun m => m.part = p && m.mtype = 1).squashOtags loads .squashed
  let ns := (s1.ctxs.filter fun kv => kv.2.part = p && kv.2.state = 1).map (·.1)
  let s2 := ns.foldl (fun s n => (s.modCtx n fun c => { c with destroying := true }).beginReset n) s1
  let own := fun (o : Otag) => o.part = p && !isRecord o.reply
  let s3 := (s2.squashOtags own .squashed).squashRequests (fun x => x.part = p && !isRecord x.reply) own (fun _ _ => false) .squashed
  (s3.closeSlots p .squashed).dropComb p

/-- Is everything that step 5 of R425 ends over, and every request that the partition's regions accepted (R198). -/
def State.partQuiet (s : State) (p : Nat) : Bool :=
  ((s.ctxsOf p).all fun n => s.resetQuiet n) &&
  s.mem.all fun kv => kv.2.regions.all fun g => g.2.part ≠ p || !s.regionBusy kv.1 g.1

/-- Steps 6 and 7 of R425: the key goes, bound chiplet ports are isolated, and every resource is scrubbed. The AUs, the queues and the
staging share stay the partition's until its record is free (R416). -/
def State.freeAll (s : State) (p : Nat) : State :=
  let s1 := if (s.slot (partSlot p)).state = 0 then s else s.invalidateSlot (partSlot p)
  let s2 := (List.range s.cfg.chipPorts).foldl (fun s c =>
    if (s.chip c).bound ≠ some p then s
    else if (s.chip c).state = 3 || (s.chip c).state = 4 then s.chipIsolate c
    else s.modChip c fun k => { k with bound := none }) s1
  let s3 := (s2.ctxsOf p).foldl (fun s n => s.freeContext n) s2
  let s4 := s3.mem.foldl (fun s kv => (kv.2.regions.filter fun g => g.2.part = p).foldl (fun s g => s.dropRegion kv.1 g.1) s) s3
  let s5 := ((((s4.dropTlb p none).squashWalks p).rdrop false fun r => r.part = p).dropComb p).freeMins p
  let s6 : State := { s5 with trans := tblDel s5.trans p }
  (s6.modPart p fun k => { k with step := 8, stagingUsed := 0 }).bump 0x5260 4 |>.tdiSettle

/-- Go on with a removal as far as its steps allow. -/
def State.removeGo (s : State) (p : Nat) : State := if (s.partn p).state = 3 && (s.partn p).step = 5 && s.partQuiet p then s.freeAll p else s

/-- Removal of a partition begins. -/
def State.partRemove (s : State) (p : Nat) : State :=
  let s1 := (s.modPart p fun k => { k with state := 3, step := 1 }).revoke p
  ((((s1.retireAll p).modPart p fun k => { k with step := 5 }).endWork p)).removeGo p

/-- A write of a partition record, by its STATE (R418, R420, R424). -/
def State.partWrite (p : Nat) (b : Bytes) (s : State) : Except Nat State :=
  let v := leNat b
  let k := s.partn p
  if (k.state = 0 && (pState v = 2 || pState v = 3)) || (k.state = 3 && pState v ≤ 3) then .error 0x0801
  else if s.cfg.partitions ≤ p || 4 ≤ pState v then .error 0x0609
  else if pState v = 0 then (if k.state = 0 then .error 0x0801 else .ok (s.partRemove p))
  else if k.state = 2 then .error 0x0801
  else if k.state = 1 then s.partResize p v
  else s.partCreate p v

/-- A write of a partition record through the dictionary. -/
def State.partRow (s : State) (m : Mgmt) (p : Nat) (b : Bytes) : Host.Outcome State Fault Refusal :=
  doneS (s.dictWrite m 0x5200 (p + 1) b (State.partWrite p b))

/-- PARTITION_CREATE. -/
def execPartitionCreate (m : Mgmt) (p : Nat) (record : Bytes) (s : State) : Host.Outcome State Fault Refusal := s.partRow m p record

/-- PARTITION_RESIZE. -/
def execPartitionResize (m : Mgmt) (p : Nat) (record : Bytes) (s : State) : Host.Outcome State Fault Refusal := s.partRow m p record

/-- PARTITION_REMOVE. -/
def execPartitionRemove (m : Mgmt) (p : Nat) (record : Bytes) (s : State) : Host.Outcome State Fault Refusal := s.partRow m p record

/-- REMOVAL_COMPLETE (R425, step 8): the record reads free. A removal whose step 5 was still waiting first runs the steps
after it. -/
def execRemovalComplete (p : Nat) (s : State) : Host.Outcome State Fault Refusal :=
  withUnit (decide (p < s.cfg.partitions)) (s.work fun s =>
    if (s.partn p).state = 3 && (s.partn p).step = 8 then
      ({ s with parts := tblDel s.parts p, auOwner := s.auOwner.filter fun kv => kv.2 ≠ p } : State).bump 0x5260 3
    else s.removeGo p)

/-! ## Guarantees (R428, R430) -/

/-- Available capacity of a regulated port (R430). -/
def State.capacity (s : State) (i : Nat) : Nat :=
  if i < 8 then
    let p := s.port i
    min 2400000 (2662400 * (p.derate + 1) / 256) - s.writerCap - (if p.sweep.active || !p.init.isEmpty then s.sweepCap i else 0)
  else ratingOf i

/-- Written minimums of a regulated port in bytes: the sum over partitions. -/
def State.minSum (s : State) (i : Nat) : Nat :=
  ((List.range 64).map fun p => ratingOf i * bits (s.setting (0x5210 + i) (p + 1)) 15 0 / 1000).foldl (· + ·) 0

/-- Is a regulated port present. -/
def State.hasRegulated (s : State) (i : Nat) : Bool :=
  decide (i < s.cfg.memPorts) || decide (8 ≤ i ∧ i < 8 + s.cfg.links) || decide (40 ≤ i ∧ i < 40 + s.cfg.hostPorts)

/-- A write of MIN and WEIGHT (R430, R433). -/
def State.minWrite (i p v : Nat) (s : State) : Except Nat State :=
  let v1 := v % 2 ^ 24
  let t := s.setSetting (0x5210 + i) (p + 1) v1
  if !s.hasRegulated i || s.cfg.partitions ≤ p || 900 < bits v 15 0 || bits v 23 16 = 0 then .error 0x0609
  else if 9 * s.capacity i < 10 * t.minSum i then .error 0x0802
  else .ok t

/-- GUARANTEE_WRITE. -/
def execGuaranteeWrite (m : Mgmt) (index p value : Nat) (s : State) : Host.Outcome State Fault Refusal :=
  doneS (s.dictWrite m index (p + 1) (leBytes 4 value) (if index < 0x5210 || 0x523B < index then fun _ => .error 0x0604 else State.minWrite (index - 0x5210) p value))

/-! ## Translation records and map requests (R403, R407) -/

/-- A write of a translation record: the entries of the partition go, its walks are squashed, and ENABLE 1 starts the
zeroing. -/
def State.transWrite (p : Nat) (b : Bytes) (s : State) : Except Nat State :=
  let v := leNat b
  let port := bits v 2 0
  let region := bits v 15 8
  let dsize := bits v 34 16
  let g := tblGet (s.port port).regions region {}
  if s.cfg.partitions ≤ p then .error 0x0609
  else if (s.ctxs.any fun kv => kv.2.state = 1 && kv.2.part = p) || (s.transOf p).zeroing then .error 0x0801
  else if dsize = 0 || 262144 < dsize || !(g.part = p && g.kind = 3 && (g.state = 2 || g.state = 3)) || g.pages * 2 ^ 14 < dsize * 2 ^ 12 then .error 0x0609
  else
    let s1 := (s.dropTlb p none).squashWalks p
    .ok ((s1.modTrans p fun _ => { port, region, dsize, zeroing := bit v 35 }).zeroNext p)

/-- TRANSLATION_RECORD_WRITE. -/
def execTranslationRecordWrite (m : Mgmt) (p : Nat) (record : Bytes) (s : State) : Host.Outcome State Fault Refusal :=
  doneS (s.dictWrite m 0x5110 (p + 1) record (State.transWrite p record))

/-- TABLE_ZEROING_DONE (R403): the last table line is zeroed, and the record reads ENABLE 1. -/
def execTableZeroingDone (p : Nat) (s : State) : Host.Outcome State Fault Refusal :=
  withUnit (decide (p < s.cfg.partitions)) (doneS (s.whenClocked fun s =>
    let t := s.transOf p
    if t.zeroing && t.outstanding = 0 then
      (if 32 * t.dsize ≤ t.cursor then s.modTrans p fun t => { t with zeroing := false, enable := true } else s.zeroNext p)
    else s))

/-- A map request as it is kept: reserved bits of Tables 16.2 and 16.3 read as zero (R13). -/
def mapKept (r : Nat) : Nat := r % 2 ^ 43 + (mapEntry r % 2 ^ 6 + mapEntry r / 2 ^ 21 * 2 ^ 21) * 2 ^ 64

/-- A write of the map request (R407). -/
def State.mapWrite (b : Bytes) (s : State) : Except Nat State :=
  let r := leNat b
  let t := s.transOf (mapPart r)
  if !t.enable || s.mapJob.status = 1 then .error 0x0801
  else if mapOp r = 0 || mapOp r = 3 || t.dsize * 512 < mapFirst r + mapCount r || (mapOp r = 1 && !bit (mapEntry r) 0) then .error 0x0609
  else .ok ({ s with mapJob := { record := mapKept r, status := 1 } } : State).mapNext

/-- MAP. -/
def execMap (m : Mgmt) (record : Bytes) (s : State) : Host.Outcome State Fault Refusal :=
  doneS (s.dictWrite m 0x5120 1 record (State.mapWrite record))

/-- UNMAP. -/
def execUnmap (m : Mgmt) (record : Bytes) (s : State) : Host.Outcome State Fault Refusal :=
  doneS (s.dictWrite m 0x5120 1 record (State.mapWrite record))

/-- Has a partition a request in flight that a translation let through. -/
def State.partInFlight (s : State) (p : Nat) : Bool :=
  (s.otags.any fun kv => kv.2.part = p && !kv.2.reserved) || (s.heldOps.any fun o => o.part = p) ||
  (s.hosts.any fun kv => (kv.2.dma.any fun d => (s.ctx d.2.ctx).part = p && (s.ctx d.2.ctx).state ≠ 0) ||
    kv.2.dmaWaiting.any fun x => (s.ctx x.2.1).part = p && (s.ctx x.2.1).state ≠ 0) ||
  (s.mem.any fun kv => (kv.2.waiting.any fun q => q.part = p && q.cls ≠ 10 && q.cls ≠ 11) ||
    kv.2.points.any fun o => match o.2.op with | some x => decide (x.req.part = p ∧ x.req.cls ≠ 10 ∧ x.req.cls ≠ 11) | none => false)

/-- MAP_DONE (R407): the pages have been dropped everywhere, and the requests translated under them have completed. -/
def execMapDone (s : State) : Host.Outcome State Fault Refusal :=
  doneS (s.whenClocked fun s =>
    let j := s.mapJob
    if j.status = 1 && j.waiting && !s.partInFlight (mapPart j.record) then { s with mapJob := { j with status := 2, waiting := false } } else s)

/-- WALK (R410). -/
def execWalk (s : State) : Host.Outcome State Fault Refusal := s.work fun s => s.walkNext

/-- WALK_COMPLETE (R411, R412). -/
def execWalkComplete (p page : Nat) (s : State) : Host.Outcome State Fault Refusal :=
  withUnit (decide (p < s.cfg.partitions)) (s.work fun s => s.finishWalk p page)

end Sys2Proof.Machine
end

