-- ==== Sys2Proof/Machine/Erasures.lean ====
section
/-! DEFINITION. Sys2Proof/Machine/Erasures.lean: the erasures of Table 13.6, fenced partitions, the ends of sessions, and
the membership of the hub (R17, R260, R332, R452, R501). -/
namespace Sys2Proof.Machine

/-! ## Sessions -/

/-- A management session ends (R452, R454): a held role ends with it, audited, and an open segmented write is discarded. -/
def State.endMgmt (s : State) (n : Nat) : State :=
  let k := s.session n
  let s1 : State := { s with agent := { s.agent with sessions := tblDel s.agent.sessions n } }
  if k.role = .none then s1 else s1.audit 5 (roleNum k.role) n 0 0 0 0 k.keyId

/-- A link's session ends: its slot is invalidated and a keyed link fails (R260). -/
def State.endLinkSession (s : State) (l : Nat) : State :=
  let st := (s.link l).state
  if st = 3 || st = 4 || st = 5 then s.linkFail l 0x8001 else s.modLink l fun k => { k with session := { k.session with stage := 0 } }

/-- A chiplet port's session ends: the port loses its standing (R27). -/
def State.endChipSession (s : State) (c : Nat) : State :=
  let st := (s.chip c).state
  if st = 2 || st = 3 || st = 4 then s.chipIsolate c else s

/-- Every SPDM session ends (R441, R444). -/
def State.endSessions (s : State) : State :=
  let s1 := (s.slots.map (·.1)).foldl (fun s i => s.endHostSession i) s
  let s2 := ((s1.agent.sessions.filter fun kv => kv.2.spdm.stage ≠ 0).map (·.1)).foldl (fun s n => s.endMgmt n) s1
  let s3 := (List.range s2.cfg.chipPorts).foldl (fun s c => s.endChipSession c) s2
  (List.range s3.cfg.links).foldl (fun s l => if (s.link l).state = 0 then s else s.endLinkSession l) s3

/-! ## Membership -/

/-- Membership is lost (Table 13.6): HELLO says so at once on every keyed link (R260). -/
def State.loseMembership (s : State) : State :=
  if s.bring.member then ({ s with bring := { s.bring with member := false, memberId := 0, domain := 0 } } : State).helloAll else s

/-! ## Erasures -/

/-- Erase all (R332, R501): the domain slot first, then membership, then the removal of every live partition. -/
def State.eraseAll (s : State) : State :=
  let s1 := s.joinStop 3
  let s2 := if (s1.slot domainSlot).state = 0 then s1 else s1.invalidateSlot domainSlot
  let s3 := s2.loseMembership
  s3.liveParts.foldl (fun s p => s.partRemove p) s3

/-- Erase the subtree of a partition (R501): its slot first, then its removal; a removal under way is joined. -/
def State.eraseSubtree (s : State) (p : Nat) : State :=
  if (s.partn p).live then
    (if (s.slot (partSlot p)).state = 0 then s else s.invalidateSlot (partSlot p)).partRemove p
  else s

/-- Fence a partition (R501): step 1 of R425, then a partition reset. -/
def State.fenceNow (s : State) (p : Nat) : State :=
  if (s.partn p).live then
    (s.modPart p fun k => { k with fenced := true, resetDue := !k.resetting }).revoke p
  else s

/-- A fence-partition response exits to S0 first (R73). -/
def State.fencePart (s : State) (p : Nat) : State :=
  if s.power.state = 0 then s.beginExit.fenceNow p
  else ({ s with power := { s.power with fenceDue := s.power.fenceDue.filter (· ≠ p) ++ [p] } } : State).beginExit

/-- A write of 0x6102.01 (R501, R503): only a fenced partition is released. -/
def State.releaseWrite (p : Nat) (s : State) : Except Nat State :=
  if !(s.partn p).fenced then .error (if s.cfg.partitions ≤ p then 0x0609 else 0x0801)
  else .ok (s.modPart p fun k => { k with fenced := false, revoked := k.state = 3 })

/-- RELEASE_FENCED_PARTITION. -/
def execReleaseFencedPartition (m : Mgmt) (p : Nat) (s : State) : Host.Outcome State Fault Refusal :=
  doneS (s.dictWrite m 0x6102 1 (leBytes 1 p) (State.releaseWrite p))

end Sys2Proof.Machine
end

