-- ==== Sys2Proof/Machine/Identity.lean ====
section
/-! DEFINITION. Sys2Proof/Machine/Identity.lean: the DICE identities, the measurements and the composite report, and what the
hub signs (R354 to R362, R465). -/
namespace Sys2Proof.Machine

/-! ## What the configuration has -/

/-- Does the configuration have the port, unit or partition that a security configuration entry is for (R465, DEDUCED, log
entry 60). -/
def secPresent (c : Config) (i j : Nat) : Bool :=
  if i = 0x2020 then decide (j ≤ c.chipPorts) else if i = 0x3001 || i = 0x3101 || i = 0x3102 then decide (j ≤ c.memPorts) else true

/-- The security configuration entries of the configuration, in ascending index and subindex order. -/
def secEntries (c : Config) : List (Nat × Nat × Nat) :=
  (allEntries.filter fun e => e.sec).flatMap fun e => (List.range (e.subhi + 1 - e.sublo)).filterMap fun k =>
    if secPresent c e.lo (e.sublo + k) then some (e.lo, e.sublo + k, e.size) else none

/-- Measurement index 7 (R465). -/
def State.securityDigest (s : State) : Bytes :=
  sha384 ((secEntries s.cfg).flatMap fun e => leBytes 2 e.1 ++ leBytes 1 e.2.1 ++ leBytes e.2.2 (s.setting e.1 e.2.1))

/-! ## Firmware images -/

/-- A field of what an image declares: 0 version, 1 SVN, 2 ECDSA key, 3 ML-DSA-65 key, 4 signature of the ECDSA key over it,
5 ECDSA signature, 6 ML-DSA-65 signature, 7 the bytes both cover; nothing where the image is malformed. -/
def imageField (image : Bytes) (i : Nat) : Option Bytes := (Config.imageFields image).map fun fs => fs.getD i []

/-- Bytes of consecutive fuse words. -/
def State.fuseBytes (s : State) (lo n : Nat) : Bytes := (List.range n).flatMap fun i => leBytes 4 (tblGet s.fuses (lo + i) 0)

/-- The digest of the Maker's key (fuse words 0x20 to 0x2B, R51). -/
def State.makerDigest (s : State) : Bytes := s.fuseBytes 0x20 12

/-- Verify the two Maker signatures of an image (Table 14.9): 0 both hold, 1 the ECDSA signature fails, 2 the ML-DSA-65
signature fails, 4 the image is malformed. -/
def State.imageCheck (s : State) (image : Bytes) : Nat :=
  match Config.imageFields image with
  | none => 4
  | some fs =>
    let f := fun i => fs.getD i []
    if !(decide (sha384 (f 2) = s.makerDigest) && Config.ecdsaVerify (f 2) (f 7) (f 5)) then 1
    else if !(Config.ecdsaVerify (f 2) (f 3) (f 4) && Config.mldsaVerify (f 3) (f 7) (f 6)) then 2 else 0

/-- The version and the SVN an image declares. -/
def imageVersion (image : Bytes) : Nat := leNat (((imageField image 0).getD []).take 4)
@[inherit_doc imageVersion] def imageSvn (image : Bytes) : Nat := leNat (((imageField image 1).getD []).take 4)

/-! ## Measurements (R359) -/

/-- A region record as it reads (Table 8.3): GEN changes only when a sweep completes (R228). -/
def Region.bytes (g : Region) : Bytes :=
  leBytes 16 (g.base + g.pages * 2 ^ 32 + g.kind * 2 ^ 64 + g.part * 2 ^ 66 + g.state * 2 ^ 72 + g.slot * 2 ^ 80 + g.gen % 65536 * 2 ^ 96)

/-- The region records of a partition, by port and region number. -/
def State.partRegions (s : State) (p : Nat) : Bytes := s.mem.flatMap fun kv => (kv.2.regions.filter fun g => g.2.part = p).flatMap fun g => g.2.bytes

/-- What 0x4010.(P + 1) reads (Table 13.17). -/
def State.slotGen (s : State) (i : Nat) : Nat := let k := s.slot i; if k.state = 1 || k.state = 2 then k.gen else 0xFFFFFFFF

/-- The measurement indices below the composite report that the configuration has. -/
def measIndices (c : Config) : List Nat :=
  (List.range 8).map (· + 1) ++ (List.range c.chipPorts).map (0x10 + ·) ++ (List.range c.partitions).map (0x20 + ·)

/-- Is the debug port open (R435). -/
def State.debugOpen (s : State) : Bool := s.life.state = .blank || s.life.state = .endOfLife || s.life.debug = 4

/-- Flags of an entry of the composite report: bit 0 RESETTING, bit 1 ABSENT, bit 2 EXCLUDED (Tables 14.7, 14.8). -/
def State.measFlags (s : State) (i : Nat) : Nat :=
  if i < 0x10 then 0
  else if i < 0x20 then
    let k := s.chip (i - 0x10)
    if k.inReset then 5 else if k.state ≠ 4 then 6 else 0
  else
    let p := i - 0x20
    let k := s.partn p
    if k.state = 0 then 6 else if k.state = 3 || k.resetting || s.ctxs.any fun c => c.2.part = p && c.2.state = 2 then 5 else 0

/-- The value of a measurement index (Table 14.5); what an absent member would show is zero. -/
def State.measValue (s : State) (i : Nat) : Bytes :=
  match i with
  | 1 => Config.romDigest
  | 2 => sha384 s.fw.image
  | 3 => leBytes 4 s.fw.version
  | 4 => leBytes 4 s.fw.svn
  | 5 => Config.gwebrimDigest
  | 6 => leBytes 1 (lifeCode s.life.state) ++ leBytes 1 (bn s.debugOpen)
  | 7 => s.securityDigest
  | 8 => leBytes 8 s.bring.domain ++ leBytes 2 s.memberField ++ leBytes 4 (s.slot domainSlot).gen
  | _ =>
    if bit (s.measFlags i) 1 then List.replicate 48 0#8
    else if i < 0x20 then
      let k := s.chip (i - 0x10)
      sha384 (padTo 48 k.session.anchor ++ padTo 48 k.session.measured ++ leBytes 8 (paletteWord k.palette))
    else sha384 ((s.partn (i - 0x20)).bytes ++ leBytes 4 (s.slotGen (partSlot (i - 0x20))) ++ s.partRegions (i - 0x20))

/-- The DIGEST of an entry of the composite report. -/
def State.measDigest (s : State) (i : Nat) : Bytes :=
  let v := s.measValue i
  if i = 3 || i = 4 || i = 6 || i = 8 then sha384 v else padTo 48 v

/-- COMPOSITE: the entries that are not excluded. -/
def State.composite (s : State) : Bytes :=
  sha384 (((measIndices s.cfg).filter fun i => !bit (s.measFlags i) 2).flatMap fun i => leBytes 1 i ++ s.measDigest i)

/-- The composite report (R360). -/
def State.report (s : State) : Bytes :=
  let is := measIndices s.cfg
  leBytes 16 (0x0201 + s.memberField * 2 ^ 16 + is.length * 2 ^ 32 + bn s.bring.member * 2 ^ 41 + s.loc * 2 ^ 64) ++
    (is.flatMap fun i => leBytes 8 (i + s.measFlags i * 2 ^ 8) ++ s.measDigest i) ++ s.composite

/-- The value that a measurement block carries. -/
def State.measBlock (s : State) (i : Nat) : Bytes := if i = 0x60 then s.report else s.measValue i

/-- The DMTF value type of an index (Table 14.5): immutable ROM, mutable firmware, its version and its security version numbers, hardware
configuration, debug and device mode, firmware configuration, and a raw bit stream for the rest (the codes are PRESUMED from DSP0274,
log entry 41). -/
def measType (i : Nat) : Nat :=
  match i with
  | 1 => 0
  | 2 => 1
  | 3 => 6
  | 4 => 7
  | 5 => 2
  | 6 => 5
  | 7 => 3
  | _ => 0x80

/-- A measurement block: its index, its value type and its value. -/
def State.measDmtf (s : State) (i : Nat) : Bytes := leBytes 1 i ++ leBytes 1 (measType i) ++ s.measBlock i

/-! ## DICE (R356, R357) -/

/-- The order of the P-384 group, of FIPS 186-5 (PRESUMED, log entry 22). -/
def p384Order : Nat := 0xFFFFFFFFFFFFFFFFFFFFFFFFFFFFFFFFFFFFFFFFFFFFFFFFC7634D81F4372DDF581A0DB248B0A77AECEC196ACCC52973

/-- The private key of one algorithm from a seed of 88 bytes (R356): bytes 56 to 87 are the seed of ML-DSA.KeyGen_internal; of bytes 0
to 55 the extra random bits of FIPS 186-5 make the ECDSA scalar, (c mod (n − 1)) + 1, in 48 bytes, the most significant first. -/
def keySeed (pq : Bool) (seed : Bytes) : Bytes :=
  if pq then seed.drop 56 else beBytes 48 (beNat (seed.take 56) % (p384Order - 1) + 1)

/-- Derive the identities: DeviceID keys and their self-signed certificates, the CDI, the alias keys, and the alias
certificates, which carry measurement indices 1 to 7. Without a usable root key there are none (R366). -/
def State.dice (s : State) : State :=
  if !s.rootUsable then { s with fw := { s.fw with devEc := [], devPq := [], devCertEc := [], devCertPq := [], aliasCertEc := [], aliasCertPq := [], aliasEc := [], aliasPq := [] } }
  else
    let root := s.slotKey rootSlot
    let dev := kdf root "SH9v2 deviceid" [] 704
    let cdi := kdf root "SH9v2 cdi" (Config.romDigest ++ sha384 s.fw.image ++ Config.gwebrimDigest ++ leBytes 4 s.fw.svn) 384
    let al := kdf cdi "SH9v2 alias" [] 704
    let info := (List.range 7).flatMap fun i => s.measValue (i + 1)
    let devPub := fun pq => Config.publicKey pq (keySeed pq dev)
    let self := fun pq => Config.certificate pq (keySeed pq dev) (devPub pq) []
    let leaf := fun pq => Config.certificate pq (keySeed pq dev) (Config.publicKey pq (keySeed pq al)) info
    { s with fw := { s.fw with devEc := devPub false, devPq := devPub true, devCertEc := self false, devCertPq := self true, aliasCertEc := leaf false, aliasCertPq := leaf true, aliasEc := keySeed false al, aliasPq := keySeed true al } }

/-- The chain served in one algorithm (R358): the written chain, which ends with the DeviceID certificate, or the self-signed
DeviceID certificate, and then the alias certificate. -/
def State.servedChain (s : State) (pq : Bool) : Bytes :=
  let f := s.fw
  let written := if pq then f.chainPq else f.chainEc
  (if written = [] then (if pq then f.devCertPq else f.devCertEc) else written) ++ (if pq then f.aliasCertPq else f.aliasCertEc)

/-! ## Signing (R354) -/

/-- Sign a message with both alias keys, with 32 bytes of the master instance as the randomness; none while the DRBGs are
stopped. -/
def State.signBoth (s : State) (m : Bytes) : Option (Bytes × Bytes × State) :=
  match s.drawMaster 32 with
  | none => none
  | some (r, t) => some (Config.ecdsaSign s.fw.aliasEc m r, Config.mldsaSign s.fw.aliasPq m r, t)

end Sys2Proof.Machine
end

