-- ==== Sys2Proof/Machine/LifeCycle.lean ====
section
/-! DEFINITION. Sys2Proof/Machine/LifeCycle.lean: the life-cycle state and its vote, provisioning, transitions and debug
authorisation (R434 to R446). -/
namespace Sys2Proof.Machine

/-! ## Fuses (R51) -/

/-- The fuse code of a state (Table 18.1). -/
def fuseCode : Life → Nat
  | .blank => 0
  | .test => 0x3C96
  | .production => 0x6A593C96
  | .endOfLife => 0xFFFFFFFF

/-- The state of a state code. -/
def lifeOf (c : Nat) : Option Life := if c = 0 then some .blank else if c = 1 then some .test else if c = 2 then some .production else if c = 3 then some .endOfLife else none

/-- The state whose fuse code a word holds exactly. -/
def codeState (w : Nat) : Option Life := [Life.blank, .test, .production, .endOfLife].find? fun l => fuseCode l = w

/-- One attempt to program a fuse word: only bits that are not blown yet go to the macro, and which of them it blows is open (the macro
lies outside the block, and no row brings its answer: log entry 48). -/
def State.blowOnce (s : State) (w v : Nat) : State :=
  let old := tblGet s.fuses w 0
  let add := v % 2 ^ 32 ^^^ (v % 2 ^ 32 &&& old)
  if add = 0 then s
  else
    let e := s.free
    ({ e.2 with fuses := tblSet s.fuses w (old ||| (add &&& e.1)) 0 } : State).emit (.fuse w add)

/-- Program a fuse word: it is read back after each of at most three attempts (R441). -/
def State.blow (s : State) (w v : Nat) : State := ((s.blowOnce w v).blowOnce w v).blowOnce w v

/-- Does a fuse word read back right: every bit asked for is blown. -/
def State.blown (s : State) (w v : Nat) : Bool := tblGet s.fuses w 0 ||| v % 2 ^ 32 = tblGet s.fuses w 0

/-- Program consecutive fuse words with bytes. -/
def State.blowBytes (s : State) (w : Nat) (b : Bytes) : State := (chunks 4 b).zipIdx.foldl (fun s x => s.blow (w + x.2) (leNat x.1)) s

/-- Program copies A, B and C of the state code in that order (R441, step 3); after one that still reads wrong the rest are left, and
0x1101.03 reads failed. -/
def State.programLife (s : State) (l : Life) : State :=
  [0x10, 0x11, 0x12].foldl (fun s w =>
    if s.life.confirm = 3 then s
    else
      let t := s.blow w (fuseCode l)
      if t.blown w (fuseCode l) then t else ({ t with life := { t.life with confirm := 3 } } : State).error 8 0 none 0x9003 0) s

/-! ## The vote (R437) -/

/-- The state that at least two of the copies hold exactly. -/
def voted (cs : List Nat) : Option Life := [Life.blank, .test, .production, .endOfLife].find? fun l => decide (2 ≤ (cs.filter fun c => c = fuseCode l).length)

/-- Read and vote the copies: 0x1100.01, .02 and .04. -/
def State.vote (s : State) : State :=
  let cs := [0x10, 0x11, 0x12].map fun w => tblGet s.fuses w 0
  let d := (voted cs).getD .endOfLife
  let held := (cs.zipIdx.map fun x => if x.1 = fuseCode d then 2 ^ x.2 else 0).foldl (· + ·) 0
  { s with life := { s.life with state := d, vote := held + bn (voted cs).isNone * 8, copies := cs } }

/-- Is a copy the trace of an interrupted transition (R438): the code of a later state. -/
def aheadOf (d : Life) (c : Nat) : Option Life := match codeState c with | some l => if lifeCode d < lifeCode l then some l else none | none => none

/-- The transition that the vote finds interrupted, if any. -/
def State.interrupted (s : State) : Option Life := if s.life.state = .endOfLife then none else s.life.copies.findSome? fun c => aheadOf s.life.state c

/-- Repair or count the copies that differ from the decided code (R438), each with its audit record. -/
def State.repairCopies (s : State) : State :=
  let d := s.life.state
  if s.life.vote / 8 % 2 = 1 then (s.error 8 0 none 0x9002 0).auditHub 6 0 0 0x9002 3
  else if d = .endOfLife then s
  else s.life.copies.zipIdx.foldl (fun s x =>
    let code := fuseCode d
    if x.1 = code then s
    else
      let count := fun (s : State) (e : Nat) => (({ s with life := { s.life with counted := s.life.counted + 1 } } : State).error 8 0 none e 0).auditHub 6 0 0 e x.1
      if x.1 &&& code = x.1 then
        (let t := s.blow (0x10 + x.2) code
         if t.blown (0x10 + x.2) code then t.auditHub 6 0 0 0 x.1 else count t 0x9003)
      else count s 0x9001) s

/-! ## Provisioning (R440) -/

/-- Change the life-cycle record. -/
def State.modLife (s : State) (f : LifeCycle → LifeCycle) : State := { s with life := f s.life }

/-- A provisioning write: once, in Blank. -/
def State.provision (s : State) (sub word n : Nat) (value : Option Bytes) : Except Nat State :=
  if s.life.state ≠ .blank || s.life.written.contains sub || (s.fuseBytes word n).any (· ≠ 0#8) then .error 0x0801
  else match value with
    | none => .error 0x0609
    | some b => .ok ((s.modLife fun l => { l with written := sub :: l.written }).blowBytes word b)

/-- A write of 0x1101.05: the unique device secret is drawn on the die. -/
def State.secretWrite (v : Nat) (s : State) : Except Nat State :=
  match s.provision 5 0 12 (if v = 1 then some [] else none) with
  | .error a => .error a
  | .ok t => match t.drawMaster 48 with
    | none => .error 0x0802
    | some (b, u) => .ok (u.blowBytes 0 b)

/-- A write of 0x1101.06. -/
def State.serialWrite (v : Nat) (s : State) : Except Nat State := s.provision 6 0x18 2 (some (leBytes 8 v))

/-- A write of 0x1101.07. -/
def State.digestWrite (b : Bytes) (s : State) : Except Nat State := s.provision 7 0x20 12 (some (padTo 48 b))

/-- GENERATE_SECRET. -/
def execGenerateSecret (m : Mgmt) (value : Nat) (s : State) : Host.Outcome State Fault Refusal :=
  doneS (s.dictWrite m 0x1101 5 (leBytes 1 value) (State.secretWrite (value % 256)))

/-- SERIAL_WRITE. -/
def execSerialWrite (m : Mgmt) (serial : Nat) (s : State) : Host.Outcome State Fault Refusal :=
  doneS (s.dictWrite m 0x1101 6 (leBytes 8 serial) (State.serialWrite serial))

/-- DEBUG_KEY_DIGEST_WRITE. -/
def execDebugKeyDigestWrite (m : Mgmt) (digest : Bytes) (s : State) : Host.Outcome State Fault Refusal :=
  doneS (s.dictWrite m 0x1101 7 digest (State.digestWrite digest))

/-! ## Transitions (R439, R441) -/

/-- A write of 0x1101.01 by a role: the request waits for its confirmation. -/
def State.targetWrite (code : Nat) (role : Role) (s : State) : Except Nat State :=
  if 3 < code then .error 0x0609 else .ok (s.modLife fun l => { l with target := some code, confirm := 1, requester := role })

/-- TARGET_STATE. -/
def execTargetState (m : Mgmt) (code : Nat) (s : State) : Host.Outcome State Fault Refusal :=
  doneS (s.dictWriteAs m 0x1101 1 (leBytes 1 code) (State.targetWrite (code % 256)))

/-- The checks of R439: the abort code that refuses a transition, 0 none. -/
def State.transitionGate (s : State) (target : Life) (role : Role) : Nat :=
  let nonzero := fun (b : Bytes) => b.any (· ≠ 0#8)
  match s.life.state, target with
  | .blank, .test =>
    if role ≠ .maker then 0x0601 else if nonzero (s.fuseBytes 0 12) && nonzero (s.fuseBytes 0x18 2) && nonzero (s.fuseBytes 0x20 12) then 0 else 0x0801
  | .test, .production => if role ≠ .maker then 0x0601 else if s.fw.fw = 0 then 0 else 0x0801
  | .test, .endOfLife => if role = .maker || role = .installer then 0 else 0x0601
  | .production, .endOfLife => if role = .maker || role = .installer then 0 else 0x0601
  | _, _ => 0x0609

/-- Raise blk_rst_req with a cause (R53, R65). -/
def State.requestReset (s : State) (err : Nat) : State := { s with bring := { s.bring with rstReq := true }, faults := { s.faults with errCode := err } }

/-- A confirmed transition: audited, keys erased, copies programmed, and the block reset requested. -/
def State.transition (s : State) (target : Life) : State :=
  let s1 := (s.auditHub 6 0 0 0 (lifeCode target)).modLife fun l => { l with confirm := 2 }
  let s2 := if s.life.state = .blank then s1 else (s1.endSessions.eraseAll).invalidateSlot rootSlot
  (s2.programLife target).requestReset 0x9000

/-- A write of 0x1101.02: a wrong confirmation abandons the request. -/
def State.confirmWrite (v : Nat) (s : State) : Except Nat State :=
  match s.life.target with
  | none => .error 0x0801
  | some c =>
    if s.life.confirm ≠ 1 then .error 0x0801
    else if v ≠ s.serial % 2 ^ 32 then .ok (s.modLife fun l => { l with target := none, confirm := 0 })
    else match lifeOf c with
      | none => .error 0x0609
      | some target => let g := s.transitionGate target s.life.requester; if g ≠ 0 then .error g else .ok (s.transition target)

/-- CONFIRMATION. -/
def execConfirmation (m : Mgmt) (serialLow : Nat) (s : State) : Host.Outcome State Fault Refusal :=
  doneS (s.dictWrite m 0x1101 2 (leBytes 4 serialLow) (State.confirmWrite (serialLow % 2 ^ 32)))

/-- CONFIRMATION_TIMEOUT: 10 s without a confirmation. -/
def execConfirmationTimeout (s : State) : Host.Outcome State Fault Refusal :=
  doneS (s.whenAlive fun s => if s.life.confirm = 1 then s.modLife fun l => { l with target := none, confirm := 0 } else s)

/-! ## Debug authorisation (R442 to R445) -/

/-- A challenge record (Table 18.4): the nonce, and what a role challenge adds at bits [411:400]. -/
def State.challengeBytes (s : State) (nonce : Bytes) (extra : Nat) : Bytes :=
  leBytes 64 (0x0201 + lifeCode s.life.state * 2 ^ 16 + s.fw.svn * 2 ^ 32 + s.serial * 2 ^ 64 + leNat (nonce.take 32) * 2 ^ 128 +
    s.memberField * 2 ^ 384 + extra % 2 ^ 12 * 2 ^ 400 + bn s.bring.member * 2 ^ 412)

/-- The fields of a response (Table 18.5). -/
def rspEcKey (b : Bytes) : Bytes := b.take 97
@[inherit_doc rspEcKey] def rspPqKey (b : Bytes) : Bytes := (b.drop 97).take 1952
@[inherit_doc rspEcKey] def rspPqKeySig (b : Bytes) : Bytes := (b.drop 2049).take 96
@[inherit_doc rspEcKey] def rspEcSig (b : Bytes) : Bytes := (b.drop 2145).take 96
@[inherit_doc rspEcKey] def rspPqSig (b : Bytes) : Bytes := (b.drop 2241).take 3309

/-- Do the signatures of a response hold over a labelled challenge (R443, R451). -/
def responseHolds (label : String) (challenge b : Bytes) : Bool :=
  let m := ascii label ++ [0#8] ++ challenge
  Config.ecdsaVerify (rspEcKey b) (rspPqKey b) (rspPqKeySig b) && Config.ecdsaVerify (rspEcKey b) m (rspEcSig b) &&
    Config.mldsaVerify (rspPqKey b) m (rspPqSig b)

/-- Is a challenge drawn at a local count older than a number of seconds (R443, R451), at 650 counts a microsecond. -/
def State.expired (s : State) (at_ seconds : Nat) : Bool := decide (seconds * 650000000 < s.loc - at_)

/-- A debug step in the audit log (R444, R466). -/
def State.auditDebug (s : State) (code value : Nat) : State := s.auditHub 7 0 0 code value

/-- Who may write 0x1102.01 (R443): the Maker alone in Test. -/
def State.debugRole (s : State) (role : Role) : Bool := s.life.state = .test && role ≠ .maker

/-- Write 1 to 0x1102.01: a fresh challenge. -/
def State.debugChallenge (role : Role) (s : State) : Except Nat State :=
  if s.debugRole role then .error 0x0601
  else if 8 ≤ s.life.failures then .error (0x9006 * 2 ^ 16 + 0x0801)
  else if s.life.state ≠ .production || 2 ≤ s.life.debug then .error 0x0801
  else match s.drawMaster 32 with
    | none => .error 0x0802
    | some (n, t) => .ok (t.modLife fun l => { l with challenge := t.challengeBytes n 0, challengeAt := t.loc, debug := 1 })

/-- A submission fails: counted, audited, and after 8 in a row the lockout is an alarm event. -/
def State.submitFailed (s : State) (err : Nat) : State :=
  let s1 := ((s.error 8 0 none err 0).auditDebug err 0).modLife fun l => { l with challenge := [], debug := 0, failures := min 255 (l.failures + 1) }
  if s1.life.failures = 8 then s1.alarm 10 none 0 0x9015 else s1

/-- Debug is to open: the clearing begins (R444). -/
def State.beginClearing (s : State) : State := (s.auditDebug 0 0).modLife fun l => { l with challenge := [], debug := 3, cleared := false, failures := 0 }

/-- Write 2 to 0x1102.01: verify the response; the challenge is consumed. -/
def State.debugSubmit (role : Role) (s : State) : Except Nat State :=
  if s.debugRole role then .error 0x0601
  else if s.life.state ≠ .production || s.fw.fw ≠ 0 || s.life.debug ≠ 1 then .error 0x0801
  else if s.expired s.life.challengeAt (s.setting 0x1102 5) then .ok (s.submitFailed 0x9005)
  else if decide (sha384 (rspEcKey s.life.response) = s.makerDigest) && responseHolds "SH9v2 debug" s.life.challenge s.life.response then .ok s.beginClearing
  else .ok (s.submitFailed 0x9004)

/-- Write 3 to 0x1102.01: the block reset that closes debug. The manual gives it no cause code: a free value. -/
def State.debugClose (role : Role) (s : State) : Except Nat State :=
  if s.debugRole role then .error 0x0601 else .ok (s.free.2.requestReset (s.free.1 % 65536))

/-- Write 4 to 0x1102.01: the Maker opens debug in Test. -/
def State.debugOpenTest (role : Role) (s : State) : Except Nat State :=
  if s.debugRole role then .error 0x0601
  else if s.life.state ≠ .test || 3 ≤ s.life.debug then .error 0x0801
  else .ok s.beginClearing

/-- A write of 0x1102.01. -/
def State.debugWrite (v : Nat) (role : Role) (s : State) : Except Nat State :=
  match v with
  | 1 => s.debugChallenge role
  | 2 => s.debugSubmit role
  | 3 => s.debugClose role
  | 4 => s.debugOpenTest role
  | _ => .error 0x0609

/-- A debug command as a dictionary write. -/
def State.debugRow (s : State) (m : Mgmt) (v : Nat) : Host.Outcome State Fault Refusal :=
  doneS (s.dictWriteAs m 0x1102 1 (leBytes 1 v) (State.debugWrite v))

/-- DEBUG_CHALLENGE. -/
def execDebugChallenge (m : Mgmt) (s : State) : Host.Outcome State Fault Refusal := s.debugRow m 1

/-- SUBMIT. -/
def execSubmit (m : Mgmt) (s : State) : Host.Outcome State Fault Refusal := s.debugRow m 2

/-- OPEN_IN_TEST. -/
def execOpenInTest (m : Mgmt) (s : State) : Host.Outcome State Fault Refusal := s.debugRow m 4

/-- CLOSE_BY_BLOCK_RESET. -/
def execCloseByBlockReset (m : Mgmt) (s : State) : Host.Outcome State Fault Refusal := s.debugRow m 3

/-- The clearing of R444, step by step, each audited: sessions and their leaves, partitions, erase all, the whole block's
scrub. -/
def State.clear (s : State) : State :=
  let leaves := (s.keys.slots.filter fun kv => (kv.2.kind = 4 || kv.2.kind = 5) && kv.1 < 65536).map (·.1)
  let s1 := leaves.foldl (fun s i => if (s.slot i).state = 1 || (s.slot i).state = 2 then s.invalidateSlot i else s) s.endSessions
  let s2 := s1.auditDebug 0 1
  let s3 := (((s2.parts.filter fun kv => kv.2.state ≠ 0 && kv.2.state ≠ 3).map (·.1)).foldl (fun s p => s.partRemove p) s2).auditDebug 0 2
  let s4 := s3.eraseAll.auditDebug 0 3
  (((s4.rdrop false fun _ => true).bump 0x5260 4).auditDebug 0 4).modLife fun l => { l with cleared := true }

/-- CLEARING. -/
def execClearing (s : State) : Host.Outcome State Fault Refusal :=
  doneS (s.whenAlive fun s => if s.life.debug = 3 && !s.life.cleared then s.clear else s)

/-- CLEARING_DONE: the last removal has completed, and the port opens. -/
def execClearingDone (s : State) : Host.Outcome State Fault Refusal :=
  doneS (s.whenAlive fun s => if s.life.debug = 3 && s.life.cleared && s.parts.all (fun kv => kv.2.state = 0) then
    (s.auditDebug 0 5).modLife fun l => { l with debug := 4 } else s)

end Sys2Proof.Machine
end

