-- ==== Sys2Proof/Machine/Attest.lean ====
section
/-! DEFINITION. Sys2Proof/Machine/Attest.lean: the SPDM responder and requester (R310, R350 to R367). -/
namespace Sys2Proof.Machine

/-! ## Codes of DSP0274 (PRESUMED from SPDM 1.3, log entry 41) -/

/-- Response codes. -/
def rspVersion : Nat := 0x04
@[inherit_doc rspVersion] def rspCapabilities : Nat := 0x61
@[inherit_doc rspVersion] def rspAlgorithms : Nat := 0x63
@[inherit_doc rspVersion] def rspCertificate : Nat := 0x02
@[inherit_doc rspVersion] def rspChallengeAuth : Nat := 0x03
@[inherit_doc rspVersion] def rspMeasurements : Nat := 0x60
@[inherit_doc rspVersion] def rspKeyExchange : Nat := 0x64
@[inherit_doc rspVersion] def rspFinish : Nat := 0x65
@[inherit_doc rspVersion] def rspHeartbeat : Nat := 0x68
@[inherit_doc rspVersion] def rspKeyUpdate : Nat := 0x69
@[inherit_doc rspVersion] def rspEndSession : Nat := 0x6C
@[inherit_doc rspVersion] def rspVendor : Nat := 0x7E

/-- ERROR codes. -/
def errInvalid : Nat := 0x01
@[inherit_doc errInvalid] def errBusy : Nat := 0x03
@[inherit_doc errInvalid] def errUnexpected : Nat := 0x04
@[inherit_doc errInvalid] def errUnspecified : Nat := 0x05
@[inherit_doc errInvalid] def errDecrypt : Nat := 0x06
@[inherit_doc errInvalid] def errUnsupported : Nat := 0x07

/-! ## Peers and their sessions (Table 14.1) -/

/-- The number of a peer's connection. -/
def peerNum : Peer → Nat
  | .host h _ => h
  | .mgmt _ => 4
  | .chip c => 8 + c
  | .link l => 16 + l

/-- Does the configuration have the peer's port. -/
def State.hasPeer (s : State) : Peer → Bool
  | .host h _ => decide (h < s.cfg.hostPorts)
  | .mgmt _ => true
  | .chip c => decide (c < s.cfg.chipPorts)
  | .link l => decide (l < s.cfg.links)

/-- Does a peer's transport carry SPDM now. -/
def State.reachable (s : State) : Peer → Bool
  | .host h _ => !(s.host h).inReset
  | .mgmt _ => true
  | .chip c => let k := s.chip c; decide (1 ≤ k.state ∧ k.state ≤ 4)
  | .link l => let k := s.link l; decide (2 ≤ k.state ∧ k.state ≤ 4)

/-- The session or handshake a message of a peer travels in. -/
def State.peerSession (s : State) : Peer → Option Session
  | .host h (some i) => let k := s.hslot i; if k.held && k.port = h then some k.session else none
  | .mgmt (some n) => if n < 4 && (s.session n).spdm.stage ≠ 0 then some (s.session n).spdm else none
  | .chip c => let k := (s.chip c).session; if 4 ≤ k.stage then some k else none
  | .link l => let k := (s.link l).session; if 4 ≤ k.stage then some k else none
  | _ => none

/-- Change the session of a peer. -/
def State.modPeer (s : State) (p : Peer) (f : Session → Session) : State :=
  match p with
  | .host _ (some i) => s.modSlot i fun k => { k with session := f k.session }
  | .mgmt (some n) => s.modSession n fun k => { k with spdm := f k.spdm }
  | .chip c => s.modChip c fun k => { k with session := f k.session }
  | .link l => s.modLink l fun k => { k with session := f k.session }
  | _ => s

/-- Is this hub the requester toward a peer. -/
def State.asks (s : State) : Peer → Bool
  | .chip _ => true
  | .link l => (s.link l).session.requester
  | _ => false

/-- A link's session ends while its keys stay (R260): a fresh session is attested within the bound, and its keys become the next
phase. -/
def State.dropLinkSession (s : State) (l : Nat) : State :=
  let k := s.link l
  let asks := match k.peer with | some p => (s.isRequester l p).getD false | none => false
  let keyed := decide (3 ≤ k.state ∧ k.state ≤ 5)
  s.modLink l fun k => { k with session := { requester := asks, updateAsked := k.session.updateAsked }, rekeying := k.rekeying || keyed, boundRunning := k.boundRunning || keyed }

/-- End the session of a peer (R310, R452, R260, Table 12.11). -/
def State.endPeer (s : State) (p : Peer) : State :=
  match p with
  | .host _ (some i) => s.endHostSession i
  | .mgmt (some n) => s.endMgmt n
  | .chip c => s.endChipSession c
  | .link l => s.dropLinkSession l
  | _ => s

/-- The connection of a peer with the responder. -/
def State.conn (s : State) (p : Peer) : Conn := tblGet s.fw.conns (peerNum p) {}

/-- Change a connection. -/
def State.modConn (s : State) (p : Peer) (f : Conn → Conn) : State := { s with fw := { s.fw with conns := tblMod s.fw.conns (peerNum p) f {} } }

/-! ## Transcripts (R354) -/

/-- Does a message of a peer belong to a session's transcript: from KEY_EXCHANGE on, and for every message where this hub asks. -/
def State.inSession (s : State) (p : Peer) : Bool :=
  match p with
  | .host _ (some _) | .mgmt (some _) => (s.peerSession p).isSome
  | .chip _ => true
  | .link l => (s.link l).session.requester || decide (4 ≤ (s.link l).session.stage)
  | _ => false

/-- The messages exchanged with a peer so far. -/
def State.messages (s : State) (p : Peer) : List Bytes :=
  if !s.inSession p then (s.conn p).messages
  else match p with
  | .host _ (some i) => (s.hslot i).session.messages
  | .mgmt (some n) => (s.session n).spdm.messages
  | .chip c => (s.chip c).session.messages
  | .link l => (s.link l).session.messages
  | _ => []

/-- Messages exchanged with a peer. -/
def State.transcribe (s : State) (p : Peer) (ms : List Bytes) : State :=
  if s.inSession p then s.modPeer p fun k => { k with messages := k.messages ++ ms } else s.modConn p fun k => { k with messages := k.messages ++ ms }

/-- The bytes of a request: on a host port the DOE object that was handed over (R48). -/
def State.requestBytes (s : State) (p : Peer) (code : Nat) (parts : List Bytes) : Bytes :=
  match p with
  | .host h _ => if (s.host h).doeObject.isEmpty then Config.standardBody code parts else (s.host h).doeObject.flatMap (leBytes 4)
  | _ => Config.standardBody code parts

/-- The bytes M that a signature covers (R354): the SPDM signing prefix of 100 bytes, which ends with the context of what is signed, and
the transcript hash. -/
def State.signedBytes (s : State) (p : Peer) (request : Nat) (context : String) (ms : List Bytes) : Bytes :=
  let version := ascii "dmtf-spdm-v1.3.*"
  let ctx := ascii context
  padTo (100 - ctx.length) (version ++ version ++ version ++ version) ++ ctx ++ sha384 (Config.transcript request (s.messages p ++ ms))

/-- An SPDM response. -/
def State.spdmOut (s : State) (p : Peer) (code : Nat) (parts : List Bytes) : State := s.say (.spdm p code (Config.standardBody code parts))

/-- The answer to a request, both kept for the transcript. -/
def State.spdmAnswer (s : State) (p : Peer) (request : Bytes) (code : Nat) (parts : List Bytes) : State :=
  (s.transcribe p [request, Config.standardBody code parts]).spdmOut p code parts

/-- An ERROR response. -/
def State.spdmError (s : State) (p : Peer) (e : Nat) : State := s.say (.spdm p 0x7F [BitVec.ofNat 8 e])

/-! ## What the responder serves (R353, R364, R366) -/

/-- Take a message that a peer sent: a link's MCTP packets have given it (R249), and a chiplet's sideband credit returns (R46; one a
message, PRESUMED, log entry 105). -/
def State.heard (s : State) (p : Peer) (f : State → State) : State :=
  f (match p with
    | .link l => s.modLink l fun k => { k with mctp := [] }
    | .chip c => s.modChip c fun k => { k with cfgCredits := k.cfgCredits + 1 }
    | _ => s)

/-- A request of a peer. `first`: one of the three that every life-cycle state serves; `early`: one that is served while an
image is staged. -/
def State.spdmRow (s : State) (p : Peer) (first early : Bool) (f : State → State) : Host.Outcome State Fault Refusal :=
  withUnit (s.hasPeer p) (doneS (s.whenAlive fun s =>
    let handshake := match s.peerSession p with | some k => k.stage = 4 | none => false
    if !s.bring.ready || !s.reachable p || s.fw.fw = 2 then s
    else s.heard p fun s => if (s.life.state = .blank || s.life.state = .endOfLife) && !first then s.spdmError p errUnexpected
    else if s.fw.fw = 1 && !early && !handshake then (s.bump 0x4100 6).spdmError p errBusy
    else f s))

/-- Run a request that needs the negotiated connection, or a session; in the encapsulated flow the session is the peer's
proof of it. -/
def State.whenAgreed (s : State) (p : Peer) (f : State → State) : State :=
  if (s.peerSession p).isSome || (!s.asks p && (s.conn p).stage = 3) then f s else s.spdmError p errUnexpected

/-- Run a request that opens a connection: outside any session, toward the responder end. -/
def State.whenOutside (s : State) (p : Peer) (f : State → State) : State :=
  if (s.peerSession p).isSome || s.asks p then s.spdmError p errUnexpected else f s

/-- A signed response: both signatures over the same message, the ML-DSA-65 one held for the connection or session (R354). -/
def State.signedOut (s : State) (p : Peer) (request code : Nat) (context : String) (body : Bytes) (parts : List Bytes) : State :=
  match s.signBoth (s.signedBytes p request context [body, Config.standardBody code parts]) with
  | none => s.spdmError p errUnspecified
  | some (ec, pq, t) =>
    let held := some (request, pq)
    let t1 := t.bump 0x4100 5
    let t2 := if t1.inSession p then t1.modPeer p fun k => { k with heldPq := held } else t1.modConn p fun k => { k with heldPq := held }
    t2.spdmAnswer p body code (parts ++ [ec])

/-! ## Negotiation -/

/-- GET_VERSION: versions 1.2 and 1.3; the connection starts again. -/
def execGetVersion (p : Peer) (s : State) : Host.Outcome State Fault Refusal :=
  s.spdmRow p true true fun s => s.whenOutside p fun s => 
    (s.modConn p fun _ => { stage := 1 }).spdmAnswer p (s.requestBytes p 0x84 []) rspVersion [[0x12#8, 0x13#8]]

/-- The capabilities of Table 14.2 and CTExponent 16. -/
def execGetCapabilities (p : Peer) (s : State) : Host.Outcome State Fault Refusal :=
  s.spdmRow p true true fun s => s.whenOutside p fun s =>
    if (s.conn p).stage = 1 then
      (s.modConn p fun k => { k with stage := 2 }).spdmAnswer p (s.requestBytes p 0xE1 []) rspCapabilities [ascii "CERT CHAL MEAS_SIG MEAS_FRESH ENCRYPT MAC MUT_AUTH KEY_EX HBEAT KEY_UPD CHUNK ALIAS_CERT", [16#8]]
    else s.spdmError p errUnexpected

/-- NEGOTIATE_ALGORITHMS: the one set of Table 14.2, where the requester supports it. -/
def execNegotiateAlgorithms (p : Peer) (supported : Bool) (s : State) : Host.Outcome State Fault Refusal :=
  s.spdmRow p true true fun s => s.whenOutside p fun s =>
    if (s.conn p).stage ≠ 2 then s.spdmError p errUnexpected
    else if !supported then s.spdmError p errUnsupported
    else (s.modConn p fun k => { k with stage := 3 }).spdmAnswer p (s.requestBytes p 0xE3 [[BitVec.ofNat 8 (bn supported)]]) rspAlgorithms [ascii "ECDSA_P384 SHA_384 SECP_384_R1 AES_256_GCM SPDM OpaqueDataFmt1"]

/-! ## Chains, challenges and measurements -/

/-- GET_CERTIFICATE (R358): slot 0 alone; a portion of the chain and what remains after it. -/
def execGetCertificate (p : Peer) (slot offset length : Nat) (s : State) : Host.Outcome State Fault Refusal :=
  s.spdmRow p false false fun s => s.whenAgreed p fun s =>
    let chain := s.servedChain false
    let part := (chain.drop offset).take length
    if slot ≠ 0 then s.spdmError p errUnsupported
    else if chain.length ≤ offset then s.spdmError p errInvalid
    else s.spdmAnswer p (s.requestBytes p 0x82 [leBytes 1 slot, leBytes 2 offset, leBytes 2 length]) rspCertificate [part, leBytes 2 (chain.length - offset - part.length)]

/-- CHALLENGE: signed by both alias keys. -/
def execChallenge (p : Peer) (slot : Nat) (nonce : Bytes) (s : State) : Host.Outcome State Fault Refusal :=
  s.spdmRow p false false fun s => s.whenAgreed p fun s =>
    if slot ≠ 0 then s.spdmError p errUnsupported
    else match s.drawMaster 32 with
      | none => s.spdmError p errUnspecified
      | some (n, t) => t.signedOut p 0x83 rspChallengeAuth "responder-challenge_auth signing" (t.requestBytes p 0x83 [leBytes 1 slot, nonce])
          [sha384 (t.servedChain false), n, nonce]

/-- The indices that GET_MEASUREMENTS selects: 0 the count, 0xFF all. -/
def State.measSelect (s : State) (index : Nat) : Option (List Bytes) :=
  let all := measIndices s.cfg ++ [0x60]
  if index = 0 then some [leBytes 1 all.length]
  else if index = 0xFF then some (all.map fun i => s.measDmtf i)
  else if all.contains index then some [s.measDmtf index] else none

/-- GET_MEASUREMENTS (R359 to R361): one snapshot of every index, signed where asked. -/
def execGetMeasurements (p : Peer) (index : Nat) (signed : Bool) (nonce : Bytes) (s : State) : Host.Outcome State Fault Refusal :=
  s.spdmRow p false false fun s => s.whenAgreed p fun s =>
    let s1 : State := { s with fw := { s.fw with composite := s.composite } }
    match s.measSelect index with
    | none => s.spdmError p errInvalid
    | some blocks =>
      let body := s1.requestBytes p 0xE0 [leBytes 1 index, leBytes 1 (bn signed), nonce]
      if !signed then s1.spdmAnswer p body rspMeasurements blocks
      else match s1.drawMaster 32 with
        | none => s.spdmError p errUnspecified
        | some (n, t) => t.signedOut p 0xE0 rspMeasurements "responder-measurements signing" body (blocks ++ [n, nonce])

/-! ## Sessions -/

/-- The export master secret of a new session. -/
def State.newMaster (s : State) (exchange : Bytes) : Bytes × State := (Config.exportMaster s.freeCount exchange, { s with freeCount := s.freeCount + 1 })

/-- The session a KEY_EXCHANGE would open, or the state after it is answered Busy. -/
def State.openSession (s : State) (p : Peer) : Except State (Peer × State) :=
  match p with
  | .host h none => match (List.range 64).find? fun i => s.slotFree i with
    | some i => .ok (.host h (some i), s.modSlot i fun _ => { held := true, port := h })
    | none => .error (((s.hostError h none 0x4005 0).bump 0x3321 1).spdmError p errBusy)
  | .mgmt none => match (List.range 4).find? fun n => (s.session n).spdm.stage = 0 with
    | some n => .ok (.mgmt (some n), s)
    | none => .error (s.spdmError p errBusy)
  | .link l =>
    let k := s.link l
    if (k.state = 2 || k.rekeying) && !k.session.requester && k.session.stage = 0 then .ok (p, s) else .error (s.spdmError p errUnexpected)
  | _ => .error (s.spdmError p errUnexpected)

/-- The number of a session in KEY_EXCHANGE_RSP. -/
def sessionId : Peer → Nat
  | .host _ (some i) => i
  | .mgmt (some n) => n
  | _ => 0

/-- The heartbeat period in seconds (Table 14.2). -/
def heartbeatPeriod : Nat := 10

/-- KEY_EXCHANGE (R310, R350): a handshake opens in a free slot, and its response is signed twice. -/
def execKeyExchange (p : Peer) (exchange : Bytes) (s : State) : Host.Outcome State Fault Refusal :=
  s.spdmRow p false false fun s => s.whenOutside p fun s => s.whenAgreed p fun s =>
    match s.openSession p with
    | .error t => t
    | .ok (q, t) => match t.drawMaster 32 with
      | none => s.spdmError p errUnspecified
      | some (n, u) =>
        let w := u.newMaster exchange
        (w.2.modPeer q fun _ => { stage := 4, exportMaster := w.1, messages := s.messages p }).signedOut q 0xE4 rspKeyExchange
          "responder-key_exchange_rsp signing" (s.requestBytes p 0xE4 [exchange]) [leBytes 2 (sessionId q), n, exchange, leBytes 1 heartbeatPeriod]

/-- A host session is established: its leaf hangs from the root (R310, Table 13.2); a seed is the first 256 bits of the export
master secret (DESIGN CHOICE, log entry 61). -/
def State.hostKeyed (s : State) (h i : Nat) : State :=
  let p := Peer.host h (some i)
  match s.freeLeaf with
  | none => ((s.error 8 0 none 0x8003 0).endHostSession i).spdmError p errUnspecified
  | some leaf => match s.createSeedKey leaf 5 0x41 0 0 ((s.hslot i).session.exportMaster.take 32) with
    | .error c => ((s.keyRefused c).endHostSession i).spdmError p errUnspecified
    | .ok t =>
      let g := (t.slot leaf).gen
      (t.modSlot i fun k => { k with leaf := leaf, keyGen := some g, binding := t.masked ((t.material leaf g).take 32), session := { k.session with stage := 5 } }).spdmOut p rspFinish []

/-- A link session is established: a fresh link is keyed, a link kept through a commit moves to the new keys (R257, R260). -/
def State.linkEstablished (s : State) (l : Nat) : State :=
  let s1 := s.modLink l fun k => { k with session := { k.session with stage := 5 } }
  if (s.link l).state = 2 then s1.linkKeyed l else s1.linkUpdate l

/-- FINISH (R352, R354): a verified one establishes the session; the responder of a link has by then checked the peer. -/
def execFinish (p : Peer) (verified : Bool) (s : State) : Host.Outcome State Fault Refusal :=
  s.spdmRow p false false fun s => match s.peerSession p with
    | none => s.spdmError p errUnexpected
    | some k =>
      if k.stage ≠ 4 || s.asks p then s.spdmError p errUnexpected
      else match p with
        | .link l => if verified && k.chainOk && k.measOk then (s.spdmOut p rspFinish []).linkEstablished l else (s.spdmError p errDecrypt).linkFail l 0x2010
        | .host h (some i) => if verified then s.hostKeyed h i else (s.spdmError p errDecrypt).endHostSession i
        | .mgmt (some n) => if verified then (s.modPeer (.mgmt (some n)) fun k => { k with stage := 5 }).spdmOut p rspFinish [] else (s.spdmError p errDecrypt).endMgmt n
        | _ => s

/-- Run a message of an established session. -/
def State.whenOpen (s : State) (p : Peer) (f : State → State) : State :=
  match s.peerSession p with
  | some k => if k.stage = 5 then f s else s.spdmError p errUnexpected
  | none => s.spdmError p errUnexpected

/-- HEARTBEAT: the session lives on. -/
def execHeartbeat (p : Peer) (s : State) : Host.Outcome State Fault Refusal := s.spdmRow p false true fun s => s.whenOpen p fun s => s.spdmOut p rspHeartbeat []

/-- HEARTBEAT_TIMEOUT: no heartbeat within the period of 10 s. -/
def execHeartbeatTimeout (p : Peer) (s : State) : Host.Outcome State Fault Refusal :=
  withUnit (s.hasPeer p) (doneS (s.whenAlive fun s => match s.peerSession p with | some k => if k.stage = 5 then s.endPeer p else s | none => s))

/-- END_SESSION. -/
def execEndSession (p : Peer) (s : State) : Host.Outcome State Fault Refusal :=
  s.spdmRow p false true fun s => s.whenOpen p fun s => (s.spdmOut p rspEndSession []).endPeer p

/-- A KEY_UPDATE that the requester end of a link session sends (R258): this end derives the next generation, and a request of
its own is served by it. On a chiplet port only the hub starts updates. In a session of a host or of the management network it changes
the keys of the session's own messages, which SPDM holds (R353). -/
def execKeyUpdate (p : Peer) (s : State) : Host.Outcome State Fault Refusal :=
  match p with
  | .host h i => s.spdmRow (.host h i) false false fun s => s.whenOpen (.host h i) fun s => s.spdmOut (.host h i) rspKeyUpdate []
  | .mgmt i => s.spdmRow (.mgmt i) false false fun s => s.whenOpen (.mgmt i) fun s => s.spdmOut (.mgmt i) rspKeyUpdate []
  | .link l => s.spdmRow (.link l) false false fun s => s.whenOpen (.link l) fun s =>
    if s.asks (.link l) then s.spdmError (.link l) errUnexpected
    else ((s.modPeer (.link l) fun k => { k with updateAsked := false }).spdmOut (.link l) rspKeyUpdate []).linkUpdate l
  | .chip c => s.spdmRow (.chip c) false false fun s => s.spdmError (.chip c) errUnexpected

/-! ## Vendor-defined requests (R355) -/

/-- The payload codes of Table 14.3; that of ADMIT is 0x10. -/
def vdPqSignature : Nat := 0x01
@[inherit_doc vdPqSignature] def vdPqChain : Nat := 0x02

/-- GET_PQ_SIGNATURE: the held ML-DSA-65 signature of the last signed response. -/
def execGetPqSignature (p : Peer) (s : State) : Host.Outcome State Fault Refusal :=
  s.spdmRow p false false fun s => s.whenAgreed p fun s =>
    match (match s.peerSession p with | some k => k.heldPq | none => (s.conn p).heldPq) with
    | some (code, sig) => s.spdmAnswer p (s.requestBytes p 0xFE [vendorHeader, leBytes 1 vdPqSignature]) rspVendor [vendorHeader, leBytes 1 code ++ sig]
    | none => s.spdmError p errUnexpected

/-- GET_PQ_CHAIN: bytes of the ML-DSA-65 chain. -/
def execGetPqChain (p : Peer) (offset length : Nat) (s : State) : Host.Outcome State Fault Refusal :=
  s.spdmRow p false false fun s => s.whenAgreed p fun s =>
    let chain := s.servedChain true
    if 4096 < length || chain.length ≤ offset then s.spdmError p errInvalid else
      s.spdmAnswer p (s.requestBytes p 0xFE [vendorHeader, leBytes 1 vdPqChain, leBytes 4 offset, leBytes 2 length]) rspVendor [vendorHeader, (chain.drop offset).take length]

/-! ## Admission (R296, R297) -/

/-- The admission declaration inside the session (R297): a malformed one refuses the port; a well-formed one writes the
palette entry, and the grant answers it. -/
def State.admission (s : State) (c : Nat) (b : Bytes) : State :=
  let k := s.chip c
  let v := leNat b
  let mods := bits v 43 40
  let rx := bits v 63 48
  if k.state ≠ 2 || k.session.stage ≠ 5 then s.spdmError (.chip c) errUnexpected
  else if b.length ≠ 16 || mods = 0 || s.cfg.chipModules.getD c 0 < mods || k.modules < mods || rx < 256 then s.chipRefuse c 0x3003
  else
    let p : Palette := { pref := bits v 23 16, result := bits v 31 24, round := bits v 33 32, sat := bit v 34, accept := bits v 15 0 }
    let s1 := s.modChip c fun k => { k with state := 3, boundRunning := false, used := mods, credits := rx, palette := s.evalPalette c p }
    ((s1.emit (.spdm (.chip c) 0x7E (vendorHeader ++ s1.grantBytes c 0))).trace 8 1 c none 0 [2 + 3 * 2 ^ 8]).chipBind c

/-- ADMIT (payload code 0x10): it comes over the sideband, whose credit returns (R46), and is a request as any other to the responder: Busy
while an image is staged, UnexpectedRequest where its state does not permit it (R353, R364, R366). -/
def execAdmission (c : Nat) (declaration : Bytes) (s : State) : Host.Outcome State Fault Refusal :=
  s.spdmRow (.chip c) false false fun s => s.admission c declaration

/-! ## The requester (R296, R351, R352) -/

/-- Is the SHA-384 digest of a key among the digests of a list of entries; an all-zero entry matches nothing. -/
def State.listed (s : State) (index n : Nat) (digest : Bytes) : Bool :=
  (List.range n).any fun j => s.setting index (j + 1) ≠ 0 && s.setting index (j + 1) = leNat digest

/-- A check of a peer fails. -/
def State.peerRefused (s : State) (p : FramePort) (e : Nat) : State :=
  match p with
  | .chip c => s.chipRefuse c e
  | .link l => s.linkFail l 0x2010

/-- The peer of a frame port. -/
def framePeer : FramePort → Peer
  | .chip c => .chip c
  | .link l => .link l

/-- The session of a frame port, from its first message. -/
def State.frameSession (s : State) : FramePort → Session
  | .chip c => (s.chip c).session
  | .link l => (s.link l).session

/-- Move a requester's session to a stage and send the next request; KEY_EXCHANGE carries MUT_AUTH on a link (R351). -/
def State.advanceTo (s : State) (p : FramePort) (stage request : Nat) (parts : List Bytes) : State :=
  let body := Config.standardBody request parts
  (s.modPeer (framePeer p) fun k => { k with stage := stage, messages := k.messages ++ [body] }).say (.spdmRequest p request body)

/-- Does a peer's chain end at an anchor (R296, R352). -/
def State.anchored (s : State) (p : FramePort) (rootEc rootPq : Bytes) : Bool :=
  match p with
  | .chip _ => s.listed 0x3303 16 (sha384 rootEc)
  | .link _ => s.listed 0x4140 16 (sha384 rootEc) && s.listed 0x4140 16 (sha384 rootPq)

/-- Do a peer's measurements pass (R296, R352). -/
def State.measured (s : State) (p : FramePort) (record index2 : Bytes) (life : Nat) (sigEc sigPq : Bool) : Bool :=
  match p with
  | .chip _ => sigEc && s.listed 0x3304 64 (sha384 record)
  | .link _ => sigEc && sigPq && s.listed 0x4141 64 index2 && life = lifeCode s.life.state

/-- FINISH of the requester: it is signed under mutual authentication, on a link always and on a chiplet port where the chiplet asks for it
(R296, R350, R351, R354). -/
def State.sendFinish (s : State) (p : FramePort) (mutAuth : Bool) : State :=
  if !mutAuth then s.advanceTo p 4 0xE5 []
  else match s.signBoth (s.signedBytes (framePeer p) 0xE5 "requester-finish signing" [Config.standardBody 0xE5 []]) with
    | none => s
    | some (ec, pq, t) => ((t.modPeer (framePeer p) fun k => { k with heldPq := some (0xE5, pq) }).bump 0x4100 5).advanceTo p 4 0xE5 [ec]

/-- The end that asks holds the fresh session's generation as its FINISH leaves, since the answer may already stand under it (R260). -/
def State.freshNext (s : State) (p : FramePort) : State :=
  match p with
  | .link l => if (s.link l).rekeying && decide (3 ≤ (s.link l).state ∧ (s.link l).state ≤ 5) then s.linkNext l else s
  | .chip c => if (s.chip c).state = 4 then s.chipNext c else s

/-- Is a frame port a link: mutual authentication is always asked for there (Table 14.1). -/
def isLink : FramePort → Bool
  | .link _ => true
  | .chip _ => false

/-- The requester's session is established. -/
def State.requesterKeyed (s : State) (p : FramePort) : State :=
  match p with
  | .link l => s.linkEstablished l
  | .chip c =>
    let s1 := s.modChip c fun k => { k with session := { k.session with stage := 5 } }
    if (s.chip c).state = 4 then s1.chipUpdate c else s1

/-- What a response does to the requester's session, or to the responder's check of its peer in the encapsulated flow. An
ERROR leaves the session where it is, and its bound ends it (DEDUCED, log entry 62). -/
def State.spdmIn (s : State) (p : FramePort) (r : SpdmMsg) : State :=
  let k := s.frameSession p
  match r with
  | .versionCaps ok =>
    if !k.requester || k.stage ≠ 0 then s
    else if ok then s.advanceTo p 1 0x82 [] else s.peerRefused p 0x3003
  | .certificate ec pq leaf ok =>
    let good := ok && s.anchored p ec pq
    if !k.requester && k.stage = 4 then (if good then s.modPeer (framePeer p) fun k => { k with chainOk := true } else s.peerRefused p 0x3001)
    else if !k.requester || k.stage ≠ 1 then s
    else if good then (s.modPeer (framePeer p) fun k => { k with anchor := sha384 ec, messages := k.messages ++ [Config.standardBody rspCertificate [ec, pq, leaf]] }).advanceTo p 2 0xE0 [] else s.peerRefused p 0x3001
  | .measurements record index2 life sigEc sigPq =>
    let good := s.measured p record index2 life sigEc sigPq
    if !k.requester && k.stage = 4 then (if good then s.modPeer (framePeer p) fun k => { k with measOk := true } else s.peerRefused p 0x3002)
    else if !k.requester || k.stage ≠ 2 then s
    else if good then (s.modPeer (framePeer p) fun k => { k with measured := sha384 record, messages := k.messages ++ [Config.standardBody rspMeasurements [record]] }).advanceTo
        p 3 0xE4 [leBytes 1 (bn (isLink p))] else s.peerRefused p 0x3002
  | .keyExchangeRsp exchange ok mutAuth =>
    if !k.requester || k.stage ≠ 3 then s
    else if !ok then s.peerRefused p 0x3003
    else
      let w := s.newMaster exchange
      ((w.2.modPeer (framePeer p) fun k => { k with exportMaster := w.1, messages := k.messages ++ [Config.standardBody rspKeyExchange [exchange]] }).sendFinish
        p (isLink p || mutAuth)).freshNext p
  | .finishRsp ok =>
    if !k.requester || k.stage ≠ 4 then s else if ok then s.requesterKeyed p else s.peerRefused p 0x3003
  | .keyUpdateAck =>
    if !k.updateAsked then s
    else
      let s1 := s.modPeer (framePeer p) fun k => { k with updateAsked := false }
      match p with
      | .link l => s1.linkUpdate l
      | .chip c => s1.chipUpdate c
  | .encapKeyUpdate => match p with
    | .chip _ => s
    | .link l =>
      if k.stage ≠ 5 || !k.requester || k.updateAsked then s
      else if s.fw.fw = 1 then s.modLink l fun k => { k with updateDue := true }
      else (s.say (.spdmRequest p 0xEB [])).linkUpdate l
  | .error => s

/-- SPDM_RESPONSE. -/
def execSpdmResponse (p : FramePort) (r : SpdmMsg) (s : State) : Host.Outcome State Fault Refusal :=
  withUnit (s.hasPeer (framePeer p)) (doneS (s.whenAlive fun s =>
    if !s.bring.ready || !s.reachable (framePeer p) || s.fw.fw = 2 then s else s.heard (framePeer p) fun s => s.spdmIn p r))

end Sys2Proof.Machine
end

