-- ==== Sys2Proof/Machine/Commit.lean ====
section
/-! DEFINITION. Sys2Proof/Machine/Commit.lean: firmware staging and commit, and the Maker's certificate chains (R358, R363 to
R365). -/
namespace Sys2Proof.Machine

/-- Change the firmware record. -/
def State.modFw (s : State) (f : Firmware → Firmware) : State := { s with fw := f s.fw }

/-- A write of 0x4130.01: a multiple of 4,096 in the image area, only in state 0. -/
def State.offsetWrite (v : Nat) (s : State) : Except Nat State :=
  if s.fw.fw ≠ 0 then .error 0x0801 else if v % 4096 ≠ 0 || 262144 ≤ v then .error 0x0609 else .ok (s.modFw fun f => { f with offset := v })

/-- Bytes with a block written at an offset. -/
def writeBlock (b : Bytes) (off : Nat) (block : Bytes) : Bytes := padTo off b ++ block ++ b.drop (off + block.length)

/-- A write of 0x4130.02: an image block at the offset, only in state 0. -/
def State.blockWrite (b : Bytes) (s : State) : Except Nat State :=
  if s.fw.fw ≠ 0 then .error 0x0801 else .ok (s.modFw fun f => { f with staged := writeBlock f.staged f.offset (padTo 4096 b) })

/-- IMAGE_BLOCK. -/
def execImageBlock (m : Mgmt) (data : Bytes) (s : State) : Host.Outcome State Fault Refusal :=
  doneS (s.dictWrite m 0x4130 2 data (State.blockWrite data))

/-- Stage (Table 14.9): both Maker signatures and the SVN; 0x4130.04 gives the reason of a failure. -/
def State.stage (s : State) : State :=
  let c := s.imageCheck s.fw.staged
  let r := if c = 0 && decide (imageSvn s.fw.staged < s.fw.svn) then 3 else c
  if r = 0 then s.modFw fun f => { f with fw := 1, stagedSvn := imageSvn f.staged, reason := 0 } else s.modFw fun f => { f with reason := r }

/-- How many SPDM sessions are established. -/
def State.openSessions (s : State) : Nat :=
  (s.slots.filter fun kv => kv.2.session.stage = 5).length + (s.agent.sessions.filter fun kv => kv.2.spdm.stage = 5).length +
    (s.chips.filter fun kv => kv.2.session.stage = 5).length + (s.links.filter fun kv => kv.2.session.stage = 5).length

/-- A chiplet port at a commit (Table 12.11): an admitted one withholds credits and is attested afresh; an admission under way
starts again. -/
def State.chipCommit (s : State) (c : Nat) : State :=
  let k := s.chip c
  if k.state = 4 then s.modChip c fun k => { k with withhold := true, updateDue := false, session := { requester := true, anchor := k.session.anchor, measured := k.session.measured, updateAsked := k.session.updateAsked } }
  else if k.state = 2 || k.state = 3 then s.chipIsolate c else s

/-- Commit (R365, steps 1 to 3): every session ends, links and chiplet ports hold their data traffic, and the controller
restarts. -/
def State.commit (s : State) : State :=
  let n := s.openSessions
  let s1 := (s.slots.map (·.1)).foldl (fun s i => s.endHostSession i) s
  let s2 := ((s1.agent.sessions.filter fun kv => kv.2.spdm.stage ≠ 0).map (·.1)).foldl (fun s i => s.endMgmt i) s1
  let s3 := (List.range s2.cfg.chipPorts).foldl (fun s c => s.chipCommit c) s2
  let s4 := (List.range s3.cfg.links).foldl (fun s l =>
    let k := s.link l
    if 2 ≤ k.state && k.state ≤ 5 then (s.dropLinkSession l).modLink l fun k => { k with updateDue := false, withhold := k.state ≠ 2 } else s) s3
  (((s4.joinStop 3).bumpBy 0x4100 7 n)).modFw fun f => { f with fw := 2, conns := [] }

/-- Discard: the staged image is zeroed, and key updates that waited run at once (R364). -/
def State.discard (s : State) : State :=
  let s1 := s.modFw fun f => { f with fw := 0, staged := [], stagedSvn := 0 }
  let s2 := (List.range s1.cfg.links).foldl (fun s l => if (s.link l).updateDue then s.linkUpdateStart l else s) s1
  (List.range s2.cfg.chipPorts).foldl (fun s c => if (s.chip c).updateDue then s.chipUpdateStart c else s) s2

/-- A write of 0x4130.03 (Table 14.9). -/
def State.firmwareWrite (v : Nat) (s : State) : Except Nat State :=
  let t := s.modFw fun f => { f with command := v }
  if v = 1 then (if s.fw.fw = 0 then .ok t.stage else .error 0x0801)
  else if v = 2 then (if s.fw.fw = 1 then .ok t.commit else .error 0x0801)
  else if v = 3 then (if s.fw.fw = 1 then .ok t.discard else .error 0x0801)
  else .error 0x0609

/-- A firmware command as a dictionary write. -/
def State.firmwareRow (s : State) (m : Mgmt) (v : Nat) : Host.Outcome State Fault Refusal :=
  doneS (s.dictWrite m 0x4130 3 (leBytes 1 v) (State.firmwareWrite v))

/-- STAGE. -/
def execStage (m : Mgmt) (s : State) : Host.Outcome State Fault Refusal := s.firmwareRow m 1

/-- COMMIT. -/
def execCommit (m : Mgmt) (s : State) : Host.Outcome State Fault Refusal := s.firmwareRow m 2

/-- DISCARD. -/
def execDiscard (m : Mgmt) (s : State) : Host.Outcome State Fault Refusal := s.firmwareRow m 3

/-- COMMIT_DONE (R365, steps 4 and 5): the new image is measured, new alias keys are derived, and the firmware runs. -/
def execCommitDone (s : State) : Host.Outcome State Fault Refusal :=
  doneS (s.whenAlive fun s => if s.fw.fw ≠ 2 then s
    else (s.modFw fun f => { f with fw := 0, image := f.staged, version := imageVersion f.staged, svn := imageSvn f.staged, staged := [], stagedSvn := 0 }).dice)

/-- A write of a Maker chain (R358): its last certificate carries this device's DeviceID key in that algorithm. -/
def State.chainWrite (pq : Bool) (chain : Bytes) (s : State) : Except Nat State :=
  let key := if pq then s.fw.devPq else s.fw.devEc
  if key = [] || Config.lastCertKey pq chain ≠ some key then .error 0x0609
  else .ok (s.modFw fun f => if pq then { f with chainPq := chain } else { f with chainEc := chain })

/-- CERTIFICATE_CHAIN_WRITE. A chain of more than 4,096 bytes travels in segments; the command stands for them all. -/
def execCertificateChainWrite (m : Mgmt) (pq : Bool) (chain : Bytes) (s : State) : Host.Outcome State Fault Refusal :=
  doneS (s.dictWrite m 0x4120 (1 + bn pq) chain (State.chainWrite pq chain))

end Sys2Proof.Machine
end

