-- ==== Sys2Proof/Machine/FaultRows.lean ====
section
/-! DEFINITION. Sys2Proof/Machine/FaultRows.lean: the commands of faults, the vigil and recovery (R478, R484, R492). -/
namespace Sys2Proof.Machine

/-- Injection point 0x04 (Table 21.4): the queues of a context as a cycle without progress. -/
def State.injectHang (s : State) : Option State :=
  let n := s.alarms.ctx
  let c := s.ctx n
  if c.state ≠ 1 then none
  else match s.takeInjection 4 s.alarms.unit with
    | none => none
    | some t =>
      let mine := t.waiters.filter fun w => w.ctx = n
      let ws := if mine.isEmpty then [⟨c.qbase, n, c.part, 0, 0⟩] else mine
      some (t.declareHang ws (ws.map (·.q)) [])

/-- VIGIL_SCAN (R484). -/
def execVigilScan (s : State) : Host.Outcome State Fault Refusal :=
  s.work fun s => if !s.bring.ready then s else match s.injectHang with | some t => t | none => s.vigilScan

/-- BLOCK_FAULT (R478): a fault of block scope (Table 20.2). -/
def execBlockFault (err : Nat) (s : State) : Host.Outcome State Fault Refusal := doneS (s.whenAlive fun s => s.blockFault err)

/-- SNAPSHOT_TIMEOUT: the block fault's snapshot is abandoned. -/
def execSnapshotTimeout (s : State) : Host.Outcome State Fault Refusal :=
  doneS (s.whenAlive fun s =>
    if s.faults.phase = 1 && s.faults.snapLeft ≠ 0 then ((s.modFaults fun f => { f with snapLeft := 0, snaps := [] }).error 8 0 none 0xA005 0).faultGo else s)

/-- ABORT_WAIT_EXPIRY: 20 µs have passed since the aborts. -/
def execAbortWaitExpiry (s : State) : Host.Outcome State Fault Refusal := doneS (s.whenAlive fun s => if s.faults.phase = 2 then s.beginHold else s)

/-- HOLD_EXPIRY: blk_rst_req is raised. -/
def execHoldExpiry (s : State) : Host.Outcome State Fault Refusal :=
  doneS (s.whenAlive fun s =>
    if s.faults.phase = 3 then ({ s with bring := { s.bring with rstReq := true } } : State).modFaults fun f => { f with phase := 4 } else s)

/-- A write of 0x6040.01 (R492, R496). -/
def State.abortWrite (p : Nat) (s : State) : Except Nat State :=
  if s.cfg.partitions ≤ p then .error 0x0609 else if !(s.partn p).live then .error 0x0801 else .ok (s.jobAbort p 0xA006)

/-- JOB_ABORT. -/
def execJobAbort (m : Mgmt) (p : Nat) (s : State) : Host.Outcome State Fault Refusal :=
  doneS (s.dictWrite m 0x6040 1 (leBytes 1 p) (State.abortWrite (p % 256)))

/-- A write of 0x6040.02. -/
def State.faultWrite (v : Nat) (s : State) : Except Nat State := if v ≠ 1 then .error 0x0609 else .ok (s.blockFault 0xA008)

/-- BLOCK_FAULT_COMMAND. -/
def execBlockFaultCommand (m : Mgmt) (value : Nat) (s : State) : Host.Outcome State Fault Refusal :=
  doneS (s.dictWrite m 0x6040 2 (leBytes 1 value) (State.faultWrite (value % 256)))

end Sys2Proof.Machine
end

