-- ==== Sys2Proof/Machine/AlarmRows.lean ====
section
/-! DEFINITION. Sys2Proof/Machine/AlarmRows.lean: alarm events, their windows and responses, and injection (R497 to R506). -/
namespace Sys2Proof.Machine

/-- Change the alarm record. -/
def State.modAlarms (s : State) (f : Alarms → Alarms) : State := { s with alarms := f s.alarms }

/-- Does a source have partition attribution (Table 21.1). -/
def byPartition (sub : Nat) : Bool := sub = 6 || sub = 8 || sub = 9

/-- The responses a source permits (Table 21.1). -/
def permits (sub r : Nat) : Bool := if sub = 4 then r = 3 else if sub = 5 || sub = 7 || sub = 10 then r = 0 || r = 3 else decide (r ≤ 3)

/-- The source and the error code of a sensor (Table 21.1). -/
def alarmSource : Sensor → Nat × Nat
  | .voltLo => (1, 0x9010)
  | .voltHi => (1, 0x9010)
  | .clkGlitch => (2, 0x9011)
  | .tempHi => (3, 0x9012)
  | .tempLo => (3, 0x9012)
  | .mesh => (4, 0x9013)

/-- The source and the error code of a sensor by the number under which its held level is kept. -/
def heldSource (n : Nat) : Nat × Nat := match n with | 0 => (1, 0x9010) | 1 => (1, 0x9010) | 2 => (2, 0x9011) | 5 => (4, 0x9013) | _ => (3, 0x9012)

/-- The number under which a sensor's held level is kept. -/
def sensorNum : Sensor → Nat
  | .voltLo => 0
  | .voltHi => 1
  | .clkGlitch => 2
  | .tempHi => 3
  | .tempLo => 4
  | .mesh => 5

/-- The action of a response on the partitions its attribution names (R501). -/
def State.alarmAct (s : State) (r : Nat) (ps : List Nat) : State :=
  if r = 1 then ps.foldl (fun s p => s.fencePart p) s
  else if r = 2 then ps.foldl (fun s p => s.eraseSubtree p) s
  else if r = 3 then s.eraseAll else s

/-- A response (R500, R501): its notice, audit record and count, and its action. -/
def State.respond (s : State) (a : AlarmPend) (r count : Nat) : State :=
  let ps := if byPartition a.sub then a.part.toList else s.liveParts
  let b := if byPartition a.sub then a.unit else 0
  let n := s.note 12 0 a.err (if byPartition a.sub then a.part else none) 0 (a.sub + r * 2 ^ 8 + count * 2 ^ 16) b
  ((n.auditHub 8 0 0 a.err r).bump 0x6105 1).alarmAct r ps

/-- An alarm event is counted, and the response fires when the count reaches THRESHOLD (R499). An event of a partition source
without a partition takes response 0 (R497). -/
def State.alarmFire (s : State) (a : AlarmPend) : State :=
  let v := s.setting 0x6100 a.sub
  let key := a.sub + 16 * (if byPartition a.sub then (match a.part with | some p => p + 1 | none => 0) else 0)
  let count := tblGet s.alarms.counts key 0 + 1
  let r := if byPartition a.sub && a.part.isNone then 0 else v % 4
  let s1 := (s.bump 0x6104 a.sub).bump 0x6206 3
  if v / 2 ^ 16 ≤ count then (s1.modAlarms fun x => { x with counts := tblDel x.counts key }).respond a r count
  else s1.modAlarms fun x => { x with counts := tblPut x.counts key count }

/-- An injected event of points 0x20 to 0x24. -/
def State.injectAlarm (s : State) : State :=
  let p := s.alarms.point
  if 0x20 ≤ p && p ≤ 0x24 then match s.takeInjection p s.alarms.unit with
    | some t => t.alarmFire ⟨p - 0x1F, none, 0, 0x9010 + (p - 0x20)⟩
    | none => s
  else s

/-- A sensor reaches its level: it is noted until it leaves it, and while the block runs it fires once. -/
def State.sensorOn (s : State) (x : Sensor) : State :=
  if (x = .mesh && !s.cfg.meshSensor) || s.alarms.active.contains (sensorNum x) then s
  else
    let s1 := s.modAlarms fun k => { k with active := sensorNum x :: k.active }
    if s.alive then s1.alarmFire ⟨(alarmSource x).1, none, 0, (alarmSource x).2⟩ else s1

/-- Release from reset: a level held through it has by then been held for 2 K-cycles of a running K-clk, and is recognised (R52,
DEDUCED, log entry 14). -/
def State.heldAlarms (s : State) : State := s.alarms.active.reverse.foldl (fun s n => s.alarmFire ⟨(heldSource n).1, none, 0, (heldSource n).2⟩) s

/-- The oldest internal event waiting is counted, or an injected one. -/
def State.alarmInternal (s : State) : State :=
  match s.alarms.pending with
  | e :: rest => (s.modAlarms fun k => { k with pending := rest }).alarmFire e
  | [] => s.injectAlarm

/-- ALARM_EVENT: a sensor at its level, once until it has left it, or the oldest internal event. -/
def execAlarmEvent (a : AlarmInput) (s : State) : Host.Outcome State Fault Refusal :=
  doneS (match a with
    | .sensorActive x => s.sensorOn x
    | .sensorClear x => s.modAlarms fun k => { k with active := k.active.filter (· ≠ sensorNum x) }
    | .internal => s.whenAlive State.alarmInternal)

/-- ALARM_WINDOW: the counts restart. -/
def execAlarmWindow (s : State) : Host.Outcome State Fault Refusal := doneS (s.whenAlive fun s => s.modAlarms fun k => { k with counts := [] })

/-- A write of an alarm record (R498). -/
def State.alarmWrite (sub v : Nat) (s : State) : Except Nat State :=
  let fixed := bn (sub = 4) * 4
  if v / 2 ^ 16 = 0 || !permits sub (v % 4) then .error 0x0609
  else .ok (s.setSetting 0x6100 sub (v / 2 ^ 16 * 2 ^ 16 + fixed + v % 4))

/-! ## Injection (R504 to R506) -/

/-- The units an injection point has (Table 21.4): the codewords that point 0x01 counts are read by every numbered engine. -/
def State.injectionUnit (s : State) (point unit : Nat) : Bool :=
  if point = 2 || point = 0x12 then decide (unit < s.cfg.links)
  else if point = 3 || point = 5 || point = 0x10 || point = 0x11 || point = 0x15 then decide (unit < s.cfg.memPorts)
  else if point = 6 || point = 0x13 then decide (unit < s.cfg.chipPorts)
  else if point = 0x14 then decide (unit < s.cfg.hostPorts)
  else point ≠ 0x16 || unit = 0

/-- The points of Table 21.4. -/
def injectionPoint (p : Nat) : Bool := decide (p ≤ 6) || decide (0x10 ≤ p ∧ p ≤ 0x16) || decide (0x20 ≤ p ∧ p ≤ 0x24)

/-- Arm or disarm an injection point (R505, R506); `role` none for the debug port, which carries no role. -/
def State.arm (b : Bytes) (role : Option Role) (s : State) : Except Nat State :=
  let v := leNat b
  let point := bits v 7 0
  let unit := bits v 15 8
  let count := bits v 47 32
  let n := bits v 77 64
  let ordinary := decide (1 ≤ point ∧ point ≤ 4)
  let roleOk := match role with
    | none => true
    | some r => r = .installer || (r = .maker && s.life.state ≠ .production)
  let stateOk := s.life.state = .test || (s.life.state = .production && s.life.debug = 4 && (ordinary || point = 0))
  if !roleOk then .error 0x0601
  else if !stateOk then .error 0x0801
  else if !injectionPoint point || (point ≠ 0 && count = 0) || !s.injectionUnit point unit || (point = 4 && s.cfg.contexts ≤ n) then .error 0x0609
  else .ok (s.modAlarms fun k => { k with point := point, unit := unit, count := if point = 0 then 0 else count, ctx := n })

/-- The injection record as it reads. -/
def State.injectionBytes (s : State) : Bytes :=
  let a := s.alarms
  leBytes 16 (a.point + a.unit * 2 ^ 8 + a.count * 2 ^ 32 + a.ctx * 2 ^ 64)

/-- INJECTION_ARM. -/
def execInjectionArm (m : Mgmt) (record : Bytes) (s : State) : Host.Outcome State Fault Refusal :=
  doneS (s.dictWriteAs m 0x6110 1 record fun role => State.arm record (some role))

end Sys2Proof.Machine
end

