-- ==== Sys2Proof/Machine/Join.lean ====
section
/-! DEFINITION. Sys2Proof/Machine/Join.lean: the bring-up gate, founding a domain and joining one (R533 to R537). -/
namespace Sys2Proof.Machine

/-- Change the start-up and membership record. -/
def State.modBring (s : State) (f : Bring → Bring) : State := { s with bring := f s.bring }

/-! ## The gate (R533) -/

/-- A write of 0x7001.01. -/
def State.gateWrite (v : Nat) (s : State) : Except Nat State :=
  if !(s.life.state = .test || s.life.state = .production) then .error 0x0801
  else if v ≠ 1 then .error 0x0609
  else if s.bring.gate then .ok s
  else .ok ((List.range s.cfg.links).foldl (fun s l => s.linkRise l) (s.modBring fun b => { b with gate := true, gateAt := s.loc }))

/-- GATE_OPEN. -/
def execGateOpen (m : Mgmt) (value : Nat) (s : State) : Host.Outcome State Fault Refusal :=
  doneS (s.dictWrite m 0x7001 1 (leBytes 1 value) (State.gateWrite (value % 256)))

/-! ## Membership (R534 to R536) -/

/-- Membership takes effect (R535, step 6): the member ID and the domain, and HELLO on every keyed link. -/
def State.enterDomain (s : State) (domain : Nat) : State :=
  (s.modBring fun b => { b with member := true, memberId := s.setting 0x7002 1, domain := domain, memberAt := s.loc }).helloAll

/-- The checks of R534, step 1; a join that runs refuses a second command (R537). -/
def State.mayEnter (s : State) : Bool := s.bring.gate && !s.bring.member && decide (s.life.debug ≠ 4) && decide (s.bring.join ≠ 1)

/-- A write of 1 to 0x7002.02 (R534). -/
def State.foundWrite (s : State) : Except Nat State :=
  if !s.mayEnter then .error 0x0801
  else match s.drawMaster 32 with
    | none => .error 0x0802
    | some (key, t) => match t.drawMaster 8 with
      | none => .error 0x0802
      | some (domain, u) => match u.createSeedKey domainSlot 0 0x41 (leNat domain) (u.slot domainSlot).gen key with
        | .error _ => .error 0x0801
        | .ok w => .ok (w.enterDomain (leNat domain))

/-- The link of a join. -/
def State.joinPort (s : State) : Nat := s.setting 0x7002 3

/-- A write of 2 to 0x7002.02 (R535, steps 1 to 3): as the session's responder this hub ends it, and the link fails and
retrains. -/
def State.joinWrite (s : State) : Except Nat State :=
  let l := s.joinPort
  let k := s.link l
  let peer := match k.peer with | some p => p.isMember | none => false
  if !s.mayEnter || k.state ≠ 3 || !peer then .error 0x0801
  else
    let s1 := if k.session.requester then s else s.linkFail l 0x8001
    .ok ((s1.modBring fun b => { b with join := 1, joinReason := 0, joinLink := l }).joinGo l)

/-- A write of 0x7002.02. -/
def State.domainWrite (v : Nat) (s : State) : Except Nat State := if v = 1 then s.foundWrite else if v = 2 then s.joinWrite else .error 0x0609

/-- FOUND. -/
def execFound (m : Mgmt) (s : State) : Host.Outcome State Fault Refusal := doneS (s.dictWrite m 0x7002 2 (leBytes 1 1) (State.domainWrite 1))

/-- JOIN_COMMAND. -/
def execJoinCommand (m : Mgmt) (s : State) : Host.Outcome State Fault Refusal := doneS (s.dictWrite m 0x7002 2 (leBytes 1 2) (State.domainWrite 2))

/-- The permit that names a member ID and a link (R535, step 4). -/
def State.permitFor (s : State) (l member : Nat) : Option Nat :=
  ((List.range 16).map (· + 1)).find? fun j => let v := s.setting 0x7003 j; bit v 31 && bits v 15 0 = member && bits v 20 16 = l

/-- The reason a member refuses a JOIN with, 0 none (R535, step 4; Table 24.3). -/
def State.joinReason (s : State) (l member : Nat) : Nat :=
  let peers := (s.links.filter fun kv => kv.2.state = 4).filterMap fun kv => kv.2.peer.map (·.member)
  let already := match (s.link l).peer with | some p => p.isMember | none => false
  if already then 5 else if (s.permitFor l member).isNone then 1 else if member = s.bring.memberId || peers.contains member then 4 else 0

/-- The answer of a member to JOIN: the grant, which clears the permit, or a reason; audited. -/
def State.joinAnswer (s : State) (l member : Nat) : State :=
  let r := s.joinReason l member
  let out := fun (s : State) (b : Bytes) => s.say (.spdm (.link l) rspVendor b)
  let j := (s.permitFor l member).getD 0
  if r ≠ 0 then out (s.auditHub 2 0x7003 j 0 r) [BitVec.ofNat 8 r]
  else
    let d := s.slot domainSlot
    out ((s.setSetting 0x7003 j 0).auditHub 1 0x7003 j 0 member) (0#8 :: (leBytes 8 s.bring.domain ++ leBytes 4 d.gen ++ s.slotKey domainSlot))

/-- JOIN. -/
def execJoin (l member : Nat) (s : State) : Host.Outcome State Fault Refusal :=
  s.spdmRow (.link l) false false fun s =>
    if !s.bring.member || s.asks (.link l) || (s.link l).session.stage ≠ 5 then s.spdmError (.link l) errUnexpected
    else s.joinAnswer l (member % 2 ^ 16)

/-- The joining hub takes a grant (R536). -/
def State.joinInstall (s : State) (gen : Nat) (domain key : Bytes) : State :=
  if gen < (s.slot domainSlot).gen then s.joinStop 2
  else match s.createSeedKey domainSlot 0 0x41 (leNat domain) gen key with
    | .error _ => s.joinStop 3
    | .ok t => ((t.modBring fun b => { b with join := 2, joinReason := 0 }).auditHub 1 0x7002 4 0 2).enterDomain (leNat domain)

/-- JOIN_GRANT: the answer to this hub's JOIN. -/
def execJoinGrant (l status gen : Nat) (domain key : Bytes) (s : State) : Host.Outcome State Fault Refusal :=
  s.linkRow l fun s =>
    let k := s.link l
    if s.bring.join = 1 && s.bring.joinLink = l && k.state = 3 && k.session.requester && k.session.stage = 5 then
      (if status ≠ 0 then s.joinStop (status % 256) else s.joinInstall (gen % 2 ^ 32) (padTo 8 domain) (padTo 32 key))
    else s

/-- JOIN_BOUND_EXPIRY. -/
def execJoinBoundExpiry (s : State) : Host.Outcome State Fault Refusal := doneS (s.whenAlive fun s => s.joinStop 6)

end Sys2Proof.Machine
end

