-- ==== Sys2Proof/Machine/Boot.lean ====
section
/-! DEFINITION. Sys2Proof/Machine/Boot.lean: power-on reset, block reset and the ROM loader (R65, R68, R366, R437, R493, R529 to
R532). -/
namespace Sys2Proof.Machine

/-! ## What a reset loses -/

/-- The state with everything lost but the configuration, the fuses, the waiting commands, the outputs so far and the levels of
the inputs: controllers up, modules active, PCS up, ports held in reset, sensors at their alarm level. -/
def State.dark (s : State) : State :=
  { State.reset with
      cfg := s.cfg, pending := s.pending, out := s.out, freeCount := s.freeCount, fuses := s.fuses, alarms := { active := s.alarms.active },
      mem := s.mem.map fun kv => (kv.1, { ctrlUp := kv.2.ctrlUp, state := bn kv.2.ctrlUp }),
      links := s.links.map fun kv => (kv.1, { pcsUp := kv.2.pcsUp, inReset := kv.2.inReset }),
      chips := s.chips.map fun kv => (kv.1, { modules := kv.2.modules, inReset := kv.2.inReset, state := bn (decide (kv.2.modules ≠ 0) && !kv.2.inReset) }),
      hosts := s.hosts.map fun kv => (kv.1, { inReset := kv.2.inReset }) }

/-! ## Phases 2 and 3 (R437, R438, R337, R532) -/

/-- The two values that the master draws for the key store (R337): the 256-bit mask and the 64-bit scramble key. -/
def State.drawMask (s : State) : Option (Bytes × Bytes × State) :=
  match s.drawMaster 32 with
  | none => none
  | some (b, t) => match t.drawMaster 8 with
    | none => none
    | some (c, u) => some (b, c, u)

/-- Phase 3: the master instance, the mask and the scramble key, the root key in Test and Production, the start of the audit
log, and the repairs that it records. Without entropy the ROM halts with 0x9014. -/
def State.startKeys (s : State) (entropy : Option Bytes) : State :=
  match entropy with
  | none => { s with random := { s.random with stopped := true }, faults := { s.faults with errCode := 0x9014 }, bring := { s.bring with halted := true } }
  | some e =>
    let s1 : State := { s with random := { s.random with inst := tblPut s.random.inst 0 (drbgSeed {} (padTo 48 e)), reseedAt := s.loc } }
    match s1.drawMask with
    | none => s1
    | some (b, c, t) =>
      let t1 := t.modKeys fun k => { k with mask := b, scramble := leNat c }
      let root := kdf (t1.fuseBytes 0 12) "SH9v2 root" (leBytes 1 (lifeCode t1.life.state) ++ leBytes 8 t1.serial) 256
      let t2 := if t1.life.state = .test || t1.life.state = .production then t1.putSlot rootSlot { state := 1, cell := t1.masked root } else t1
      match t2.drawMaster 8 with
      | none => t2
      | some (r, u) => (u.auditHub 0 0 0 0 (leNat r)).repairCopies

/-- Phases 2 and 3: the vote, and the completion of an interrupted transition, which requests a block reset before phase 3. -/
def State.wake (s : State) (entropy : Option Bytes) : State :=
  let s1 := s.vote
  match s1.interrupted with
  | some l => ((s1.programLife l).auditHub 6 0 0 0 (lifeCode l)).requestReset 0x9000
  | none => s1.startKeys entropy

/-- Did the phases before the image end without a halt or a request of a block reset. -/
def State.awake (s : State) : Bool := !s.bring.rstReq && !s.bring.halted

/-! ## Phases 5 to 8 (R529, R531) -/

/-- Phases 6 to 8: the image is measured, the identities derived, and blk_ready rises; `source` as 0x7000.05 reports it. The
first notice after a block reset is of kind 0x03 (R475). -/
def State.finishBoot (s : State) (source : Nat) : State :=
  let s1 : State := { s with fw := { s.fw with version := imageVersion s.fw.image, svn := imageSvn s.fw.image, source := source } }
  let s2 := s1.dice.modBring fun b => { b with phase := 8, ready := true, readyAt := s.loc }
  if s2.bring.again then s2.note 3 0 s2.faults.kept none 0 s2.faults.kept s2.bring.readyAt else s2

/-- The status that phase 5 answers for the image held: in Blank no signature is checked. -/
def State.bootCheck (s : State) : Nat :=
  if s.life.state = .blank then 0 else match s.imageCheck s.fw.image with | 0 => 0 | 1 => 2 | 2 => 3 | _ => 4

/-- Phase 5 ends: the boot goes on, or the image is zeroed and received anew. -/
def State.bootImage (s : State) : State :=
  if s.bootCheck = 0 then s.finishBoot 1 else ({ s with fw := { s.fw with image := [] } } : State).modBring fun b => { b with phase := 4 }

/-! ## The resets -/

/-- lp_state_req of the ports out of reset asks for Active (R46; the value is UCIe's, PRESUMED, log entry 105). -/
def State.requestActive (s : State) : State :=
  (List.range s.cfg.chipPorts).foldl (fun s c => if (s.chip c).inReset then s else s.modChip c fun k => { k with stateReq := 1 }) s

/-- The block is out of reset, where the phases before the image brought it there. -/
def State.released (s : State) : State := if s.awake then s.requestActive.heldAlarms else s

/-- POWER_ON_RESET: release of rst_por_n, with the entropy seed of phase 3 and, where phase 4 receives it at once, the image. -/
def execPowerOnReset (entropy image : Option Bytes) (s : State) : Host.Outcome State Fault Refusal :=
  doneS (if !s.bring.por then s
    else
      let s1 := ((s.dark.modBring fun b => { b with por := false, phase := 4 }).wake entropy).released
      if !s1.awake then s1
      else match image with
        | some im => ({ s1 with fw := { s1.fw with image := im.take 262144 } } : State).bootImage
        | none => s1)

/-- POWER_ON_RESET_ASSERT: any other reset is abandoned, and everything is lost (R68). -/
def execPowerOnResetAssert (s : State) : Host.Outcome State Fault Refusal := doneS s.dark

/-- What a block reset keeps beside the inputs: the local count, blk_err_code and the counts that only power-on clears, and the
image area where it holds a verified image (R53, R65, R493, R537). -/
def State.blockDark (s : State) : State :=
  let d := s.dark
  let kept := decide (s.fw.source ≠ 0)
  { d with
      loc := s.loc,
      faults := { errCode := s.faults.errCode, kept := s.faults.errCode, blockFaults := s.faults.blockFaults },
      life := { counted := s.life.counted },
      power := { residency := s.power.residency, exits := s.power.exits },
      fw := if kept then { image := s.fw.image, source := 2 } else {},
      bring := { por := false, phase := if kept then 8 else 4, again := true } }

/-- BLOCK_RESET: the reset that blk_rst_req asked for; in S1 to S3 the block first exits to S0 (R68). -/
def execBlockReset (entropy : Option Bytes) (s : State) : Host.Outcome State Fault Refusal :=
  doneS (if !s.bring.rstReq || s.bring.por then s
    else if s.power.state ≠ 0 then s.beginExit
    else
      let s1 := (s.blockDark.wake entropy).released
      if !s1.awake || s1.fw.source = 0 then s1 else s1.finishBoot 2)

/-! ## The loader (R530) -/

/-- A loader message in phase 4. -/
def State.loader (s : State) (f : State → State) : State :=
  if s.bring.por || !s.awake || s.bring.phase ≠ 4 || s.bring.ready then s else f s

/-- BLOCK: the image in ascending offset without gaps, up to 256 KB; status 1 refuses any other. -/
def execBlock (tag offset : Nat) (data : Bytes) (s : State) : Host.Outcome State Fault Refusal :=
  doneS (s.loader fun s =>
    if offset = s.fw.image.length && offset % 4096 = 0 && decide (offset < 262144 ∧ data.length ≤ 4096 ∧ offset + data.length ≤ 262144) then
      ({ s with fw := { s.fw with image := s.fw.image ++ data } } : State).emit (.loader 0x81 tag 0)
    else s.emit (.loader 0x81 tag 1))

/-- GO: phase 4 ends; the response follows phase 5. -/
def execGo (tag : Nat) (s : State) : Host.Outcome State Fault Refusal :=
  doneS (s.loader fun s => s.modBring fun b => { b with phase := 5, goTag := tag })

/-- STATUS. -/
def execStatus (tag : Nat) (s : State) : Host.Outcome State Fault Refusal := doneS (s.loader fun s => s.emit (.loader 0x83 tag 0))

/-- IMAGE_VERIFIED: phase 5 ends, and GO is answered. -/
def execImageVerified (s : State) : Host.Outcome State Fault Refusal :=
  doneS (if s.bring.phase = 5 && s.awake && !s.bring.por then s.bootImage.emit (.loader 0x82 s.bring.goTag s.bootCheck) else s)

end Sys2Proof.Machine
end

