-- ==== Sys2Proof/Machine/ChipRows.lean ====
section
/-! DEFINITION. Sys2Proof/Machine/ChipRows.lean: the commands of chiplet ports: modules, admission, binding, frames and
standby (R103, R295 to R303). -/
namespace Sys2Proof.Machine

/-! ## Modules and admission -/

/-- CHIPLET_ACTIVE (R295): every module the port uses reports Active. -/
def execChipletActive (c modules : Nat) (s : State) : Host.Outcome State Fault Refusal :=
  s.levelRow (decide (c < s.cfg.chipPorts)) (fun s => s.modChip c fun k => { k with modules := min modules (s.cfg.chipModules.getD c 0) }) fun s =>
    let s1 := s.modChip c fun k => { k with modules := min modules (s.cfg.chipModules.getD c 0) }
    if (s.chip c).state = 0 && !(s.chip c).inReset && modules ≠ 0 then (s1.modChip c fun k => { k with state := 1 }).trace 8 1 c none 0 [2 ^ 8] else s1

/-- A module leaves Active (R295, R307): an admitted port fails, and is down once every module has left; any other is down. -/
def State.moduleLeaves (s : State) (c : Nat) : State :=
  let s1 := s.modChip c fun k => { k with modules := k.modules - 1 }
  let st := (s.chip c).state
  if st = 0 then s1
  else if st = 4 || st = 6 then
    let s2 := if st = 4 then s1.chipFail c 0x300D else s1
    if (s2.chip c).modules = 0 then s2.chipDrop c 0 false else s2
  else s1.chipDrop c 0 false

/-- MODULE_LEAVES_ACTIVE. -/
def execModuleLeavesActive (c : Nat) (s : State) : Host.Outcome State Fault Refusal :=
  s.levelRow (decide (c < s.cfg.chipPorts)) (fun s => s.modChip c fun k => { k with modules := k.modules - 1 }) fun s => s.moduleLeaves c

/-- CHIPLET_ADMISSION_START (R296): the gate is open (R533), no image is staged (R364) and the controller is not
restarting (R365); a port that keeps its keys
through a firmware commit is attested afresh (R318). -/
def execChipletAdmissionStart (c : Nat) (s : State) : Host.Outcome State Fault Refusal :=
  s.chipRow c fun s =>
    let k := s.chip c
    if !s.bring.gate || s.fw.fw ≠ 0 then s
    else if k.state = 1 then
      ((s.modChip c fun k => { k with state := 2, boundRunning := true, session := { requester := true } }).emit (.spdmRequest (.chip c) 0x84 offeredVersions)).trace
        8 1 c none 0 [1 + 2 * 2 ^ 8]
    else if k.state = 4 && k.withhold && k.session.stage = 0 then
      (s.modChip c fun k => { k with boundRunning := true, session := { requester := true } }).emit (.spdmRequest (.chip c) 0x84 offeredVersions)
    else s

/-- ADMISSION_BOUND_EXPIRY (R296). -/
def execAdmissionBoundExpiry (c : Nat) (s : State) : Host.Outcome State Fault Refusal :=
  s.chipRow c fun s => if (s.chip c).boundRunning then s.chipRefuse c 0x3003 else s

/-- REFUSAL_HOLDOFF_EXPIRY (R295). -/
def execRefusalHoldoffExpiry (c : Nat) (s : State) : Host.Outcome State Fault Refusal :=
  s.chipRow c fun s => if (s.chip c).state = 5 then (s.modChip c fun k => { k with state := 1, holdoff := false }).trace 8 1 c none 0 [5 + 2 ^ 8] else s

/-! ## Binding and formats -/

/-- A write of 0x3301 (R298, R319). -/
def State.bindWrite (c p : Nat) (s : State) : Except Nat State :=
  if s.cfg.chipPorts ≤ c || (s.cfg.partitions ≤ p && p ≠ 0xFF) then .error 0x0609
  else if (s.chip c).state = 4 then .error 0x0801
  else .ok ((s.modChip c fun k => { k with bound := if p = 0xFF then none else some p }).chipBind c)

/-- PARTITION_BIND. -/
def execPartitionBind (m : Mgmt) (c p : Nat) (s : State) : Host.Outcome State Fault Refusal :=
  doneS (s.dictWrite m 0x3301 (c + 1) (leBytes 1 p) (State.bindWrite c p))

/-- Evaluate every entry that is not empty again (R103). -/
def State.evalAll (s : State) : State :=
  { s with chips := s.chips.map fun kv => if kv.2.palette.state = 0 then kv else (kv.1, { kv.2 with palette := s.evalPalette kv.1 kv.2.palette }) }

/-- A write of an Installer mask or of 0x2030.01 (R103, R105). -/
def State.formatWrite2 (i j v : Nat) (s : State) : Except Nat State :=
  if (i = 0x2020 && decide (s.cfg.chipPorts < j)) || (i = 0x2030 && decide (2 ≤ v)) || (i ≠ 0x2020 && i ≠ 0x2030) then .error 0x0609
  else .ok (s.setSetting i j (v % 2 ^ 16)).evalAll

/-- FORMAT_PERMIT_WRITE. -/
def execFormatPermitWrite (m : Mgmt) (index sub value : Nat) (s : State) : Host.Outcome State Fault Refusal :=
  doneS (s.dictWrite m index sub (leBytes (if index = 0x2020 then 2 else 1) value) (State.formatWrite2 index sub value))

/-! ## Frames and standby -/

/-- CHIPLET_FRAME (R301). -/
def execChipletFrame (c : Nat) (beats : Bytes) (s : State) : Host.Outcome State Fault Refusal := s.chipRow c fun s => s.chipFrameIn c beats

/-- CHIPLET_FRAME_TRANSMIT (R299). -/
def execChipletFrameTransmit (c : Nat) (s : State) : Host.Outcome State Fault Refusal := s.chipRow c fun s => s.chipTurn c

/-- Ask a chiplet to enter standby (R303). -/
def State.sendStandby (s : State) (c : Nat) : State :=
  if (s.chip c).state = 4 && (s.chip c).standby = 0 then (s.sendChip c { mtype := 0x1A }).modChip c fun k => { k with standby := 1, standbyAt := k.unitsIn, retryDue := false } else s

/-- STANDBY_ACK (R303): the chiplet's last message. -/
def execStandbyAck (c : Nat) (s : State) : Host.Outcome State Fault Refusal :=
  s.chipRow c fun s => if (s.chip c).standby = 1 then
      (match s.takeChipMsg c 0x07 with
      | some (m, t) => ((t.freeChipUnits c m.units).modChip c fun k => { k with standby := 2 }).entryCheck
      | none => s)
    else s

/-- STANDBY_ACK_TIMEOUT (R303): the port is left awake, and the block stays in S1. -/
def execStandbyAckTimeout (c : Nat) (s : State) : Host.Outcome State Fault Refusal :=
  s.chipRow c fun s => if (s.chip c).standby = 1 then
      ({ s with power := { s.power with entering := none } } : State).modChip c fun k => { k with standby := 0, retryDue := true }
    else s

/-- STANDBY_RETRY (R303): the entry is tried again. -/
def execStandbyRetry (c : Nat) (s : State) : Host.Outcome State Fault Refusal :=
  s.chipRow c fun s => if (s.chip c).retryDue then
      ({ s with power := { s.power with entering := if s.power.state = 1 && s.power.exiting.isNone then some 2 else s.power.entering } } : State).sendStandby c
    else s

/-- CHIPLET_WAKE_FRAME (R303). -/
def execChipletWakeFrame (c : Nat) (s : State) : Host.Outcome State Fault Refusal := s.chipRow c fun s => s.wakeChip c

/-- CHIPLET_WAKE_TIMEOUT (R303). -/
def execChipletWakeTimeout (c : Nat) (s : State) : Host.Outcome State Fault Refusal :=
  s.chipRow c fun s => if (s.chip c).state = 4 && (s.chip c).standby = 3 then s.chipFail c 0x300F else s

end Sys2Proof.Machine
end

