-- ==== Sys2Proof/Machine/EntryValues.lean ====
section
/-! DEFINITION. Sys2Proof/Machine/EntryValues.lean: the value that every dictionary entry reads (Table 19.8 and the entry tables of
the chapters). A value is its bytes; a value shorter than its entry reads zero in the rest (R454). -/
namespace Sys2Proof.Machine

/-- The sum of bits set by a rule over a range. -/
def maskOf (n : Nat) (f : Nat → Bool) : Nat := ((List.range n).map fun i => if f i then 2 ^ i else 0).foldl (· + ·) 0

/-- The almanac (Tables 2.2 and 10.11, R464). -/
def State.almanac (s : State) (j : Nat) : Bytes :=
  let c := s.cfg
  if 0x30 ≤ j then
    let k := s.link (j - 0x30)
    let h := k.peer.getD {}
    leBytes 8 (if j - 0x30 < c.links then h.member + h.level * 2 ^ 16 + k.state * 2 ^ 32 + bn h.isMember * 2 ^ 35 else 0)
  else match j with
    | 0x01 => leBytes 2 0x0201
    | 0x02 => leBytes 1 c.memPorts
    | 0x03 => leBytes 1 c.chipPorts
    | 0x04 => leBytes 1 c.links
    | 0x05 => leBytes 1 c.hostPorts
    | 0x06 => leBytes 1 c.aus
    | 0x07 => leBytes 1 c.samplers
    | 0x08 => leBytes 1 c.partitions
    | 0x09 => leBytes 2 c.contexts
    | 0x0A => leBytes 4 c.queues
    | 0x0B => leBytes 4 c.tlb2
    | 0x0C => leBytes 2 c.comb
    | 0x0D => leBytes 2 c.memCxl.toNat
    | 0x0E => leBytes 2 c.tagPermit.toNat
    | 0x0F => padTo 8 (c.chipModules.flatMap fun n => leBytes 1 n)
    | 0x10 => leBytes 1 c.lineBoundUs
    | 0x11 => leBytes 1 (bn c.meshSensor + 2 * bn c.tracePort)
    | 0x12 => Config.gwebrimDigest
    | 0x13 => leBytes 8 s.serial
    | 0x14 => leBytes 1 2
    | 0x15 => leBytes 2 4096
    | 0x20 => leBytes 2 s.memberField
    | 0x21 => leBytes 1 (bn s.bring.member)
    | 0x22 => leBytes 2 (s.setting 0x3210 1)
    | 0x23 => leBytes 8 (if s.bring.member then s.bring.domain else 0)
    | _ => []

/-- Life cycle, debug, the agent and the clocks (Tables 18.7, 19.10, 3.5). -/
def State.agentValue (s : State) (i j : Nat) : Bytes :=
  let a := s.agent
  let l := s.life
  match i, j with
  | 0x1100, 1 => leBytes 1 (lifeCode l.state)
  | 0x1100, 2 => leBytes 1 l.vote
  | 0x1100, 3 => leBytes 4 l.counted
  | 0x1100, 4 => l.copies.flatMap fun w => leBytes 4 w
  | 0x1101, 1 => leBytes 1 (l.target.getD 0)
  | 0x1101, 3 => leBytes 1 l.confirm
  | 0x1101, 6 => leBytes 8 s.serial
  | 0x1101, 7 => s.makerDigest
  | 0x1102, 2 => l.challenge
  | 0x1102, 4 => leBytes 1 (if s.debugOpen then 4 else l.debug)
  | 0x1102, 6 => leBytes 1 l.failures
  | 0x1120, 1 => leBytes 8 (match a.ring with | r :: _ => r.seq | [] => 0)
  | 0x1120, 2 => leBytes 8 a.nextSeq
  | 0x1120, 3 => leBytes 8 a.overwritten
  | 0x1120, 4 => a.checkpoint
  | 0x1120, 5 => leBytes 8 (a.readTo.getD 0)
  | 0x1130, 3 => leBytes 1 a.refusedLogins
  | 0x1131, _ =>
    let k := s.session (j - 1)
    if s.sessionUp (j - 1) && k.role ≠ .none then leBytes 8 (roleNum k.role + k.keyId % 2 ^ 56 * 2 ^ 8) else []
  | 0x1200, 1 => leBytes 8 s.loc
  | 0x1200, 2 => leBytes 1 s.powerState
  | 0x1200, 3 => leBytes 4 s.power.tolerance
  | 0x1220, 5 => leBytes 4 (capTo 32 s.power.exits)
  | 0x1220, _ => leBytes 8 (tblGet s.power.residency (j - 1) 0)
  | _, _ => []

/-- Formats, attention, sampler, bridge and reduction (Tables 4.9, 5.8, 6.9, 7.7). -/
def State.engineValue (s : State) (i j : Nat) : Bytes :=
  match i with
  | 0x2000 => leBytes 8 (fmtDescriptor (j - 1))
  | 0x2010 => leBytes 8 (paletteWord (s.chip (j - 1)).palette)
  | 0x2110 => leBytes 1 (if j ≤ s.cfg.aus then tblGet s.auOwner (j - 1) 0xFF else 0xFF)
  | 0x2210 => leBytes 1 (if j ≤ s.cfg.samplers then tblGet s.samplerPart (j - 1) 0xFF else 0xFF)
  | 0x2320 => leBytes 2 s.rslots.length
  | _ => []

/-- A TDI record (Table 12.8). -/
def tdiBytes (t : Tdi) : Bytes :=
  leBytes 16 (t.state + t.slot * 2 ^ 2 + t.stream * 2 ^ 8 + t.part * 2 ^ 16 + t.ctxBase * 2 ^ 24 + t.ctxCount * 2 ^ 38)

/-- The sweep status record (Table 9.5). -/
def sweepBytes (w : Sweep) : Bytes := leBytes 16 (w.region + w.state * 2 ^ 8 + w.fromGen % 2 ^ 16 * 2 ^ 16 + w.edge / 128 % 2 ^ 36 * 2 ^ 32 + w.queued.length * 2 ^ 96)

/-- Memory sealing and the rekey sweep (Tables 8.15 and 9.6). -/
def State.memValue (s : State) (i j : Nat) : Bytes :=
  let p := s.port (j - 1)
  match i with
  | 0x3000 => leBytes 1 p.state
  | 0x3003 => leBytes 8 p.dcap
  | 0x3004 => leBytes 1 (bn (p.state = 2))
  | 0x3030 => leBytes 1 ((p.scrub.map (·.region)).getD 0)
  | 0x3046 => leBytes 2 (capTo 16 (if p.mode = 2 then p.root.length else p.poisoned.length))
  | 0x3100 => sweepBytes p.sweep
  | _ => match tblFind (s.port (i - 0x3020)).regions j with
    | some g => g.bytes
    | none => []

/-- Links, chiplet ports and host ports (Tables 10.12 and 12.12). -/
def State.portValue (s : State) (i j : Nat) : Bytes :=
  match i with
  | 0x3200 =>
    let k := s.link (j - 1)
    leBytes 16 (k.state + (match k.slot with | some x => (s.slot x).gen % 2 | none => 0) * 2 ^ 3 + k.lastErr * 2 ^ 16 + k.fs.txSeq * 2 ^ 64)
  | 0x3211 => leBytes 1 (bn ((s.link (j - 1)).state = 7))
  | 0x3220 => if j = 2 then (List.range 256).flatMap fun n => leBytes 2 (tblGet s.stagingRoutes (s.setting 0x3220 1 + n) 0) else []
  | 0x3222 => (List.range 256).flatMap fun n => leBytes 2 (tblGet s.liveRoutes (s.setting 0x3220 1 + n) 0)
  | 0x3300 => let k := s.chip (j - 1); leBytes 4 (if j ≤ s.cfg.chipPorts then k.state + k.bound.getD 0xFF * 2 ^ 8 + k.lastErr * 2 ^ 16 else 0)
  | 0x3301 => leBytes 1 ((s.chip (j - 1)).bound.getD 0xFF)
  | 0x3320 =>
    let h := j - 1
    let run := (s.tdis.filter fun kv => kv.1 / 256 = h && kv.2.state = 2).length
    let held := (s.slots.filter fun kv => kv.2.held && kv.2.port = h).length
    leBytes 4 (min 255 run + held * 2 ^ 8 + (tblGet s.hosts h {}).lastErr * 2 ^ 16)
  | 0x3321 => leBytes 1 (s.slots.filter fun kv => kv.2.held).length
  | _ => tdiBytes (s.tdi (tdiKey ((i - 0x3330) / 2) (128 * ((i - 0x3330) % 2) + j - 1)))

/-- Keys and attestation (Tables 13.17 and 14.11). -/
def State.keyValue (s : State) (i j : Nat) : Bytes :=
  let leaf := fun (f : Nat → KeySlot → Bool) => (s.keys.slots.filter fun kv => kv.1 < 65536 && f kv.1 kv.2).length
  let holds := fun (k : KeySlot) => k.state = 1 || k.state = 2
  match i, j with
  | 0x4000, 1 => leBytes 4 (leaf fun n k => holds k && s.usable n)
  | 0x4000, _ => leBytes 4 (leaf fun n k => k.state = 3 || (holds k && !s.usable n))
  | 0x4010, _ => leBytes 4 (if j = 65 then (if s.bring.member then s.slotGen domainSlot else 0xFFFFFFFF) else s.slotGen (partSlot (j - 1)))
  | 0x4020, _ => leBytes 1 (bn s.random.stopped)
  | 0x4100, 1 => leBytes 1 s.fw.fw
  | 0x4100, 2 => leBytes 4 s.fw.version
  | 0x4100, 3 => leBytes 4 s.fw.svn
  | 0x4100, 4 => leBytes 4 s.fw.stagedSvn
  | 0x4100, 8 => leBytes 1 ((List.range 4).filter fun n => s.sessionUp n).length
  | 0x4100, _ => leBytes 4 Config.enterprise.toNat
  | 0x4110, _ => s.fw.composite
  | 0x4120, 1 => s.fw.chainEc
  | 0x4120, _ => s.fw.chainPq
  | 0x4130, 1 => leBytes 4 s.fw.offset
  | 0x4130, 3 => leBytes 1 s.fw.command
  | 0x4130, _ => leBytes 1 s.fw.reason
  | _, _ => []

/-- A context record (Table 15.1); a free context reads 0. -/
def ctxBytes (c : Ctx) : Bytes :=
  leBytes 16 (if c.state = 0 then 0 else
    c.state + c.part * 2 ^ 2 + c.scratch * 2 ^ 8 + c.chipDb * 2 ^ 14 + c.qbase * 2 ^ 22 + c.qcount * 2 ^ 40 + c.faultVec * 2 ^ 53)

/-- A translation record (Table 16.1). -/
def transBytes (t : Trans) : Bytes :=
  leBytes 16 (t.port + t.region * 2 ^ 8 + t.dsize * 2 ^ 16 + bn t.enable * 2 ^ 35 + bn t.zeroing * 2 ^ 36 + bn t.zeroFailed * 2 ^ 37)

/-- Queues, translation and partitions (Tables 15.11, 16.6 and 17.7). -/
def State.objectValue (s : State) (i j : Nat) : Bytes :=
  match i, j with
  | 0x5010, _ => leBytes 4 s.objLive
  | 0x5020, _ => leBytes 2 s.watch.length
  | 0x5110, _ => transBytes (s.transOf (j - 1))
  | 0x5120, 1 => leBytes 16 s.mapJob.record
  | 0x5120, _ => leBytes 4 (s.mapJob.status + s.mapJob.written * 2 ^ 16)
  | 0x5200, _ => (s.partn (j - 1)).bytes
  | 0x5201, _ => leBytes 1 (s.partn (j - 1)).step
  | 0x5240, _ => leBytes 4 (tblGet s.power.factor (j - 1) 0x10000 + bn (s.power.shortfall.contains (j - 1)) * 2 ^ 17)
  | _, _ => if 0x5080 ≤ i && i ≤ 0x50FF then ctxBytes (s.ctx (128 * (i - 0x5080) + j - 1)) else []

/-- Faults, alarms, records and bring-up (Tables 20.10, 21.7, 22.7 and 24.5). -/
def State.recordValue (s : State) (i j : Nat) : Bytes :=
  let r := s.records
  match i, j with
  | 0x6000, _ => leBytes 8 s.faults.blockFaults
  | 0x6020, _ => leBytes 8 s.faults.snapAt
  | 0x6021, _ => s.faults.snap
  | 0x6030, _ => leBytes 2 s.faults.kept
  | 0x6103, _ => leBytes 8 (maskOf s.cfg.partitions fun p => (s.partn p).fenced)
  | 0x6110, _ => s.injectionBytes
  | 0x6111, _ => leBytes 2 s.alarms.count
  | 0x6212, 1 => r.latest
  | 0x6212, 2 => leBytes 8 (r.selected.getD 0)
  | 0x6212, _ => match r.selected.bind fun q => r.ring.find? fun kv => leNat ((kv.2.drop 8).take 8) = q with
    | some kv => kv.2
    | none => []
  | 0x6220, 5 => leBytes 8 r.offset
  | 0x6220, _ => leBytes 8 r.traceSeq
  | 0x6221, _ => (List.range 32).flatMap fun n => padTo 128 (tblGet r.history (s.setting 0x6221 1 / 128 + n) [])
  | 0x7000, 1 => leBytes 1 (if s.bring.member then 3 else if s.bring.gate then 2 else 1)
  | 0x7000, 2 => leBytes 8 s.bring.readyAt
  | 0x7000, 3 => leBytes 8 s.bring.gateAt
  | 0x7000, 4 => leBytes 8 s.bring.memberAt
  | 0x7000, _ => leBytes 1 s.fw.source
  | 0x7002, _ => leBytes 2 (s.bring.join + s.bring.joinReason * 2 ^ 8)
  | _, _ => []

/-- Is the port that a per-port entry of the memory and link ranges names absent: such an entry reads 0 (R227, R242, R273). -/
def absentPort (c : Config) (i j : Nat) : Bool :=
  if 0x3020 ≤ i && i ≤ 0x3027 then decide (c.memPorts ≤ i - 0x3020)
  else if 0x3000 ≤ i && i ≤ 0x31FF then decide (c.memPorts < j)
  else if (0x3200 ≤ i && i ≤ 0x3208) || i = 0x3211 then decide (c.links < j) else false

/-- The value of an entry. -/
def State.entryValue (s : State) (i j : Nat) : Bytes :=
  match entryRow i j with
  | none => []
  | some e =>
    padTo e.size (if absentPort s.cfg i j then [] else match e.src with
      | .counter => leBytes e.size (capTo (8 * e.size) (s.count i j))
      | .setting => leBytes e.size (s.setting i j)
      | .special =>
        if i < 0x1100 then s.almanac j
        else if i < 0x2000 then s.agentValue i j
        else if i < 0x3000 then s.engineValue i j
        else if i < 0x3200 then s.memValue i j
        else if i < 0x4000 then s.portValue i j
        else if i < 0x5000 then s.keyValue i j
        else if i < 0x6000 then s.objectValue i j
        else s.recordValue i j)

end Sys2Proof.Machine
end

