-- ==== Sys2Proof/Machine/TraceRegion.lean ====
section
/-! DEFINITION. Sys2Proof/Machine/TraceRegion.lean: the records of the trace region on their way to memory (R515). -/
namespace Sys2Proof.Machine

/-- Write words at the ring's next offset, which they do not carry across a line; the offset moves on. -/
def State.traceStore (s : State) (m : Nat) (g : Region) (ws : List Nat) : State :=
  let size := g.pages * 2 ^ 14
  let off := s.records.offset % size
  let at_ := off % 128
  let b := ws.flatMap fun w => leBytes 8 w
  let line := tblGet s.records.history (off / 128) (List.replicate 128 0#8)
  let new := (line.take at_ ++ b ++ line.drop (at_ + b.length)).take 128
  let body := padTo 128 (List.replicate at_ 0#8 ++ b)
  let s1 : State := { s with records := { s.records with offset := (off + b.length) % size, history := tblPut s.records.history (off / 128) new } }
  s1.lineAccept m ⟨g.base * 2 ^ 14 + off / 128 * 128, normalAccess (.partialStore ((2 ^ b.length - 1) * 2 ^ at_) body), g.part, 10, localContender 10, .trace, 0, false, 0⟩

/-- Write one record: pad words fill a line that it would cross. -/
def State.tracePack (s : State) (m : Nat) (g : Region) (ws : List Nat) : State :=
  let left := (128 - s.records.offset % 128) / 8
  if ws.length ≤ left then s.traceStore m g ws else (s.traceStore m g (List.replicate left 0)).traceStore m g ws

/-- Write staged records, on fuel, while the writer class has bytes left in this window (R429). -/
def drainOn : Nat → Nat → Nat → Region → State → State
  | 0, _, _, _, s => s
  | n + 1, cap, m, g, s => match s.records.staging with
    | ws :: rest => if cap < 256 then s else drainOn n (cap - 256) m g (({ s with records := { s.records with staging := rest } } : State).tracePack m g ws)
    | [] => s

/-- Write the staged trace records of a window to the trace region, in sequence order; in S2 and S3 they wait (R517). -/
def State.drainTrace (s : State) : State :=
  if 2 ≤ s.power.state then s
  else match s.systemRegion (s.setting 0x6220 1) with
    | some (m, g) => if g.pages = 0 then s else drainOn s.records.staging.length (2400 * s.setting 0x5250 1) m g s
    | none => s

end Sys2Proof.Machine
end

