-- ==== Sys2Proof/Machine/Records.lean ====
section
/-! DEFINITION. Sys2Proof/Machine/Records.lean: the harvest, the event trace and the debug port (R54, R55, R436, R509 to R519). -/
namespace Sys2Proof.Machine

/-- Change the record of the harvest and the trace. -/
def State.modRecords (s : State) (f : Records → Records) : State := { s with records := f s.records }

/-! ## The harvest (R509 to R512) -/

/-- The used entries of the harvest list, in list order. -/
def State.harvestList (s : State) : List Nat := ((List.range 120).map fun k => s.setting 0x6211 (k + 1)).filter (· ≠ 0)

/-- A harvest record of 1,024 bytes (Table 22.2). -/
def State.harvestBytes (s : State) : Bytes :=
  let r := s.records
  let es := s.harvestList
  let h := 0x0201 + s.memberField * 2 ^ 16 + es.length * 2 ^ 32 + bn r.gap * 2 ^ 39 + r.listGen * 2 ^ 40 + r.missed * 2 ^ 48 + r.seq * 2 ^ 64 +
    s.loc * 2 ^ 128 + (if r.gap then r.resumed else 0) * 2 ^ 192 + s.setting 0x6210 2 * 2 ^ 256 + bn s.bring.member * 2 ^ 288
  padTo 1024 (leBytes 64 h ++ es.flatMap fun e => leBytes 8 (leNat (s.entryValue (e % 2 ^ 16) (e / 2 ^ 16))))

/-- Take one sample: the record is latched, and written where a live system region is named; it replaces one whose write is
pending. -/
def State.harvest (s : State) : State :=
  let s0 := if s.records.writing ≠ 0 then (s.modRecords fun r => { r with writing := 0, writeBad := false, missed := min 65535 (r.missed + 1) }).bump 0x6210 4 else s
  let b := s0.harvestBytes
  let seq := s0.records.seq
  let s1 := s0.modRecords fun r => { r with latest := b, seq := r.seq + 1, gap := false }
  match s1.systemRegion (s1.setting 0x6210 1) with
  | none => s1
  | some (m, g) =>
    if g.pages = 0 then s1
    else
      let slot := seq % (16 * g.pages)
      (s1.modRecords fun r => { r with writing := 8, slot := slot, writeBad := false }).writerStore m (g.base * 2 ^ 14 + 1024 * slot) g.part b (.harvest seq)

/-- HARVEST_SAMPLE: not while the interval is 0, in S2 or S3 (R73), or before the block is ready. -/
def execHarvestSample (s : State) : Host.Outcome State Fault Refusal :=
  s.work fun s => if !s.bring.ready || s.setting 0x6210 2 = 0 || 2 ≤ s.power.state then s else s.harvest

/-- Does the configuration have the unit or port that an entry is for (R463). -/
def entryPresent (c : Config) (i j : Nat) : Bool :=
  !(absentPort c i j) &&
  (if i = 0x2220 || i = 0x2221 || i = 0x6202 || (0x3306 ≤ i && i ≤ 0x3309) then decide (j ≤ c.chipPorts)
   else if i = 0x6200 then decide (j ≤ c.memPorts)
   else if i = 0x6201 then decide (j ≤ c.links)
   else if i = 0x6203 || i = 0x3340 then decide (j ≤ c.hostPorts)
   else if i = 0x6204 then decide (j ≤ c.aus)
   else if i = 0x6205 then decide (j ≤ c.samplers)
   else if i = 0x1000 && decide (0x30 ≤ j) then decide (j - 0x30 < c.links) else true)

/-- May the harvest list name an entry: a U64 of the configuration that every role reads and none writes (R510). -/
def harvestable (c : Config) (i j : Nat) : Bool :=
  entryPresent c i j && match entryRow i j with
    | some e => decide (e.ty = 5 ∧ e.maker = 1 ∧ e.installer = 1 ∧ e.operator = 1)
    | none => false

/-- A write of 0x6211.sub; bits [31:24] are reserved. -/
def State.harvestListWrite (sub v : Nat) (s : State) : Except Nat State :=
  let v1 := v % 2 ^ 24
  if v1 ≠ 0 && !harvestable s.cfg (v1 % 2 ^ 16) (v1 / 2 ^ 16) then .error 0x0609
  else .ok ((s.setSetting 0x6211 sub v1).modRecords fun r => { r with listGen := (r.listGen + 1) % 256 })

/-- HARVEST_LIST_WRITE. -/
def execHarvestListWrite (m : Mgmt) (sub value : Nat) (s : State) : Host.Outcome State Fault Refusal :=
  doneS (s.dictWrite m 0x6211 sub (leBytes 4 value) (State.harvestListWrite sub (value % 2 ^ 32)))

/-- The SEQ that a harvest record carries. -/
def recordSeq (b : Bytes) : Nat := leNat ((b.drop 8).take 8)

/-- A write of 0x6212.02. -/
def State.harvestSelect (seq : Nat) (s : State) : Except Nat State :=
  if s.records.ring.any fun kv => recordSeq kv.2 = seq then .ok (s.modRecords fun r => { r with selected := some seq }) else .error 0x0609

/-- HARVEST_SELECT. -/
def execHarvestSelect (m : Mgmt) (seq : Nat) (s : State) : Host.Outcome State Fault Refusal :=
  doneS (s.dictWrite m 0x6212 2 (leBytes 8 seq) (State.harvestSelect (seq % 2 ^ 64)))

/-- A write of 0x6210: the region and the interval. -/
def State.harvestSetting (sub v : Nat) (s : State) : Except Nat State :=
  if sub = 1 then
    let v1 := v % 8 + v / 256 % 256 * 256
    if v1 ≠ 0 && (s.systemRegion v1).isNone then .error 0x0609
    else .ok ((s.modRecords fun r => { r with ring := [], selected := none, writing := 0 }).setSetting 0x6210 1 v1)
  else if v = 0 || decide (10 ≤ v ∧ v ≤ 1000000) then .ok (s.setSetting 0x6210 2 v) else .error 0x0609

/-! ## The event trace (R513 to R518) -/

/-- May the trace controls be reached: debug is open in Test or Production (R513, Table 22.5). -/
def State.traceOpen (s : State) : Bool := (s.life.state = .test || s.life.state = .production) && s.life.debug = 4

/-- A write of 0x6220.sub or of 0x6221.01. -/
def State.traceWrite (i sub v : Nat) (s : State) : Except Nat State :=
  if !s.traceOpen then .error 0x0801
  else match i, sub with
    | 0x6220, 1 =>
      let v1 := v % 8 + v / 256 % 256 * 256
      if s.setting 0x6220 3 = 1 then .error 0x0801
      else if v1 ≠ 0 && (s.systemRegion v1).isNone then .error 0x0609
      else .ok ((s.modRecords fun r => { r with offset := 0, history := [], staging := [], stagingLost := 0 }).setSetting 0x6220 1 v1)
    | 0x6220, 2 => .ok (s.setSetting 0x6220 2 (bits v 10 2 * 4))
    | 0x6220, 3 => if 2 ≤ v then .error 0x0609 else .ok (s.setSetting 0x6220 3 v)
    | 0x6220, 4 => if 2 ≤ v then .error 0x0609 else .ok (s.setSetting 0x6220 4 v)
    | _, _ => if v % 128 ≠ 0 then .error 0x0609 else .ok (s.setSetting 0x6221 1 v)

/-- TRACE_ENABLE. -/
def execTraceEnable (m : Mgmt) (value : Nat) (s : State) : Host.Outcome State Fault Refusal :=
  doneS (s.dictWrite m 0x6220 3 (leBytes 1 value) (State.traceWrite 0x6220 3 (value % 256)))

/-- TRACE_STREAM_TRANSFER: one word leaves the FIFO while the trace runs (Table 22.5); in S2 and S3 records wait (R517). -/
def execTraceStreamTransfer (s : State) : Host.Outcome State Fault Refusal :=
  doneS (s.whenAlive fun s =>
    if s.setting 0x6220 3 ≠ 1 || 2 ≤ s.power.state then s
    else match s.records.fifo with
      | w :: rest => (s.modRecords fun r => { r with fifo := rest }).emit (.traceWord w.1 w.2)
      | [] => s)

/-! ## The debug port (R54, R436) -/

/-- A write of a trace control through the debug port: as the same dictionary write would take effect, audited with ROLE 0 and
SESSION 0xF, and not answered. -/
def State.debugTraceWrite (s : State) (i j : Nat) (b : Bytes) : State :=
  let v := leNat b
  let r : Except Nat State := match entryRow i j with
    | none => .error 0x0604
    | some e => if i ≠ 0x6220 || !bit e.maker 1 then .error 0x0602 else if b.length ≠ e.size then .error 0x0605 else s.traceWrite i j v
  match r with
  | .ok t => t.audit 1 0 0xF i j 0 (auditValue b) 0
  | .error a => s.audit 2 0 0xF i j a (auditValue b) 0

/-- A bit on dbg_tdo that no rule gives: a free value. -/
def State.tdoFree (s : State) : State := s.free.2.emit (.tdo (decide (s.free.1 % 2 = 1)))

/-- dbg_tdo reflects the bypass register, which takes the bit shifted in. -/
def State.tapShift (s : State) (tdi : Bool) : State := (s.emit (.tdo s.life.tap)).modLife fun l => { l with tap := tdi }

/-- DEBUG_PORT_ACCESS: closed, the port reaches the bypass register alone, and dbg_tdo reflects it. What a scan chain or an SRAM shows
is open. -/
def execDebugPortAccess (op : DebugOp) (s : State) : Host.Outcome State Fault Refusal :=
  doneS (s.whenAlive fun s => match op with
    | .bypass tdi => s.tapShift tdi
    | .scanChain => if s.debugOpen then s.tdoFree else s.tapShift false
    | .sramRead => if s.debugOpen then s.tdoFree else s.tapShift false
    | .traceWrite i j b => if s.debugOpen then s.debugTraceWrite i j b else s.tapShift false
    | .inject b => if s.debugOpen then (match s.arm b none with | .ok t => t | .error _ => s) else s.tapShift false)

end Sys2Proof.Machine
end

