-- ==== Sys2Proof/Machine/DictRead.lean ====
section
/-! DEFINITION. Sys2Proof/Machine/DictRead.lean: dictionary reads, roles and their logins, audit reads and notices (R447 to R458,
R466 to R470, R474, R475). -/
namespace Sys2Proof.Machine

/-! ## READ and DESCRIBE -/

/-- Serve a management request: nothing while the port takes none. -/
def State.mgmtRow (s : State) (f : State → State) : Host.Outcome State Fault Refusal := doneS (if s.serving then f s else s)

/-- The rights that a reader has on an entry: its role's, or, without a role, those that every role has. -/
def State.readRight (s : State) (m : Mgmt) (e : Entry) : Bool :=
  if s.roleOf m = .none then bit e.maker 0 && bit e.installer 0 && bit e.operator 0 else bit (e.rights (s.roleOf m)) 0

/-- May a request without a role read an index (Table 19.1). -/
def State.openIndex (s : State) (m : Mgmt) (i : Nat) : Bool :=
  match s.life.state with
  | .blank => false
  | .endOfLife => m.session.isNone && (i = 0x1000 || i = 0x1100)
  | _ => i = 0x1000

/-- Steps 3 to 5 of R460 for a read: role, existence, rights; the entry, or the abort code. -/
def State.readGate (s : State) (m : Mgmt) (i j : Nat) : Except Nat Entry :=
  if s.roleOf m = .none && !s.openIndex m i then .error 0x0501
  else match entryRow i j with
    | none => .error 0x0604
    | some e => if s.readRight m e then .ok e else .error 0x0603

/-- Message form and version (R454, R455): the abort code, 0 none. -/
def formCheck (d : DictMsg) (dataLength : Nat) : Nat :=
  if !d.reservedZero || d.data.length ≠ dataLength then 0x0401 else if d.version ≠ 2 then 0x0402 else 0

/-- Bytes 0 to 51 of a checkpoint of the latest audit record (R470). -/
def State.checkpointHead (s : State) : Bytes :=
  let r : Audit := (s.agent.ring.getLast?).getD ⟨0, 0, 0, 0, 0, 0, 0, 0, 0, 0, []⟩
  leBytes 8 r.seq ++ padTo 24 r.chain ++ leBytes 8 s.loc ++ leBytes 8 s.serial ++ leBytes 2 s.memberField ++ leBytes 1 (bn s.bring.member) ++ [0#8]

/-- Sign a checkpoint (R470): refused while there are no alias keys or no draw. -/
def State.signCheckpoint (s : State) : Except Nat State :=
  let h := s.checkpointHead
  if s.fw.aliasEc = [] then .error 0x0801
  else match s.signBoth (ascii "SH9v2 audit" ++ [0#8] ++ h) with
    | none => .error 0x0802
    | some (ec, pq, t) => .ok { t with agent := { t.agent with checkpoint := h ++ padTo 96 ec ++ padTo 3309 pq } }

/-- The value a READ returns and the state after: two entries do work of their own when read (R349, R470), and the trace is read
only while debug is open (Table 22.5). -/
def State.readValue (s : State) (i j off : Nat) : Except Nat (Bytes × State) :=
  if (i = 0x6220 || i = 0x6221) && !s.traceOpen then .error 0x0801
  else if i = 0x4030 then
    match s.drawChild drbgGce 32 with
    | none => .error 0x0802
    | some x => .ok x
  else if i = 0x1120 && j = 4 && off = 0 then
    match s.signCheckpoint with
    | .error a => .error a
    | .ok t => .ok (t.entryValue i j, t)
  else .ok (s.entryValue i j, s)

/-- Serve a READ (R455): the selection must lie within the value, and one response carries at most 4,096 bytes. -/
def State.read (s : State) (m : Mgmt) (i j off len : Nat) : State :=
  match s.readGate m i j with
  | .error a => s.answer m i j a []
  | .ok e =>
    if e.size ≤ off || e.size < off + len || 4096 < len then s.answer m i j 0x0605 []
    else match (s.wakeFor i).readValue i j off with
      | .error a => s.answer m i j a []
      | .ok (v, t) => t.answer m i j 0 (((padTo e.size v).drop off).take (if len = 0 then 4096 else len))

/-- DICTIONARY_READ. -/
def execDictionaryRead (m : Mgmt) (d : DictMsg) (s : State) : Host.Outcome State Fault Refusal :=
  s.mgmtRow fun s =>
    let f := formCheck d 0
    if f ≠ 0 then s.answer m d.index d.sub f [] else s.read m d.index d.sub d.offset d.length

/-- AUDIT_CHECKPOINT. -/
def execAuditCheckpoint (m : Mgmt) (offset length : Nat) (s : State) : Host.Outcome State Fault Refusal :=
  s.mgmtRow fun s => s.read m 0x1120 4 offset length

/-- The 8 bytes of DESCRIBE. -/
def describeBytes (e : Entry) : Bytes :=
  leBytes 8 (e.ty + e.size * 2 ^ 8 + e.maker * 2 ^ 40 + e.installer * 2 ^ 42 + e.operator * 2 ^ 44 + bn e.audited * 2 ^ 46 + bn e.sec * 2 ^ 47)

/-- DESCRIBE: permitted wherever READ is. -/
def execDescribe (m : Mgmt) (d : DictMsg) (s : State) : Host.Outcome State Fault Refusal :=
  s.mgmtRow fun s =>
    let f := formCheck d d.length
    if f ≠ 0 then s.answer m d.index d.sub f []
    else match s.readGate m d.index d.sub with
      | .error a => s.answer m d.index d.sub a []
      | .ok e => if d.length ≠ 0 then s.answer m d.index d.sub 0x0605 [] else s.answer m d.index d.sub 0 (describeBytes e)

/-! ## Logins (R450 to R453) -/

/-- The role of a number. -/
def roleOfNum (n : Nat) : Option Role := if n = 1 then some .maker else if n = 2 then some .installer else if n = 3 then some .operator else none

/-- The digests enrolled for a role (Table 19.2), all-zero entries unused. -/
def State.enrolled (s : State) (r : Role) : List Bytes :=
  let entries := fun (i n : Nat) => (List.range n).map fun k => leBytes 48 (s.setting i (k + 1))
  (match r with
    | .maker => [s.makerDigest]
    | .installer => entries 0x1110 4
    | .operator => entries 0x1111 8
    | .none => []).filter fun b => b.any (· ≠ 0#8)

/-- May a session ask for a challenge or log in: it is established in Test or Production (Table 19.1). -/
def State.mayLogin (s : State) (m : Mgmt) : Option Nat :=
  match m.session with
  | some n => if (s.life.state = .test || s.life.state = .production) && s.sessionUp n then some n else none
  | none => none

/-- ROLE_CHALLENGE: a fresh challenge replaces any earlier one of the session. -/
def execRoleChallenge (m : Mgmt) (role : Nat) (s : State) : Host.Outcome State Fault Refusal :=
  s.mgmtRow fun s =>
    let refuse := fun (a : Nat) => s.answer m 0 role a []
    match s.mayLogin m with
    | none => refuse 0x0501
    | some n =>
      if s.agent.holdoff then refuse 0x0801
      else if (roleOfNum role).isNone then refuse 0x0609
      else match s.drawMaster 32 with
        | none => refuse 0x0802
        | some (nonce, t) =>
          let c := t.challengeBytes nonce (role + n * 2 ^ 8)
          (t.modSession n fun k => { k with challenge := some (c, t.loc) }).answer m 0 role 0 c

/-- Does a response earn a role (R451, step 4): the challenge is the session's, for that role, and young enough. -/
def State.loginHolds (s : State) (n role : Nat) (r : Role) (b : Bytes) : Bool :=
  match (s.session n).challenge with
  | none => false
  | some (c, at_) =>
    decide (bits (leNat c) 407 400 = role) && !s.expired at_ (s.setting 0x1130 1) && (s.enrolled r).contains (sha384 (rspEcKey b)) &&
      responseHolds "SH9v2 role" c b

/-- The first 8 bytes of the digest of a submitted key (KEYID). -/
def keyIdBytes (b : Bytes) : Nat := leNat ((sha384 (rspEcKey b)).take 8)

/-- A login is granted: the role replaces any the session held. -/
def State.loginGrant (s : State) (n : Nat) (r : Role) (b : Bytes) : State :=
  let s1 := s.modSession n fun k => { k with role := r, keyId := keyIdBytes b, digest := sha384 (rspEcKey b), challenge := none }
  ({ s1 with agent := { s1.agent with refusedLogins := 0 } } : State).audit 3 (roleNum r) n 0 0 0 0 (keyIdBytes b)

/-- A login is refused: after 8 in a row ROLE_CHALLENGE is held off, and the lockout is an alarm event. -/
def State.loginRefuse (s : State) (n : Nat) (r : Role) (b : Bytes) : State :=
  let s1 := (s.modSession n fun k => { k with challenge := none }).audit 4 (roleNum r) n 0 0 0x0502 0 (keyIdBytes b)
  let c := min 255 (s1.agent.refusedLogins + 1)
  let lock := decide (8 ≤ c) && !s1.agent.holdoff
  let s2 : State := { s1 with agent := { s1.agent with refusedLogins := c, holdoff := s1.agent.holdoff || lock } }
  if lock then s2.alarm 10 none 0 0x9015 else s2

/-- The buffer key of a login's segments: no entry has this index. -/
def loginIndex : Nat := 0x10000

/-- ROLE_LOGIN: the segments of the response, then its verification; one submission consumes the challenge. -/
def execRoleLogin (m : Mgmt) (role offset : Nat) (last : Bool) (data : Bytes) (s : State) : Host.Outcome State Fault Refusal :=
  s.mgmtRow fun s =>
    let answer := fun (s : State) (a : Nat) => s.answer m 0 role a []
    match s.mayLogin m with
    | none => answer s 0x0501
    | some n =>
      let buffer := (s.session n).buffer
      let seg := segmentGate buffer loginIndex role offset
      let whole := (match buffer with | some x => x.2.2 | none => []) ++ data
      if 8192 < offset + data.length then answer s 0x0605
      else if seg ≠ 0 then answer (if seg = 0x0403 then s.setBuffer m none else s) seg
      else match roleOfNum role with
        | none => answer s 0x0609
        | some r =>
          if !last then answer (s.setBuffer m (some (loginIndex, role, whole))) 0
          else
            let b := padTo 8192 whole
            let s1 := s.setBuffer m none
            if s1.loginHolds n role r b then answer (s1.loginGrant n r b) 0 else answer (s1.loginRefuse n r b) 0x0502

/-- The role of a session ends (R452). -/
def State.clearRole (s : State) (n : Nat) : State := s.modSession n fun k => { k with role := .none, keyId := 0, digest := [] }

/-- A logout, audited (R466). -/
def State.dropRole (s : State) (n : Nat) : State :=
  let k := s.session n
  if k.role = .none then s else (s.clearRole n).audit 5 (roleNum k.role) n 0 0 0 0 k.keyId

/-- Roles whose enrolled digest has been removed end (R452, R462); the write itself is what the log records of it (R466). -/
def State.dropRoles (s : State) : State :=
  (List.range 4).foldl (fun s n =>
    let k := s.session n
    if k.role = .none || (s.enrolled k.role).contains k.digest then s else s.clearRole n) s

/-- Serve a request that any role may make, but no session without one (Table 19.1). -/
def State.withRole (s : State) (m : Mgmt) (f : State → State) : State := if s.roleOf m = .none then s.answer m 0 0 0x0501 [] else f s

/-- ROLE_LOGOUT. -/
def execRoleLogout (m : Mgmt) (s : State) : Host.Outcome State Fault Refusal :=
  s.mgmtRow fun s => s.withRole m fun s => (match m.session with | some n => s.dropRole n | none => s).answer m 0 0 0 []

/-- LOGIN_HOLDOFF_EXPIRY (R453). -/
def execLoginHoldoffExpiry (s : State) : Host.Outcome State Fault Refusal :=
  doneS (s.whenAlive fun s => { s with agent := { s.agent with holdoff := false } })

/-! ## The audit log and the notices -/

/-- AUDIT_READ: the records held from a sequence number, up to the count; the highest returned is read (R469). -/
def execAuditRead (m : Mgmt) (first count : Nat) (s : State) : Host.Outcome State Fault Refusal :=
  s.mgmtRow fun s => s.withRole m fun s =>
    if count = 0 || 64 < count then s.answer m 0 0 0x0609 []
    else
      let rs := (s.agent.ring.filter fun r => decide (first ≤ r.seq)).take count
      let top := (rs.map (·.seq)).foldl max (s.agent.readTo.getD 0)
      let s1 : State := if rs.isEmpty then s else { s with agent := { s.agent with readTo := some top } }
      s1.answer m 0 0 0 (rs.flatMap auditRecord)

/-- A notice as its reader sees it: 32 bytes (Table 20.3). -/
def noteBytes (n : Note) : Bytes :=
  leBytes 8 (n.kind + n.scope * 2 ^ 8 + n.err * 2 ^ 16 + n.part.getD 0 * 2 ^ 32 + bn n.part.isSome * 2 ^ 38 + n.ctx * 2 ^ 40) ++ leBytes 8 n.loc ++
    leBytes 8 n.a ++ leBytes 8 n.b

/-- NOTICE: the oldest notice leaves the queue; an empty queue answers no data. -/
def execNotice (m : Mgmt) (s : State) : Host.Outcome State Fault Refusal :=
  s.mgmtRow fun s => s.withRole m fun s => match s.agent.notices with
    | n :: rest => ({ s with agent := { s.agent with notices := rest } } : State).answer m 0 0 0 (noteBytes n)
    | [] => s.answer m 0 0 0 []

/-- Is mg_alert high (R455). -/
def State.alert (s : State) : Bool := !s.agent.notices.isEmpty

end Sys2Proof.Machine
end

