-- ==== Sys2Proof/Machine/Power.lean ====
section
/-! DEFINITION. Sys2Proof/Machine/Power.lean: regulation windows, power states, and the resets of ports and functions
(R65 to R74, R316, R427 to R431). -/
namespace Sys2Proof.Machine

/-! ## Regulation windows (R427 to R431) -/

/-- The unit kind and index of a regulated port, and the error code of its shortfall. -/
def regulatedUnit (i : Nat) : Nat × Nat × Nat := if i < 8 then (0, i, 0x1012) else if i < 40 then (2, i - 8, 0x2030) else (3, i - 40, 0x4007)

/-- Recompute a regulated port's minimums (R431): where 0.9 of its capacity no longer covers them they are scaled, and the
first such window raises the event. -/
def State.regulate (s : State) (i : Nat) : State :=
  let sum := s.minSum i
  let a := s.capacity i
  let short := decide (9 * a < 10 * sum)
  let was := s.power.shortfall.contains i
  let f := if short then 9 * a * 2 ^ 16 / (10 * sum) else 0x10000
  let floor := fun (p : Nat) => ratingOf i * bits (s.setting (0x5210 + i) (p + 1)) 15 0 / 1000 * (9 * a) / (10 * sum)
  let clean := s.power.scale.filter fun kv => kv.1 / 64 ≠ i
  let scale := if short then (List.range 64).foldl (fun t p => tblPut t (usedKey i p) (floor p)) clean else clean
  let u := regulatedUnit i
  let s1 : State := { s with power := { s.power with scale := scale, factor := tblSet s.power.factor i f 0x10000, shortfall := if short then (if was then s.power.shortfall else i :: s.power.shortfall) else s.power.shortfall.filter (· ≠ i) } }
  let s2 := if short then s1.bump 0x5260 2 else s1
  if short && !was then (((s2.bump 0x5260 1).error u.1 u.2.1 none u.2.2 0).note 7 0 u.2.2 none 0 (unitField u.1 u.2.1) f) else s2

/-- The tolerance that hp_ltr_tol spells in nanoseconds (R71); none where it requires nothing. -/
def ltrTolerance (v : Nat) : Option Nat :=
  if bit v 15 then
    let sc := bits v 12 10
    some (if sc < 6 then bits v 9 0 * 32 ^ sc else 0)
  else none

/-- The effective latency tolerance (R70), saturating. -/
def State.tolerance (s : State) (ltr : List Nat) : Nat := ((ltr.take s.cfg.hostPorts).filterMap ltrTolerance).foldl min (s.setting 0x1210 1)

/-- Exit latency of a power state in nanoseconds (Table 3.4). -/
def exitNs (k : Nat) : Nat := if k = 0 then 0 else if k = 1 then 40 else if k = 2 then 1500 else 60000

/-- Is a power state permitted (R70). -/
def State.permitted (s : State) (k : Nat) : Bool := k = 0 || (decide (10 * exitNs k ≤ 9 * s.power.tolerance) && decide (k ≤ s.setting 0x1210 2))

/-- The deepest permitted state up to `k`. -/
def State.deepest (s : State) : Nat → Nat
  | 0 => 0
  | k + 1 => if s.permitted (k + 1) then k + 1 else s.deepest k

/-- A state that is no longer permitted is left for the deepest permitted one (R70). -/
def State.leaveForbidden (s : State) : State :=
  let p := s.power
  let s1 : State := match p.entering with | some k => if s.permitted k then s else { s with power := { p with entering := none } } | none => s
  if s.permitted p.state || p.exiting.isSome then s1
  else match s.deepest p.state with
    | 0 => s1.beginExit
    | k => { s1 with power := { s1.power with entering := none, exiting := some k } }

/-- REGULATION_WINDOW: byte counts restart, capacities and minimums are recomputed, and T with them. ln_derate is sampled
once (R432). A window is 1,300 F-cycles (R64): none passes in S3. -/
def execRegulationWindow (derate ltr : List Nat) (s : State) : Host.Outcome State Fault Refusal :=
  doneS (s.whenClocked fun s =>
    let s1 := (List.range s.cfg.memPorts).foldl (fun s m => s.modPort m fun p => { p with derate := derate.getD m 255 % 256, sweep := { p.sweep with used := 0 }, writerUsed := 0 }) s
    let s2 : State := { s1 with power := { s1.power with used := [], ltr := ltr.take s.cfg.hostPorts } }
    let s3 := (List.range 44).foldl (fun s i => if s.hasRegulated i then s.regulate i else s) s2
    ({ s3 with power := { s3.power with tolerance := s3.tolerance ltr } } : State).leaveForbidden.drainTrace)

/-! ## Power states (R69 to R73) -/

/-- Does the entry condition of a power state hold, but for the times it must have held (Table 3.4). -/
def State.entryHolds (s : State) (k : Nat) : Bool :=
  if k = 1 then !s.arithWork
  else if k = 2 then
    !s.arithWork && (s.mem.all fun kv => !kv.2.busy) && s.otags.all (fun kv => kv.2.reserved) && s.heldOps.isEmpty &&
    (s.hosts.all fun kv => kv.2.dma.isEmpty && kv.2.dmaWaiting.isEmpty) &&
    (s.links.all fun kv => kv.2.queued = 0 && kv.2.rx.isEmpty && kv.2.fs.partialRx.isEmpty) && s.chips.all fun kv => !kv.2.hasWork && kv.2.rx.isEmpty && kv.2.fs.partialRx.isEmpty
  else (s.queues.all fun kv => kv.2.tail = kv.2.head && kv.2.fetched.isNone) && s.cmds.isEmpty && s.waiters.isEmpty

/-- POWER_STATE_ENTRY (R69): the next deeper state, where it is permitted and its condition holds; S2 waits for the idle
handshake of every link in state 4 and the standby handshake of every port in state 4. -/
def execPowerStateEntry (s : State) : Host.Outcome State Fault Refusal :=
  doneS (s.whenRunning fun s =>
    let k := s.power.state + 1
    if 3 < k || s.power.exiting.isSome || s.power.entering.isSome || !s.permitted k || !s.entryHolds k then s
    else if k ≠ 2 then ({ s with power := { s.power with state := k } } : State).stateTrace 8 0 s.power.state k
    else
      let s1 : State := { s with power := { s.power with entering := some 2 } }
      let s2 := (List.range s.cfg.links).foldl (fun s l =>
        if (s.link l).state = 4 && !(s.link l).idleSent then (s.sendOn l { mtype := 0x32, src := s.memberField }).modLink l fun k => { k with idleSent := true } else s) s1
      ((List.range s.cfg.chipPorts).foldl (fun s c => s.sendStandby c) s2).entryCheck)

/-- WAKE_EVENT (R72): an exit to S0 begins, or an entry is abandoned, whatever the cause. -/
def execWakeEvent (_ : WakeCause) (s : State) : Host.Outcome State Fault Refusal := doneS (s.whenAlive fun s => s.beginExit)

/-- The session slots of a host port. -/
def State.slotsOf (s : State) (h : Nat) : List Nat := (s.slots.filter fun kv => kv.2.held && kv.2.port = h).map (·.1)

/-- A function-level reset (R316, R481): the contexts of the function's TDI are reset and it is unlocked; function 0 does so for
every TDI of the port and ends its sessions. hp_flr_done follows the last reset. -/
def State.functionReset (s : State) (h fn : Nat) : State :=
  let s1 := if fn = 0 then (s.slotsOf h).foldl (fun s k => s.endHostSession k) s else s
  let mine := (s1.tdis.filter fun kv => if fn = 0 then kv.1 / 256 = h else kv.1 = tdiKey h (fn - 1)).map (·.1)
  let s2 := mine.foldl (fun s k => ((s.leaveRun k).resetBound (s.tdi k)).modTdi k fun t => if fn = 0 then (if t.stopping then t else t.unlocked) else { (if t.stopping then t else t.unlocked) with flr := true }) s1
  if fn = 0 then (s2.modHost h fun p => { p with flr := true }).tdiSettle
  else if mine.isEmpty then s2.emit (.flrDone h fn)
  else s2.tdiSettle

/-- What waited for S0 acts (R68, R73): function-level resets and the fencing of partitions. -/
def State.settleDue (s : State) : State :=
  let s1 := s.power.fenceDue.foldl (fun s p => s.fenceNow p) ({ s with power := { s.power with flrDue := [], fenceDue := [] } } : State)
  s.power.flrDue.foldl (fun s x => if (s.host x.1).inReset then s else s.functionReset x.1 x.2) s1

/-- EXIT_COMPLETE (R69): the state that the block moves to is reached; links and chiplet ports resume where their clock runs in it, and in S0 what
waited for it acts. -/
def execExitComplete (s : State) : Host.Outcome State Fault Refusal :=
  doneS (s.whenAlive fun s => match s.power.exiting with
    | none => s
    | some k =>
      let p := s.power
      let exits := if k = 0 && p.state ≠ 0 then sat32 (p.exits + 1) else p.exits
      let s1 : State := { s with power := { p with state := k, exiting := none, exits := exits }, records := { s.records with resumed := if 2 ≤ p.state then s.loc else s.records.resumed, gap := s.records.gap || decide (2 ≤ p.state) } }
      let s2 := s1.stateTrace 8 0 p.state k
      let s3 := if 2 ≤ k then s2 else (List.range s.cfg.chipPorts).foldl (fun s c => s.resumeChip c) ((List.range s.cfg.links).foldl (fun s l => s.resumeLink l) s2)
      if k = 0 then s3.settleDue else s3)

/-! ## Resets of ports and functions (R65, R66, R316) -/

/-- Assertion of a port's physical reset: it acts at once and nothing is drained. A keyed link goes to state 0, as Table 10.6 has it;
whether that is a link failure with a code and a count in 0x3207, as R260 can be read, is left open, and the model makes it none
(DESIGN CHOICE, log entry 111). -/
def State.portReset (s : State) (k : ResetPort) (i : Nat) : State :=
  match k with
  | .chiplet => (s.chipReset i).modChip i fun c => { c with inReset := true, stateReq := 0, modules := 0, palette := {}, holdoff := false }
  | .link =>
    let st := if (s.link i).state = 7 then 7 else 0
    ((s.linkDrop i st).modLink i fun l => { l with inReset := true, pcsUp := false, holdoff := false }).joinLost i
  | .host => ((s.slotsOf i).foldl (fun s k => s.endHostSession k) s).modHost i fun h =>
      { h with inReset := true, cfg := [], doeIn := [], doeObject := [], doeAt := none, doeRead := 0, dma := h.dma.map fun d => (d.1, { d.2 with lost := true }) }

/-- Release of a port's physical reset. -/
def State.portRelease (s : State) (k : ResetPort) (i : Nat) : State :=
  match k with
  | .chiplet => s.modChip i fun c => { c with inReset := false, stateReq := 1 }
  | .link => if (s.link i).inReset then s.modLink i fun l => { l with inReset := false, trainReq := l.state ≠ 7 } else s
  | .host =>
    let s1 := s.modHost i fun h => { h with inReset := false }
    (s1.tdis.filter fun kv => kv.1 / 256 = i && (kv.2.state = 1 || kv.2.state = 2)).foldl (fun s kv => s.tdiError kv.1 0x400B) s1

/-- Is a port of a kind present. -/
def State.hasPort (s : State) (k : ResetPort) (i : Nat) : Bool :=
  match k with
  | .chiplet => decide (i < s.cfg.chipPorts)
  | .link => decide (i < s.cfg.links)
  | .host => decide (i < s.cfg.hostPorts)

/-- The level of a port's reset input, and of what the reset takes with it, while the block itself is held in reset. -/
def State.resetLevel (s : State) (k : ResetPort) (i : Nat) (low : Bool) : State :=
  match k with
  | .chiplet => s.modChip i fun c => { c with inReset := low, modules := if low then 0 else c.modules }
  | .link => s.modLink i fun l => { l with inReset := low, pcsUp := l.pcsUp && !low }
  | .host => s.modHost i fun h => { h with inReset := low }

/-- PORT_PHYSICAL_RESET: in S2 and S3 too, without an exit (R68). -/
def execPortPhysicalReset (k : ResetPort) (i : Nat) (s : State) : Host.Outcome State Fault Refusal :=
  s.levelRow (s.hasPort k i) (fun s => s.resetLevel k i true) fun s => s.portReset k i

/-- PORT_RESET_RELEASE. -/
def execPortResetRelease (k : ResetPort) (i : Nat) (s : State) : Host.Outcome State Fault Refusal :=
  s.levelRow (s.hasPort k i) (fun s => s.resetLevel k i false) fun s => s.portRelease k i

/-- FUNCTION_LEVEL_RESET: one asked for in S1 to S3 waits until the block is in S0 (R68); a port in reset takes none (R40). -/
def execFunctionLevelReset (h fn : Nat) (s : State) : Host.Outcome State Fault Refusal :=
  withUnit (decide (h < s.cfg.hostPorts ∧ fn ≤ 256)) (doneS (if !(s.alive && s.faults.phase = 0) || (s.host h).inReset then s
    else if s.power.state = 0 then s.beginExit.functionReset h fn
    else ({ s with power := { s.power with flrDue := s.power.flrDue.filter (· ≠ (h, fn)) ++ [(h, fn)] } } : State).beginExit))

end Sys2Proof.Machine
end

