-- ==== Sys2Proof/Machine/DictWrite.lean ====
section
/-! DEFINITION. Sys2Proof/Machine/DictWrite.lean: dictionary writes by index and subindex: the settings with their ranges, and the
way to the operation of every entry that does more (R460, R463; the entry tables of the chapters). -/
namespace Sys2Proof.Machine

/-- The range of a setting that only holds its value: least, greatest, and whether 0 is allowed beside it. -/
def settingRange (c : Config) (i j : Nat) : Option (Nat × Nat × Bool) :=
  match i, j with
  | 0x1102, 5 => some (10, 3600, false)
  | 0x1130, 1 => some (10, 600, false)
  | 0x1130, 2 => some (10, 3600, false)
  | 0x1210, 1 => some (0, 0xFFFFFFFF, false)
  | 0x1210, 2 => some (0, 3, false)
  | 0x2120, 1 => some (1, 64, false)
  | 0x2120, 2 => some (0, 1, false)
  | 0x2230, 1 => some (1, 255, false)
  | 0x2310, 2 => some (0, 64, false)
  | 0x2320, 1 => some (10, 1000000, false)
  | 0x2320, 2 => some (1, 10000, false)
  | 0x3101, _ => some (10, 100, false)
  | 0x3210, 2 => some (1, 2592000, true)
  | 0x3210, 3 => some (10, 60000, false)
  | 0x3210, 4 => some (1, 600000, false)
  | 0x3210, 5 => some (2, 1000, false)
  | 0x3210, 6 => some (1, 500, false)
  | 0x3221, _ => some (0, 0xFFFFFFFF, false)
  | 0x3230, 1 => some (5, 500, false)
  | 0x3230, 2 => some (0, 1, false)
  | 0x3230, 3 => some (1024, 131072, false)
  | 0x3305, 1 => some (1, 600000, false)
  | 0x3305, 2 => some (10, 60000, false)
  | 0x3305, 3 => some (1, 2592000, true)
  | 0x4020, 1 => some (1024, 1048576, false)
  | 0x5020, 1 => some (1, 100, false)
  | 0x5130, _ => some (1024, c.tlb2, false)
  | 0x5250, 1 => some (1, 50, false)
  | 0x6001, 1 => some (0, 65535, false)
  | 0x6001, 2 => some (0, 2, false)
  | 0x6001, 3 => some (0, 1, false)
  | 0x6010, 1 => some (100, 1000000, false)
  | 0x6010, 2 => some (0, 1000, false)
  | 0x6101, 1 => some (10, 1000000, false)
  | 0x7002, 1 => some (0, 65535, false)
  | _, _ => none

/-- Is the port or partition of a setting absent: a write of it is refused (R463). -/
def absentSetting (c : Config) (i j : Nat) : Bool :=
  absentPort c i j || (i = 0x5130 && decide (c.partitions < j)) || (i = 0x7002 && decide (j = 3 && c.links = 0))

/-- A write of a setting that only holds its value; a deepest permitted state below the current one is left at once (R70). -/
def State.plainWrite (s : State) (i j v : Nat) : Except Nat State :=
  match settingRange s.cfg i j with
  | none => .error 0x0609
  | some (lo, hi, zero) =>
    if absentSetting s.cfg i j then .error 0x0609 else if decide (lo ≤ v ∧ v ≤ hi) || (zero && v = 0) then .ok (if i = 0x1210 && j = 2 then (s.setSetting i j v).leaveForbidden else if i = 0x5130 then (s.setSetting i j v).trim2 (j - 1) else s.setSetting i j v) else .error 0x0609

/-- A write of the mode or of the installed size of a memory port (R194, R227): only while it is unformatted. -/
def State.memSetting (s : State) (i j v : Nat) : Except Nat State :=
  if s.cfg.memPorts < j then .error 0x0609
  else if (s.port (j - 1)).state ≠ 1 then .error 0x0801
  else if i = 0x3001 && !(v = 1 || (v = 2 && bit s.cfg.tagPermit.toNat (j - 1))) then .error 0x0609
  else .ok (s.setSetting i j v)

/-- A write of the automatic interval (R242): 0, for none, in tree mode only. -/
def State.intervalWrite (s : State) (j v : Nat) : Except Nat State :=
  if s.cfg.memPorts < j || 2592000 < v || (v = 0 && s.setting 0x3001 j = 2) then .error 0x0609 else .ok (s.setSetting 0x3102 j v)

/-- A write of the level (R271). -/
def State.levelSet (s : State) (v : Nat) : Except Nat State :=
  if s.links.any fun kv => kv.2.state = 3 || kv.2.state = 4 then .error 0x0801 else .ok (s.setSetting 0x3210 1 v)

/-- A write of 256 staging route entries from the base (Table 10.12). -/
def State.stagingWrite (s : State) (b : Bytes) : State :=
  let base := s.setting 0x3220 1
  { s with stagingRoutes := (chunks 2 (padTo 512 b)).zipIdx.foldl (fun t x => tblSet t (base + x.2) (leNat x.1) 0) s.stagingRoutes }

/-- A write of the object table's size (R386): only while every context is free. -/
def State.objectsWrite (s : State) (v : Nat) : Except Nat State :=
  if s.ctxs.any fun kv => kv.2.state ≠ 0 then .error 0x0801
  else if v < 65536 || 16777216 < v then .error 0x0609 else .ok (s.setSetting 0x5010 1 v)

/-- A write of the snapshot region (R496). -/
def State.snapshotRegion (s : State) (v : Nat) : Except Nat State :=
  let v1 := v % 8 + v / 256 % 256 * 256
  if v1 ≠ 0 && (s.systemRegion v1).isNone then .error 0x0609 else .ok (s.setSetting 0x6020 1 v1)

/-- Writes of entries below 0x3000. -/
def State.writeLow (s : State) (role : Role) (i j v : Nat) (b : Bytes) : Except Nat State :=
  match i, j with
  | 0x1101, 1 => s.targetWrite v role
  | 0x1101, 2 => s.confirmWrite v
  | 0x1101, 5 => s.secretWrite v
  | 0x1101, 6 => s.serialWrite v
  | 0x1101, 7 => s.digestWrite b
  | 0x1102, 1 => s.debugWrite v role
  | 0x1102, 3 => .ok (s.modLife fun l => { l with response := padTo 8192 b })
  | 0x1110, _ => .ok (s.setSetting i j (leNat (padTo 48 b)))
  | 0x1111, _ => .ok (s.setSetting i j (leNat (padTo 48 b)))
  | 0x2020, _ => s.formatWrite2 i j v
  | 0x2030, _ => s.formatWrite2 i j v
  | 0x2310, 1 => .ok (s.setSetting i j (v % 8))
  | _, _ => s.plainWrite i j v

/-- Writes of memory, link and port entries. -/
def State.writePorts (s : State) (role : Role) (i j v : Nat) (b : Bytes) : Except Nat State :=
  if 0x3020 ≤ i && i ≤ 0x3027 then s.regionWrite (i - 0x3020) j b role
  else if 0x3330 ≤ i && i ≤ 0x3337 then s.tdiWrite i j b
  else match i, j with
    | 0x3001, _ => s.memSetting i j v
    | 0x3002, _ => s.memSetting i j v
    | 0x3004, _ => s.formatWrite (j - 1) v
    | 0x3030, _ => s.scrubWrite (j - 1) v
    | 0x3102, _ => s.intervalWrite j v
    | 0x3103, _ => s.sweepQueue (j - 1) v
    | 0x3210, 1 => s.levelSet v
    | 0x3211, _ => s.linkWrite (j - 1) v
    | 0x3220, 1 => if v % 256 ≠ 0 then .error 0x0609 else .ok (s.setSetting i j v)
    | 0x3220, 2 => .ok (s.stagingWrite b)
    | 0x3220, 3 => if 2 ≤ v then .error 0x0609 else .ok (if v = 1 then s.routeCommit else s)
    | 0x3301, _ => s.bindWrite (j - 1) v
    | 0x3303, _ => .ok (s.setSetting i j (leNat (padTo 48 b)))
    | 0x3304, _ => .ok (s.setSetting i j (leNat (padTo 48 b)))
    | _, _ => s.plainWrite i j v

/-- Writes of attestation, queue, translation and partition entries. -/
def State.writeObjects (s : State) (i j v : Nat) (b : Bytes) : Except Nat State :=
  if 0x5080 ≤ i && i ≤ 0x50FF then s.contextWrite (128 * (i - 0x5080) + j - 1) b
  else if 0x5210 ≤ i && i ≤ 0x523B then s.minWrite (i - 0x5210) (j - 1) v
  else match i, j with
    | 0x4120, _ => s.chainWrite (j = 2) b
    | 0x4130, 1 => s.offsetWrite v
    | 0x4130, 2 => s.blockWrite b
    | 0x4130, 3 => s.firmwareWrite v
    | 0x4140, _ => .ok (s.setSetting i j (leNat (padTo 48 b)))
    | 0x4141, _ => .ok (s.setSetting i j (leNat (padTo 48 b)))
    | 0x5010, _ => s.objectsWrite v
    | 0x5110, _ => s.transWrite (j - 1) b
    | 0x5120, _ => s.mapWrite b
    | 0x5200, _ => s.partWrite (j - 1) b
    | _, _ => s.plainWrite i j v

/-- Writes of fault, alarm, record and bring-up entries. -/
def State.writeHigh (s : State) (role : Role) (i j v : Nat) (b : Bytes) : Except Nat State :=
  match i, j with
  | 0x6020, _ => s.snapshotRegion v
  | 0x6040, 1 => s.abortWrite v
  | 0x6040, _ => s.faultWrite v
  | 0x6100, _ => s.alarmWrite j v
  | 0x6102, _ => s.releaseWrite v
  | 0x6110, _ => s.arm b (some role)
  | 0x6210, _ => s.harvestSetting j v
  | 0x6211, _ => s.harvestListWrite j v
  | 0x6212, _ => s.harvestSelect v
  | 0x6220, _ => s.traceWrite i j v
  | 0x6221, _ => s.traceWrite i j v
  | 0x7001, _ => s.gateWrite v
  | 0x7002, 2 => s.domainWrite v
  | 0x7002, 3 => if v < s.cfg.links then .ok (s.setSetting i j v) else .error 0x0609
  | 0x7003, _ => .ok (s.setSetting i j (v % 2 ^ 21 + v / 2 ^ 31 % 2 * 2 ^ 31))
  | _, _ => s.plainWrite i j v

/-- The effect of a write on any writable entry, by its own checks. -/
def State.writeEffect (role : Role) (i j : Nat) (b : Bytes) (s : State) : Except Nat State :=
  let v := leNat b
  if i < 0x3000 then s.writeLow role i j v b
  else if i < 0x4000 then s.writePorts role i j v b
  else if i < 0x6000 then s.writeObjects i j v b
  else s.writeHigh role i j v b

/-- DICTIONARY_WRITE. -/
def execDictionaryWrite (m : Mgmt) (d : DictMsg) (s : State) : Host.Outcome State Fault Refusal :=
  s.mgmtRow fun s =>
    let f := formCheck d d.length
    if f ≠ 0 then s.endWrite m d.index d.sub d.data (s.roleOf m) (s.keyIdOf m) f
    else (s.dictSegment m d.index d.sub d.offset d.last d.data (State.writeEffect (s.roleOf m) d.index d.sub)).dropRoles

end Sys2Proof.Machine
end

