-- ==== Sys2Proof/Machine/FabricRows.lean ====
section
/-! DEFINITION. Sys2Proof/Machine/FabricRows.lean: the messages of the fabric at their home and at their issuer, combining,
timeouts and the invalidate command (R176 to R187, R250, R261, R274 to R289). -/
namespace Sys2Proof.Machine

/-! ## Requests at the home -/

/-- Is a message dropped before this hub acts on it (R261): removal of its partition has begun here, or its PGEN is not
this hub's. A chunk carries no PGEN. -/
def State.msgStale (s : State) (m : Msg) : Bool := s.removing m.part || (m.mtype ≠ 0 && m.pgen ≠ s.pgenOf m.part)

/-- What a request of a link asks for (Table 10.3), and whether it asks for data. -/
def linkAccess (m : Msg) : Access × Bool :=
  match m.mtype with
  | 0x01 => (.load, true)
  | 0x02 => (.store m.body, false)
  | 0x03 => (normalAccess (.partialStore (leNat (m.body.take 16)) (m.body.drop 16)), false)
  | _ => let u := atomicUnit m.body; (.atomic u.1 u.2.1 (m.addr % 128) u.2.2.2, u.2.2.1)

/-- Serve the request of a type that heads a link's VC0 (R274, R279): it waits at its line's order point, judged by the
class its issuer carries. -/
def State.homeRequest (s : State) (l t : Nat) : State :=
  match s.takeLinkMsg l t with
  | none => s
  | some (m, s1) =>
    let a := linkAccess m
    let asker := s1.askerOf l m a.2
    let w := m.addr / 2 ^ 43
    if s1.msgStale m then s1.dropMsg l 0x2009 m
    else if !atomicOk a.1 then s1.reply asker .format 0x2023 []
    else if 8 ≤ w then (s1.error 8 0 (some m.part) 0x7008 m.addr).reply asker .access 0x7008 (failData a.1)
    else if s1.cfg.memPorts ≤ w then (s1.error 0 w (some m.part) 0x100B m.addr).reply asker .access 0x100B (failData a.1)
    else s1.lineAccept w ⟨m.addr % 2 ^ 43 / 128 * 128, a.1, m.part, clsOfCode m.cls, l, asker, 0, true, 0⟩

/-- READ (R274). -/
def execRead (p : FramePort) (s : State) : Host.Outcome State Fault Refusal :=
  s.frameRow p (fun l s => s.homeRequest l 0x01) fun c s => s.chipRequestGo c 0x01

/-- WRITE (R274, R280). -/
def execWrite (p : FramePort) (s : State) : Host.Outcome State Fault Refusal :=
  s.frameRow p (fun l s => s.homeRequest l 0x02) fun c s => s.chipRequestGo c 0x02

/-- WRITE_PARTIAL (R274). -/
def execWritePartial (p : FramePort) (s : State) : Host.Outcome State Fault Refusal :=
  s.frameRow p (fun l s => s.homeRequest l 0x03) fun c s => s.chipRequestGo c 0x03

/-- ATOMIC (R281). -/
def execAtomic (p : FramePort) (s : State) : Host.Outcome State Fault Refusal :=
  s.frameRow p (fun l s => s.homeRequest l 0x04) fun c s => s.chipRequestGo c 0x04

/-- INVALIDATE_MESSAGE (R287): the lines in scope go, fills in flight are not installed, and the answer is OK. -/
def execInvalidateMessage (l : Nat) (s : State) : Host.Outcome State Fault Refusal :=
  s.linkRow l fun s => match s.takeLinkMsg l 0x05 with
    | none => s
    | some (m, s1) =>
      if s1.msgStale m then s1.dropMsg l 0x2009 m
      else (s1.invalidateScope m.part (m.addr % 2 ^ 16) (bits m.addr 43 16) (bits m.addr 47 44)).reply (s1.askerOf l m false) .ok 0 []

/-! ## Responses at the issuer (R278, R283, R289) -/

/-- Does a response answer an outstanding operation: its kind is one that the operation's answer may have. -/
def Otag.answeredBy (o : Otag) (t code : Nat) : Bool :=
  !o.reserved && (match t with
    | 0x10 => (match o.acc with | .load => !o.inval | _ => false)
    | 0x12 => (match o.acc with | .atomic _ _ _ _ => o.ret | _ => false)
    | _ => code ≠ 0 || o.inval || (match o.acc with | .load => false | .atomic _ _ _ _ => !o.ret | _ => true))

/-- The value that ATOMIC_DATA carries for an operation. -/
def atomicData (o : Otag) (b : Bytes) : Bytes :=
  match o.acc with | .atomic _ wide _ _ => b.take (if wide then 8 else 4) | _ => b

/-- Take the response of a type that heads a link's VC1: one that no outstanding operation expects is discarded (R289). -/
def State.responseGo (s : State) (l t : Nat) (f : Otag → Msg → Result) : State :=
  match s.takeLinkMsg l t with
  | none => s
  | some (m, s1) =>
    if s1.msgStale m then s1.dropMsg l 0x2009 m
    else
      let s2 := s1.freeUnits l 1 m.units 0
      match tblFind s2.otags m.otag with
      | some o => if o.answeredBy t (m.addr % 2 ^ 8) then s2.otagDone m.otag (f o m) else (s2.error 2 l (some m.part) 0x2021 m.otag).bump 0x3240 5
      | none => (s2.error 2 l (some m.part) 0x2021 m.otag).bump 0x3240 5

/-- READ_DATA. -/
def execReadData (l : Nat) (s : State) : Host.Outcome State Fault Refusal :=
  s.linkRow l fun s => s.responseGo l 0x10 fun _ m => ⟨.ok, 0, m.body⟩

/-- COMPLETION. -/
def execCompletion (l : Nat) (s : State) : Host.Outcome State Fault Refusal :=
  s.linkRow l fun s => s.responseGo l 0x11 fun _ m => ⟨codeOf (m.addr % 2 ^ 8), bits m.addr 23 8, []⟩

/-- ATOMIC_DATA. -/
def execAtomicData (l : Nat) (s : State) : Host.Outcome State Fault Refusal :=
  s.linkRow l fun s => s.responseGo l 0x12 fun o m => ⟨.ok, 0, atomicData o m.body⟩

/-! ## Chunks (R176 to R180, R250) -/

/-- CHUNK_ACK (R250, R261): the record is released, and every sender of what it joined is acknowledged. -/
def execChunkAck (l : Nat) (s : State) : Host.Outcome State Fault Refusal :=
  s.linkRow l fun s => match s.takeLinkMsg l 0x13 with
    | none => s
    | some (m, s1) =>
      if s1.msgStale m then s1.dropMsg l 0x2009 m else
      let s2 := s1.freeUnits l 1 m.units 0
      match s2.chunkRecs.find? fun r => r.link = l && r.header = (m.body.drop 1).take 15 with
      | none => s2
      | some r =>
        r.froms.foldl (fun s f => s.ackChunk f (codeOf (leNat (m.body.take 1)))) { s2 with chunkRecs := s2.chunkRecs.erase r }

/-- Serve the chunk that heads a link's VC0, in its partition's turn at the lanes (R170): its buffer returns at once, and so does its operation credit where it leaves or is folded
(R180, R253); it is accepted, held or refused at its home, and goes on elsewhere. -/
def State.linkChunk (s : State) (l : Nat) : State :=
  match s.takeLinkMsg l 0 with
  | none => s
  | some (m, s1) =>
    if !s.computing then s.beginExit
    else if !s.lanesFor m.part then s.takeEarly
    else if s1.msgStale m then s1.dropMsg l 0x2009 m
    else
      let s2 := (s1.freeUnits l 0 m.units 0).lanesServed m.part
      let k := chunkOf m.body
      let f : ChunkFrom := .link l (s2.link l).sess (m.body.take 15)
      let s3 := if k.home = s2.memberField then s2.chunkArrive k f else s2.chunkForward (some l) k f
      -- a chunk held as it is for its slot has not left yet, and keeps its operation credit (R253)
      (if s3.early.length = s2.early.length || (s3.early.getLast?.any fun x => x.acc.isSome) then s3.freeUnits l 0 0 1 else s3).takeEarly

/-- CHUNK. -/
def execChunk (p : FramePort) (s : State) : Host.Outcome State Fault Refusal :=
  s.frameRow p (fun l s => s.linkChunk l) fun c s => s.chipChunk c

/-! ## Combining (R185, R186) -/

/-- COMBINING_WINDOW_EXPIRY (R185). -/
def execCombiningWindowExpiry (e : Nat) (s : State) : Host.Outcome State Fault Refusal :=
  doneS (s.whenClocked fun s => match tblFind s.comb e with
    | some c => if c.kind = 0 then { s with comb := tblPut s.comb e { c with closed := true } } else s
    | none => s)

/-- An atomic entry departs as one operation under an OTAG of this hub (R186); it closes the read entries of its line (R185). -/
def State.departAtomic (s : State) (e : Nat) (c : Comb) : State :=
  let dst := homeOf c.addr
  let line := c.addr % 2 ^ 48 / 128 * 128
  let o : Otag := { acc := .atomic c.op c.wide (c.addr % 128) c.operand, dst, line, part := c.part, ret := c.joiners.any (·.ret), source := srcEntry, cls := clsOfCode c.msg.cls, entry := some e, noInstall := true }
  match s.takeOtag o with
  | none => s
  | some (k, s1) =>
    let m := { s1.opMsg o k with cls := c.msg.cls }
    ((({ s1 with comb := tblPut s1.comb e { c with departed := true } } : State).passes m).sendToward c.arrived m).releaseHeld

/-- COMBINED_DEPARTURE (R179, R186): a waiting entry departs where its link grants a credit. -/
def execCombinedDeparture (e : Nat) (s : State) : Host.Outcome State Fault Refusal :=
  doneS (s.whenClocked fun s => match tblFind s.comb e with
    | none => s
    | some c =>
      if c.kind = 2 then
        (match s.routeOf c.arrived c.chunk.home false with
          | some l => if (s.link l).grants (chunkUnits (chunkBytes c.chunk)) then s.departChunk e else s
          | none => s.departChunk e)
      else if c.kind = 1 && !c.departed then
        (match s.routeOf c.arrived (homeOf c.addr) false with
          | some l => if (s.link l).grants 2 then s.departAtomic e c else s
          | none => s.departAtomic e c)
      else s)

/-- A held message leaves on its new route (R271): what it held of its receive buffer returns; one of a partition whose removal has begun
here meanwhile is dropped (R261). -/
def State.routeLeave (s : State) (x : RouteHeld) : State :=
  let back := fun (s : State) => match x.back with
    | some b => s.freeHeld b.1 b.2 (mtypeVc x.msg.mtype) x.msg.units (bn (mtypeVc x.msg.mtype = 0))
    | none => s
  if x.msg.mtype = 0 then s.chunkLeave x.arrived x.msg x.froms
  else match x.back with
    | some b => if s.removing x.msg.part && (s.link b.1).sess = b.2 then s.dropMsg b.1 0x2009 x.msg else (back s).sendToward x.arrived x.msg
    | none => s.sendToward x.arrived x.msg

/-- ROUTE_HOLD_EXPIRY (R271): the held messages leave on their new routes, in order. -/
def execRouteHoldExpiry (s : State) : Host.Outcome State Fault Refusal :=
  doneS (s.whenClocked fun s => s.routeHold.foldl (fun s x => s.routeLeave x) { s with routeHold := [], routeHeld := [] })

/-! ## Timeouts (R288, R289) -/

/-- FABRIC_TIMEOUT (R288, R287): the operation completes with TIMEOUT, its OTAG stays reserved; of one that a reset has ended it is only
noted (R67). -/
def execFabricTimeout (otag : Nat) (s : State) : Host.Outcome State Fault Refusal :=
  doneS (s.whenClocked fun s => match tblFind s.otags otag with
    | none => s
    | some o =>
      if o.reserved then { s with otags := tblPut s.otags otag { o with timed := true } }
      else
        let s1 := s.otagTimeout otag o
        (match o.entry with | some e => s1.entryTimeout e o.acc | none => s1).releaseHeld)

/-- OTAG_RELEASE (R289). -/
def execOtagRelease (otag : Nat) (s : State) : Host.Outcome State Fault Refusal :=
  doneS (s.whenClocked fun s => match tblFind s.otags otag with
    | some o => if o.reserved then ({ s with otags := tblDel s.otags otag } : State).releaseHeld else s
    | none => s)

/-! ## The invalidate command (R286, R287) -/

/-- Send one INVALIDATE of a command to a target, given with its place in the list: this hub serves itself; one without a route ends the command with ACCESS;
a hub with no free OTAG waits. -/
def State.invalTarget (s : State) (id : Nat) (x : Nat × Nat) : State :=
  let t := x.1
  let c := s.cmd id
  let d := c.desc
  let s1 := s.modCmd id fun c => { c with done := c.done + 1 }
  if c.fail.isSome || c.done ≠ x.2 then s
  else if s.bring.member && t = s.memberField then s1.invalidateScope c.part (iHome d) (iBase d) (iScope d)
  else if !s.routed t then s1.cmdFail id .access 0x200A
  else
    let o : Otag := { inval := true, dst := t, part := c.part, ctx := some c.ctx, source := srcQueue c.q, reply := .cmdWrite id, ret := false, cls := 12 }
    match s1.takeOtag o with
    | none => s
    | some (k, s2) =>
      let m : Msg := { mtype := 0x05, addr := iHome d + iBase d * 2 ^ 16 + iScope d * 2 ^ 44, src := s.bring.memberId, dst := t, otag := k, part := c.part, pgen := s.pgenOf c.part }
      ((s2.modCmd id fun c => { c with writes := c.writes + 1 }).passes m).sendToward none m

/-- The targets of a command from its list. -/
def Cmd.targets (c : Cmd) (dev : Nat) : List Nat := (List.range (iTargets c.desc)).map fun i => leNat (c.bytes (dev + 2 * i) 2)

/-- INVALIDATE_COMMAND: the list is read, this hub's own lines go where SELF is set, and each target is asked once. -/
def State.invalidateStep (s : State) (id : Nat) : State :=
  let c := s.cmd id
  let d := c.desc
  let n := iTargets d
  let dev := c.objDev 128 (oAt d 128)
  if (tblFind s.cmds id).isNone || c.opcode ≠ 0x27 || c.phase ≠ 1 || c.stage = 99 then s
  else if c.fail.isSome then s.cmdCheck id
  else if n ≠ 0 && !c.has dev (2 * n) then s.cmdLoadRange id 12 bufQueues dev (2 * n)
  else
    let s1 := if c.stage = 0 && bit d 205 then s.invalidateScope c.part (iHome d) (iBase d) (iScope d) else s
    let s2 := (c.targets dev).zipIdx.foldl (fun s x => s.invalTarget id x) (s1.modCmd id fun c => { c with stage := 1 })
    if n ≤ (s2.cmd id).done then s2.cmdIssued id else s2

/-- INVALIDATE_COMMAND. -/
def execInvalidateCommand (cmd : Nat) (s : State) : Host.Outcome State Fault Refusal := s.work fun s => s.invalidateStep cmd

end Sys2Proof.Machine
end

