-- ==== Sys2Proof/Machine/Dispatch.lean ====
section
/-! DEFINITION. Sys2Proof/Machine/Dispatch.lean: one arm per command, each a direct call of its meaning. -/
namespace Sys2Proof.Machine

/-- The effect of a command on everything but the queue of waiting commands. -/
def exec (i : Instr) (s : State) : Host.Outcome State Fault Refusal :=
  match i with
  -- resets, power, regulation, alarms (chapters 3, 17, 20, 21)
  | .powerOnReset entropy image => Sys2Proof.Machine.execPowerOnReset entropy image s
  | .blockReset entropy => Sys2Proof.Machine.execBlockReset entropy s
  | .portPhysicalReset k idx => Sys2Proof.Machine.execPortPhysicalReset k idx s
  | .portResetRelease k idx => Sys2Proof.Machine.execPortResetRelease k idx s
  | .functionLevelReset h fn => Sys2Proof.Machine.execFunctionLevelReset h fn s
  | .powerStateEntry => Sys2Proof.Machine.execPowerStateEntry s
  | .wakeEvent w => Sys2Proof.Machine.execWakeEvent w s
  | .exitComplete => Sys2Proof.Machine.execExitComplete s
  | .regulationWindow derate ltr => Sys2Proof.Machine.execRegulationWindow derate ltr s
  | .alarmEvent a => Sys2Proof.Machine.execAlarmEvent a s
  | .alarmWindow => Sys2Proof.Machine.execAlarmWindow s
  | .releaseFencedPartition m p => Sys2Proof.Machine.execReleaseFencedPartition m p s
  | .debugPortAccess op => Sys2Proof.Machine.execDebugPortAccess op s
  -- memory ports (chapters 8, 9)
  | .lineRequestIssue port lane => Sys2Proof.Machine.execLineRequestIssue port lane s
  | .lineResponse port lane tag status data => Sys2Proof.Machine.execLineResponse port lane tag status data s
  | .lineBoundExpiry port lane tag => Sys2Proof.Machine.execLineBoundExpiry port lane tag s
  | .controllerUp port => Sys2Proof.Machine.execControllerUp port s
  | .controllerDown port => Sys2Proof.Machine.execControllerDown port s
  | .orderPointTake port line => Sys2Proof.Machine.execOrderPointTake port line s
  | .moveReadRetry port line => Sys2Proof.Machine.execMoveReadRetry port line s
  | .writeBack port addr => Sys2Proof.Machine.execWriteBack port addr s
  | .writeBackRetry port addr => Sys2Proof.Machine.execWriteBackRetry port addr s
  | .counterLineRetry port line => Sys2Proof.Machine.execCounterLineRetry port line s
  | .format m port value => Sys2Proof.Machine.execFormat m port value s
  | .formatComplete port => Sys2Proof.Machine.execFormatComplete port s
  | .regionCreate m port region record => Sys2Proof.Machine.execRegionCreate m port region record s
  | .regionInitComplete port => Sys2Proof.Machine.execRegionInitComplete port s
  | .regionRemove m port region record => Sys2Proof.Machine.execRegionRemove m port region record s
  | .regionRemovalDone port region => Sys2Proof.Machine.execRegionRemovalDone port region s
  | .regionScrub m port region => Sys2Proof.Machine.execRegionScrub m port region s
  | .scrubComplete port => Sys2Proof.Machine.execScrubComplete port s
  | .sweepQueue m port region => Sys2Proof.Machine.execSweepQueue m port region s
  | .automaticInterval port => Sys2Proof.Machine.execAutomaticInterval port s
  | .sweepStart port => Sys2Proof.Machine.execSweepStart port s
  | .readAhead port => Sys2Proof.Machine.execReadAhead port s
  | .readAheadRetry port line => Sys2Proof.Machine.execReadAheadRetry port line s
  | .edgeStep port => Sys2Proof.Machine.execEdgeStep port s
  | .sweepComplete port => Sys2Proof.Machine.execSweepComplete port s
  -- Spaek links (chapter 10)
  | .pcsUp l => Sys2Proof.Machine.execPcsUp l s
  | .pcsDown l laneFault => Sys2Proof.Machine.execPcsDown l laneFault s
  | .hello l => Sys2Proof.Machine.execHello l s
  | .helloTimer l => Sys2Proof.Machine.execHelloTimer l s
  | .linkAttestationStart l => Sys2Proof.Machine.execLinkAttestationStart l s
  | .frameReceived l beats fecErr => Sys2Proof.Machine.execFrameReceived l beats fecErr s
  | .plainFrame l beats => Sys2Proof.Machine.execPlainFrame l beats s
  | .nak p => Sys2Proof.Machine.execNak p s
  | .nakHoldoffExpiry p => Sys2Proof.Machine.execNakHoldoffExpiry p s
  | .frameTransmit l => Sys2Proof.Machine.execFrameTransmit l s
  | .keepalive p => Sys2Proof.Machine.execKeepalive p s
  | .silenceTimeout l => Sys2Proof.Machine.execSilenceTimeout l s
  | .keyUpdateStart p m => Sys2Proof.Machine.execKeyUpdateStart p m s
  | .keyUpdateComplete p => Sys2Proof.Machine.execKeyUpdateComplete p s
  | .linkBoundExpiry l => Sys2Proof.Machine.execLinkBoundExpiry l s
  | .attestationHoldoff l => Sys2Proof.Machine.execAttestationHoldoff l s
  | .linkIdle l => Sys2Proof.Machine.execLinkIdle l s
  | .linkIdleAck l => Sys2Proof.Machine.execLinkIdleAck l s
  | .wakeFrame l => Sys2Proof.Machine.execWakeFrame l s
  | .wakeRepeat l => Sys2Proof.Machine.execWakeRepeat l s
  | .wakeUnanswered l => Sys2Proof.Machine.execWakeUnanswered l s
  | .routeCommit m value => Sys2Proof.Machine.execRouteCommit m value s
  | .routeHoldExpiry => Sys2Proof.Machine.execRouteHoldExpiry s
  | .levelWrite m value => Sys2Proof.Machine.execLevelWrite m value s
  | .linkDisable m l value => Sys2Proof.Machine.execLinkDisable m l value s
  | .domainAbort l => Sys2Proof.Machine.execDomainAbort l s
  -- fabric messages and combining (chapters 7, 11)
  | .read p => Sys2Proof.Machine.execRead p s
  | .write p => Sys2Proof.Machine.execWrite p s
  | .writePartial p => Sys2Proof.Machine.execWritePartial p s
  | .atomic p => Sys2Proof.Machine.execAtomic p s
  | .invalidateMessage l => Sys2Proof.Machine.execInvalidateMessage l s
  | .readData l => Sys2Proof.Machine.execReadData l s
  | .completion l => Sys2Proof.Machine.execCompletion l s
  | .atomicData l => Sys2Proof.Machine.execAtomicData l s
  | .chunkAck l => Sys2Proof.Machine.execChunkAck l s
  | .chunk p => Sys2Proof.Machine.execChunk p s
  | .earlyArrivalExpiry idx => Sys2Proof.Machine.execEarlyArrivalExpiry idx s
  | .slotIdleExpiry slot => Sys2Proof.Machine.execSlotIdleExpiry slot s
  | .combiningWindowExpiry e => Sys2Proof.Machine.execCombiningWindowExpiry e s
  | .combinedDeparture e => Sys2Proof.Machine.execCombinedDeparture e s
  | .fabricTimeout otag => Sys2Proof.Machine.execFabricTimeout otag s
  | .otagRelease otag => Sys2Proof.Machine.execOtagRelease otag s
  -- queues, objects, contexts (chapter 15)
  | .ctxFaultClear h fn ctx w1c => Sys2Proof.Machine.execCtxFaultClear h fn ctx w1c s
  | .doorbell r q be value => Sys2Proof.Machine.execDoorbell r q be value s
  | .queueRead h fn ctx => Sys2Proof.Machine.execQueueRead h fn ctx s
  | .queueEnable h fn ctx => Sys2Proof.Machine.execQueueEnable h fn ctx s
  | .queueDisable h fn ctx => Sys2Proof.Machine.execQueueDisable h fn ctx s
  | .queueDisabled q => Sys2Proof.Machine.execQueueDisabled q s
  | .descriptorAccept q => Sys2Proof.Machine.execDescriptorAccept q s
  | .commandStart q => Sys2Proof.Machine.execCommandStart q s
  | .nop cmd => Sys2Proof.Machine.execNop cmd s
  | .fenceBase cmd => Sys2Proof.Machine.execFenceBase cmd s
  | .ctxReset cmd => Sys2Proof.Machine.execCtxReset cmd s
  | .objCreate cmd => Sys2Proof.Machine.execObjCreate cmd s
  | .objFree cmd => Sys2Proof.Machine.execObjFree cmd s
  | .freeQuiescence cmd => Sys2Proof.Machine.execFreeQuiescence cmd s
  | .fenceSignal q => Sys2Proof.Machine.execFenceSignal q s
  | .fenceReread q => Sys2Proof.Machine.execFenceReread q s
  | .fencePoll q => Sys2Proof.Machine.execFencePoll q s
  | .contextCreate m ctx record => Sys2Proof.Machine.execContextCreate m ctx record s
  | .contextUpdate m ctx record => Sys2Proof.Machine.execContextUpdate m ctx record s
  | .contextReset ctx => Sys2Proof.Machine.execContextReset ctx s
  | .contextResetDone ctx => Sys2Proof.Machine.execContextResetDone ctx s
  | .contextDestroy m ctx record => Sys2Proof.Machine.execContextDestroy m ctx record s
  | .partitionReset p => Sys2Proof.Machine.execPartitionReset p s
  | .partitionResetDone p => Sys2Proof.Machine.execPartitionResetDone p s
  -- engines (chapters 5, 6, 7)
  | .attentionStep cmd => Sys2Proof.Machine.execAttentionStep cmd s
  | .sliceBoundary au => Sys2Proof.Machine.execSliceBoundary au s
  | .shardMerge cmd => Sys2Proof.Machine.execShardMerge cmd s
  | .kvAppend cmd => Sys2Proof.Machine.execKvAppend cmd s
  | .sample cmd => Sys2Proof.Machine.execSample cmd s
  | .samplerDispatch sampler => Sys2Proof.Machine.execSamplerDispatch sampler s
  | .bridgeStream cmd => Sys2Proof.Machine.execBridgeStream cmd s
  | .bridgeLaneService c => Sys2Proof.Machine.execBridgeLaneService c s
  | .reduce cmd => Sys2Proof.Machine.execReduce cmd s
  | .merge cmd => Sys2Proof.Machine.execMerge cmd s
  | .invalidateCommand cmd => Sys2Proof.Machine.execInvalidateCommand cmd s
  -- translation and partitions (chapters 16, 17)
  | .translationRecordWrite m p record => Sys2Proof.Machine.execTranslationRecordWrite m p record s
  | .tableZeroingDone p => Sys2Proof.Machine.execTableZeroingDone p s
  | .map m record => Sys2Proof.Machine.execMap m record s
  | .unmap m record => Sys2Proof.Machine.execUnmap m record s
  | .mapDone => Sys2Proof.Machine.execMapDone s
  | .walk => Sys2Proof.Machine.execWalk s
  | .walkComplete p page => Sys2Proof.Machine.execWalkComplete p page s
  | .partitionCreate m p record => Sys2Proof.Machine.execPartitionCreate m p record s
  | .partitionResize m p record => Sys2Proof.Machine.execPartitionResize m p record s
  | .resizeComplete p => Sys2Proof.Machine.execResizeComplete p s
  | .partitionRemove m p record => Sys2Proof.Machine.execPartitionRemove m p record s
  | .removalComplete p => Sys2Proof.Machine.execRemovalComplete p s
  | .guaranteeWrite m index p value => Sys2Proof.Machine.execGuaranteeWrite m index p value s
  -- key store and general cipher engine (chapter 13)
  | .createDerived slot kind parent nonce gen => Sys2Proof.Machine.execCreateDerived slot kind parent nonce gen s
  | .createSeed slot kind parent nonce gen seed => Sys2Proof.Machine.execCreateSeed slot kind parent nonce gen seed s
  | .setNext slot seed => Sys2Proof.Machine.execSetNext slot seed s
  | .advance slot => Sys2Proof.Machine.execAdvance slot s
  | .invalidate slot => Sys2Proof.Machine.execInvalidate slot s
  | .retire slot => Sys2Proof.Machine.execRetire slot s
  | .setUse slot use => Sys2Proof.Machine.execSetUse slot use s
  | .readDir slot => Sys2Proof.Machine.execReadDir slot s
  | .kspStatusClear bits => Sys2Proof.Machine.execKspStatusClear bits s
  | .scrubberVisit => Sys2Proof.Machine.execScrubberVisit s
  | .masterReseed => Sys2Proof.Machine.execMasterReseed s
  | .childReseed child => Sys2Proof.Machine.execChildReseed child s
  | .drbgStop => Sys2Proof.Machine.execDrbgStop s
  | .randomRead m offset length => Sys2Proof.Machine.execRandomRead m offset length s
  | .gceKeysel leaf => Sys2Proof.Machine.execGceKeysel leaf s
  | .enc din => Sys2Proof.Machine.execEnc din s
  | .dec din => Sys2Proof.Machine.execDec din s
  | .ctrEnc din wide => Sys2Proof.Machine.execCtrEnc din wide s
  | .ghash din => Sys2Proof.Machine.execGhash din s
  | .loadH => Sys2Proof.Machine.execLoadH s
  | .shaInit => Sys2Proof.Machine.execShaInit s
  | .shaBlock blk => Sys2Proof.Machine.execShaBlock blk s
  | .drbg => Sys2Proof.Machine.execDrbg s
  | .shaClear => Sys2Proof.Machine.execShaClear s
  | .gceStatusClear bits => Sys2Proof.Machine.execGceStatusClear bits s
  -- SPDM (chapter 14)
  | .getVersion p => Sys2Proof.Machine.execGetVersion p s
  | .getCapabilities p => Sys2Proof.Machine.execGetCapabilities p s
  | .negotiateAlgorithms p supported => Sys2Proof.Machine.execNegotiateAlgorithms p supported s
  | .getCertificate p slot offset length => Sys2Proof.Machine.execGetCertificate p slot offset length s
  | .challenge p slot nonce => Sys2Proof.Machine.execChallenge p slot nonce s
  | .getMeasurements p index signed nonce => Sys2Proof.Machine.execGetMeasurements p index signed nonce s
  | .keyExchange p exchange => Sys2Proof.Machine.execKeyExchange p exchange s
  | .finish p verified => Sys2Proof.Machine.execFinish p verified s
  | .heartbeat p => Sys2Proof.Machine.execHeartbeat p s
  | .keyUpdate p => Sys2Proof.Machine.execKeyUpdate p s
  | .endSession p => Sys2Proof.Machine.execEndSession p s
  | .getPqSignature p => Sys2Proof.Machine.execGetPqSignature p s
  | .getPqChain p offset length => Sys2Proof.Machine.execGetPqChain p offset length s
  -- chiplet ports (chapter 12)
  | .chipletActive c modules => Sys2Proof.Machine.execChipletActive c modules s
  | .moduleLeavesActive c => Sys2Proof.Machine.execModuleLeavesActive c s
  | .chipletAdmissionStart c => Sys2Proof.Machine.execChipletAdmissionStart c s
  | .admission c declaration => Sys2Proof.Machine.execAdmission c declaration s
  | .admissionBoundExpiry c => Sys2Proof.Machine.execAdmissionBoundExpiry c s
  | .refusalHoldoffExpiry c => Sys2Proof.Machine.execRefusalHoldoffExpiry c s
  | .partitionBind m c p => Sys2Proof.Machine.execPartitionBind m c p s
  | .formatPermitWrite m index sub value => Sys2Proof.Machine.execFormatPermitWrite m index sub value s
  | .chipletFrame c beats => Sys2Proof.Machine.execChipletFrame c beats s
  | .chipletFrameTransmit c => Sys2Proof.Machine.execChipletFrameTransmit c s
  | .standbyAck c => Sys2Proof.Machine.execStandbyAck c s
  | .standbyAckTimeout c => Sys2Proof.Machine.execStandbyAckTimeout c s
  | .standbyRetry c => Sys2Proof.Machine.execStandbyRetry c s
  | .chipletWakeFrame c => Sys2Proof.Machine.execChipletWakeFrame c s
  | .chipletWakeTimeout c => Sys2Proof.Machine.execChipletWakeTimeout c s
  -- host ports (chapter 12)
  | .hostTlp h t => Sys2Proof.Machine.execHostTlp h t s
  | .hpCfgAccess h fn addr write wdata be => Sys2Proof.Machine.execHpCfgAccess h fn addr write wdata be s
  | .keyProg h slot stream sub keySet rx key => Sys2Proof.Machine.execKeyProg h slot stream sub keySet rx key s
  | .kSetGo h slot stream keySet => Sys2Proof.Machine.execKSetGo h slot stream keySet s
  | .kSetStop h slot stream => Sys2Proof.Machine.execKSetStop h slot stream s
  | .query h slot => Sys2Proof.Machine.execQuery h slot s
  | .lockInterface h slot tdi => Sys2Proof.Machine.execLockInterface h slot tdi s
  | .getDeviceInterfaceReport h slot tdi => Sys2Proof.Machine.execGetDeviceInterfaceReport h slot tdi s
  | .startInterface h slot tdi => Sys2Proof.Machine.execStartInterface h slot tdi s
  | .stopInterface h slot tdi => Sys2Proof.Machine.execStopInterface h slot tdi s
  | .getDeviceInterfaceState h slot tdi => Sys2Proof.Machine.execGetDeviceInterfaceState h slot tdi s
  | .getTdispVersion h slot tdi => Sys2Proof.Machine.execGetTdispVersion h slot tdi s
  | .getTdispCapabilities h slot tdi => Sys2Proof.Machine.execGetTdispCapabilities h slot tdi s
  | .tdiRecordWrite m index sub record => Sys2Proof.Machine.execTdiRecordWrite m index sub record s
  -- firmware and identity (chapter 14)
  | .imageBlock m data => Sys2Proof.Machine.execImageBlock m data s
  | .stage m => Sys2Proof.Machine.execStage m s
  | .commit m => Sys2Proof.Machine.execCommit m s
  | .commitDone => Sys2Proof.Machine.execCommitDone s
  | .discard m => Sys2Proof.Machine.execDiscard m s
  | .certificateChainWrite m pq chain => Sys2Proof.Machine.execCertificateChainWrite m pq chain s
  -- life cycle and debug (chapter 18)
  | .generateSecret m value => Sys2Proof.Machine.execGenerateSecret m value s
  | .serialWrite m serial => Sys2Proof.Machine.execSerialWrite m serial s
  | .debugKeyDigestWrite m digest => Sys2Proof.Machine.execDebugKeyDigestWrite m digest s
  | .targetState m code => Sys2Proof.Machine.execTargetState m code s
  | .confirmation m serialLow => Sys2Proof.Machine.execConfirmation m serialLow s
  | .confirmationTimeout => Sys2Proof.Machine.execConfirmationTimeout s
  | .debugChallenge m => Sys2Proof.Machine.execDebugChallenge m s
  | .submit m => Sys2Proof.Machine.execSubmit m s
  | .openInTest m => Sys2Proof.Machine.execOpenInTest m s
  | .closeByBlockReset m => Sys2Proof.Machine.execCloseByBlockReset m s
  | .clearing => Sys2Proof.Machine.execClearing s
  | .clearingDone => Sys2Proof.Machine.execClearingDone s
  -- dictionary, roles, audit (chapter 19)
  | .dictionaryRead m d => Sys2Proof.Machine.execDictionaryRead m d s
  | .dictionaryWrite m d => Sys2Proof.Machine.execDictionaryWrite m d s
  | .describe m d => Sys2Proof.Machine.execDescribe m d s
  | .roleChallenge m role => Sys2Proof.Machine.execRoleChallenge m role s
  | .roleLogin m role offset last data => Sys2Proof.Machine.execRoleLogin m role offset last data s
  | .roleLogout m => Sys2Proof.Machine.execRoleLogout m s
  | .auditRead m first count => Sys2Proof.Machine.execAuditRead m first count s
  | .notice m => Sys2Proof.Machine.execNotice m s
  | .auditCheckpoint m offset length => Sys2Proof.Machine.execAuditCheckpoint m offset length s
  | .loginHoldoffExpiry => Sys2Proof.Machine.execLoginHoldoffExpiry s
  -- faults and recovery (chapter 20)
  | .vigilScan => Sys2Proof.Machine.execVigilScan s
  | .blockFault err => Sys2Proof.Machine.execBlockFault err s
  | .snapshotTimeout => Sys2Proof.Machine.execSnapshotTimeout s
  | .abortWaitExpiry => Sys2Proof.Machine.execAbortWaitExpiry s
  | .holdExpiry => Sys2Proof.Machine.execHoldExpiry s
  | .jobAbort m p => Sys2Proof.Machine.execJobAbort m p s
  | .blockFaultCommand m value => Sys2Proof.Machine.execBlockFaultCommand m value s
  -- injection, harvest, trace (chapters 21, 22)
  | .injectionArm m record => Sys2Proof.Machine.execInjectionArm m record s
  | .harvestSample => Sys2Proof.Machine.execHarvestSample s
  | .harvestListWrite m sub value => Sys2Proof.Machine.execHarvestListWrite m sub value s
  | .harvestSelect m seq => Sys2Proof.Machine.execHarvestSelect m seq s
  | .traceEnable m value => Sys2Proof.Machine.execTraceEnable m value s
  -- start-up and joining (chapter 24)
  | .block tag offset data => Sys2Proof.Machine.execBlock tag offset data s
  | .go tag => Sys2Proof.Machine.execGo tag s
  | .status tag => Sys2Proof.Machine.execStatus tag s
  | .imageVerified => Sys2Proof.Machine.execImageVerified s
  | .gateOpen m value => Sys2Proof.Machine.execGateOpen m value s
  | .found m => Sys2Proof.Machine.execFound m s
  | .joinCommand m => Sys2Proof.Machine.execJoinCommand m s
  | .join l member => Sys2Proof.Machine.execJoin l member s
  | .joinGrant l status gen domain key => Sys2Proof.Machine.execJoinGrant l status gen domain key s
  | .joinBoundExpiry => Sys2Proof.Machine.execJoinBoundExpiry s
  -- the remaining rows
  | .powerOnResetAssert => Sys2Proof.Machine.execPowerOnResetAssert s
  | .laneWaitTimeout port lane => Sys2Proof.Machine.execLaneWaitTimeout port lane s
  | .hostDmaCompletion h tag code data => Sys2Proof.Machine.execHostDmaCompletion h tag code data s
  | .spdmResponse p r => Sys2Proof.Machine.execSpdmResponse p r s
  | .heartbeatTimeout p => Sys2Proof.Machine.execHeartbeatTimeout p s
  | .traceStreamTransfer => Sys2Proof.Machine.execTraceStreamTransfer s
  | .entropyWord word => Sys2Proof.Machine.execEntropyWord word s

end Sys2Proof.Machine
end

