-- ==== Sys2Proof/Machine/Idle.lean ====
section
/-! DEFINITION. Sys2Proof/Machine/Idle.lean: what a K-cycle does in which no command arrives (R63, R74). -/
namespace Sys2Proof.Machine

/-- One K-cycle passes: the local count rises by one unless power-on reset holds the block (R63), and the residency
count of the power state pw_state shows rises with it (R74). -/
def State.idle (s : State) : State :=
  if s.bring.por then s
  else
    let k := s.powerState
    { s with loc := (s.loc + 1) % 2 ^ 64, power := { s.power with residency := tblMod s.power.residency k (· + 1) 0 } }

end Sys2Proof.Machine
end

