-- ==== Sys2Proof/Safety.lean ====
section
/-! DEFINITION. Sys2Proof/Safety.lean: what a run of the block is, and when it is safe: no command ever stops it. -/
namespace Sys2Proof.Machine

/-- `n` steps from `s` all answer a next state. -/
def runsOn : Nat → State → Prop
  | 0, _ => True
  | n + 1, s => ∃ t, step s = .next t ∧ runsOn n t

end Sys2Proof.Machine
end

