-- ==== Sys2Proof/Certificates/Slice0/Obligations.lean ====
section
/-! DEFINITION. Sys2Proof/Certificates/Slice0/Obligations.lean: the statements of this model for the provers. -/

namespace Sys2Proof.Ob
open Sys2Proof.Machine

/-- The block is out of reset and not halted, and every outcome has been delivered, as it is between commands. -/
def calm (s : State) : Prop := s.alive = true ∧ s.due = []

/-- The block is in S0 with no entry into another power state under way: every clock runs and nothing has to wake it. -/
def inS0 (s : State) : Prop := s.power.state = 0 ∧ s.power.entering = none

/-- The engines and queues take work, and every outcome has been delivered. -/
def rested (s : State) : Prop := s.running = true ∧ s.due = []

/-- The same in S0. -/
def busy (s : State) : Prop := rested s ∧ inS0 s

/-- A write of entry i.j with bytes v that every gate of R460 lets through to the entry's own checks: the management port serves
it, role, existence, rights and length pass, no segmented write is open in its session, no block fault holds and no life-cycle
transition programs fuses. -/
def passes (s : State) (m : Mgmt) (i j : Nat) (v : Bytes) : Prop :=
  s.serving = true ∧ s.due = [] ∧ s.writeGate m i j = 0 ∧ (s.session (sessionNum m)).buffer = none ∧
  (∃ e, entryRow i j = some e ∧ lengthOk e 0 true v = true) ∧ s.faults.phase = 0 ∧ s.life.confirm ≠ 2

/-- Such a write of an entry that has no stopped unit to wake first, as none has in S0. -/
def granted (s : State) (m : Mgmt) (i j : Nat) (v : Bytes) : Prop := passes s m i j v ∧ s.wakeWrite i j = s

/-- The state after an accepted write whose effect is `u`: its audit record and its OK answer (O: EndOfWrite). -/
def accepted (s u : State) (m : Mgmt) (i j : Nat) (v : Bytes) : State := u.endWrite m i j v (s.roleOf m) (s.keyIdOf m) 0

/-- The state after a write refused with abort code `a`: its audit record, where there is one, and its answer. -/
def turnedAway (s : State) (m : Mgmt) (i j : Nat) (v : Bytes) (a : Nat) : State := s.endWrite m i j v (s.roleOf m) (s.keyIdOf m) a

/-- Nothing but the audit log with its notices, the counters and the outputs differs. -/
def sameButAnswer (s t : State) : Prop := t = { s with agent := t.agent, ctr := t.ctr, out := t.out }

/-- A key-slot command of opcode `op` on slot `i` completed: the registers of the port after it, every other slot as it was, and
nothing else changed but the key store, its counters, the trace, the DRBG instances, the cells of host slots and the counter of
open values; the cipher engine's expanded key and H are as before, or dropped by an ADVANCE or an INVALIDATE. -/
def kspDid (s t : State) (op kind i : Nat) : Prop :=
  t.keys.cmd = op + kind * 256 ∧ t.keys.slotReg = i ∧ t.keys.done = true ∧ t.keys.err = s.keys.err ∧ t.keys.seed = [] ∧
  (∀ j, j ≠ i → t.slot j = s.slot j) ∧ (t.gce = s.gce ∨ (op = 4 ∨ op = 5) ∧ t.gce = { s.gce with key := none, h := [] }) ∧
  t = { s with keys := t.keys, gce := t.gce, ctr := t.ctr, records := t.records, random := t.random, slots := t.slots, freeCount := t.freeCount }

/-- A key-slot command was refused with a cause: ERR is set, KSP_SEED is cleared, and no slot, draw, cell or open value changed. -/
def kspRefused (s t : State) (op kind i cause : Nat) : Prop :=
  t.keys.cmd = op + kind * 256 ∧ t.keys.slotReg = i ∧ t.keys.err = true ∧ t.keys.done = s.keys.done ∧ t.keys.cause = cause ∧
  t.keys.seed = [] ∧ t.keys.slots = s.keys.slots ∧ t.keys.caches = s.keys.caches ∧
  t = { s with keys := t.keys, ctr := t.ctr, records := t.records }

/-- The master DRBG instance can draw. -/
def drawable (s : State) : Prop := s.random.stopped = false ∧ (tblGet s.random.inst 0 {}).live = true

/-- Memory port m exists, the block is out of reset in S0 or S1, where the line ports are clocked, and no outcome is on its way. -/
def onPort (s : State) (m : Nat) : Prop := m < s.cfg.memPorts ∧ calm s ∧ s.sealing = true

/-- Besides, no page of the port is in transition, no operation is under way at its order points and no read waits for an easel entry:
what a command changes is then its own effect alone. -/
def quietPort (s : State) (m : Nat) : Prop :=
  onPort s m ∧ (s.port m).transitions = [] ∧ (s.port m).easelWait = [] ∧ ∀ kv ∈ (s.port m).points, kv.2.op = none

/-- The lane reads that a page move at line a asks for: its data line, and its tag line for all that wait for it. -/
def readsFor (d a : Nat) (need : List Nat) : List LaneReq :=
  need.map fun x => ⟨false, x, decide (d ≤ x), [], if d ≤ x then .fetch a else .op a, .move, false⟩

/-- The outcomes that a list of waiting requesters is due: the same code for all, and each its own data. -/
def toldAll (ws : List (ReplyTo × Bytes)) (c : Code) (e : Nat) (f : Byte → Byte) : List (ReplyTo × Result) :=
  (ws.filter fun w => decide (w.1 ≠ .none)).map fun w => (w.1, ⟨c, e, w.2.map f⟩)

/-- Link l exists in a configuration that Gwebrim generates, the block is out of reset, and no outcome is on its way. -/
def hasLink (s : State) (l : Nat) : Prop := s.cfg.legal = true ∧ l < s.cfg.links ∧ calm s

/-- Besides, the links are clocked: the block is in S0 or S1. -/
def onLink (s : State) (l : Nat) : Prop := hasLink s l ∧ s.sealing = true

/-- A plain frame can leave link l once a message of n units is queued on VC3: units wait there, or the message finds room. -/
def findsRoom (s : State) (l n : Nat) : Prop :=
  tblGet (s.link l).fs.txq 3 [] ≠ [] ∨ (s.link l).fs.queued + n ≤ 2048 ∧ ∀ h ∈ (s.link l).fs.held, h.1 ≠ 3

/-- The next sealed frame of a link finds room in its replay buffer and does not begin a key update by its sequence. -/
def nextFrame (f : FrameSide) : Prop := f.txSeq < 2 ^ 64 - 1 ∧ f.replayRoom 98304 1024 = true ∧ f.txSeq + 1 ≠ updateSeq

/-- Link l has failed with error code e: it has let go of its session and its frames, it asks to train, and where the links are clocked
the failure is counted (R73); no other link changed. -/
def linkFailed (s t : State) (l e : Nat) : Prop :=
  (t.link l).state = 6 ∧ (t.link l).lastErr = e ∧ (t.link l).trainReq = true ∧ (t.link l).slot = none ∧ (t.link l).rx = [] ∧
  (t.link l).fs = {} ∧ t.count 0x3207 (l + 1) = (if s.sealing then capTo 64 (s.count 0x3207 (l + 1) + 1) else s.count 0x3207 (l + 1)) ∧
  ∀ j, j ≠ l → t.link j = s.link j

/-- Link l rises: it is in state 1, its HELLO has left in one plain frame, and no other link changed. -/
def linkRises (s t : State) (l : Nat) : Prop :=
  (t.link l).state = 1 ∧ (t.link l).sentHello = true ∧ (t.link l).peer = none ∧ (∃ b, t.out = s.out ++ [.frame l b]) ∧
  ∀ j, j ≠ l → t.link j = s.link j

/-- No link holds a received message, and no block fault is being handled: a frame row then ends with its own effect. -/
def noTraffic (s : State) : Prop := (∀ l, (s.link l).rx = []) ∧ s.faults.phase = 0

/-- A plain frame: its header with KIND 0 and VC 3 under its HCRC, the units it carries, and the CRC-32 over both. -/
def plainOf (b : Bytes) (us : List Bytes) : Prop :=
  ∃ h p : Bytes, b = h ++ p ++ padTo 16 (leBytes 4 (crc32 (h ++ p))) ∧ h.length = 16 ∧ hcrcOk h = true ∧ bits (leNat h) 1 0 = 0 ∧
    bits (leNat h) 3 2 = 3 ∧ bits (leNat h) 6 4 = (us.length + 9) / 8 - 1 ∧ p = padTo (16 * (8 * ((us.length + 9) / 8) - 2)) us.flatten

/-- An idle frame of a keyed link: sealed under the given key and salt at the link's next sequence, 96 zero bytes of payload. -/
def idleFrame (b : Bytes) (key salt : Bytes) (seq : Nat) : Prop :=
  ∃ h, h.length = 16 ∧ hcrcOk h = true ∧ bits (leNat h) 1 0 = 1 ∧ bits (leNat h) 95 32 = seq ∧ bits (leNat h) 13 8 = 0x3F ∧
    b = sealFrame key salt seq h (List.replicate 96 0#8)

/-- Function fn of host port h reaches context n, which is not free, the port is out of reset, and the engines take work. -/
def reachesPage (s : State) (h fn n : Nat) : Prop :=
  h < s.cfg.hostPorts ∧ busy s ∧ (s.host h).inReset = false ∧ n < s.cfg.contexts ∧ s.reaches h fn n = true ∧ (s.ctx n).state ≠ 0

/-- Command id has started, has the opcode op, and its work is still to do. -/
def started (s : State) (id op : Nat) (c : Cmd) : Prop :=
  busy s ∧ tblFind s.cmds id = some c ∧ c.opcode = op ∧ c.phase = 1 ∧ c.stage = 0

/-- Command id has started, has the opcode op, and has neither failed nor issued all of its work. -/
def working (s : State) (id op : Nat) (c : Cmd) : Prop :=
  busy s ∧ tblFind s.cmds id = some c ∧ c.opcode = op ∧ c.phase = 1 ∧ c.fail = none ∧ c.stage ≠ 99

/-- Command id hands bytes b to the lane of chiplet port p behind what waits there, and has issued all of its work. -/
def handsOver (s t : State) (id p tag : Nat) (b : Bytes) : Prop :=
  (t.cmd id).stage = 99 ∧ (t.cmd id).pendingFrames = (s.cmd id).pendingFrames + 1 ∧
  (t.chip p).deliveries.map (fun x => x.msg) = (s.chip p).deliveries.map (fun x => x.msg) ++ deliverMsgs tag 0 b

/-- A result record for a chiplet: its elements in RESULT_FMT, m, l and KV_HEAD, padded to whole units. -/
def resultRecord (p : Palette) (head : Nat) (a : Soft) : Bytes :=
  let r := (convertRow 0 p.result a.o.length p.sat none ((normalise a).flatMap fun x => leBytes 4 x.toNat) []).1 ++
    leBytes 4 a.m.toNat ++ leBytes 4 a.l.toNat ++ leBytes 1 head
  padTo ((r.length + 15) / 16 * 16) r

/-- Chiplet port c exists, the block is out of reset, and every outcome has been delivered. -/
def hasChip (s : State) (c : Nat) : Prop := c < s.cfg.chipPorts ∧ calm s

/-- Chiplet port c is in state st with nothing of its session left, and its leaf destroyed. -/
def portEnds (s t : State) (c st : Nat) : Prop :=
  (t.chip c).state = st ∧ (t.chip c).slot = none ∧ (t.chip c).session = {} ∧ (t.chip c).deliveries = [] ∧
  ∀ i, (s.chip c).slot = some i → i < 65536 → (s.slot i).state = 1 → (t.slot i).state = 3 ∧ (t.slot i).cell = []

/-- Chiplet port c has sent one idle frame: sealed under the direction's key at its next sequence, 224 zero bytes of payload. -/
def idleOut (s t : State) (c : Nat) (ks : Bytes × Bytes) : Prop :=
  let k := (s.chip c).fs
  ∃ h b : Bytes, h.length = 16 ∧ hcrcOk h = true ∧ bits (leNat h) 1 0 = 2 ∧ bits (leNat h) 4 2 = 0 ∧ bits (leNat h) 103 40 = k.txSeq ∧
    b = sealFrame ks.1 ks.2 k.txSeq h (List.replicate 224 0#8) ∧ t.out = s.out ++ [.chipFrame c (k.txSeq % max 1 (s.chip c).used) b] ∧
    (t.chip c).fs.txSeq = k.txSeq + 1 ∧ tblFind (t.chip c).fs.replay k.txSeq = some b ∧ (t.chip c).fs.nakDue = false

/-- Chiplet port c can send: it is clocked and admitted with an empty queue, no message of its own is awaited, its replay buffer has
room, and its key serves. -/
def canIdle (s : State) (c : Nat) (ks : Bytes × Bytes) : Prop :=
  s.sealing = true ∧ (s.chip c).state = 4 ∧ tblGet (s.chip c).fs.txq 0 [] = [] ∧ (s.chip c).marks = [] ∧ (s.chip c).fs.txSeq < 2 ^ 64 - 1 ∧
  (s.chip c).fs.replayRoom 262144 2048 = true ∧ (s.chip c).fs.txSeq + 1 ≠ updateSeq ∧
  ∃ u, s.chipKey c (s.chipTxGen (s.chip c)) true = .ok (ks, u)

/-- Host port h exists and is not held in reset, and the engines take work. -/
def hasHost (s : State) (h : Nat) : Prop := h < s.cfg.hostPorts ∧ busy s ∧ (s.host h).inReset = false

/-- A TDISP request of session slot i reaches TDI t of host port h. -/
def mine (s : State) (h i t : Nat) : Prop :=
  s.slotUp h i = true ∧ t < 256 ∧ ((s.tdi (tdiKey h t)).state = 0 ∨ (s.tdi (tdiKey h t)).slot = i)

/-- The copies of the state code read back as a state's (R441): all of them, or one does not and 0x1101.03 reads failed. -/
def copiesRead (t : State) (l : Life) : Prop :=
  let right := fun (w : Nat) => tblGet t.fuses w 0 &&& fuseCode l = fuseCode l
  (∀ w, w = 0x10 ∨ w = 0x11 ∨ w = 0x12 → right w) ∧ t.life.confirm ≠ 3 ∨ (∃ w, (w = 0x10 ∨ w = 0x11 ∨ w = 0x12) ∧ ¬ right w) ∧ t.life.confirm = 3

/-- A TDISP request is refused: no TDI changes, the last error of the port is e, and the answer is a TDISP ERROR of code x. -/
def tdispRefused (s : State) (o : Host.Outcome State Fault Refusal) (h i x e : Nat) : Prop :=
  ∃ t, o = .next t ∧ t.tdis = s.tdis ∧ t.slots = s.slots ∧ (t.host h).lastErr = e ∧ t.out = s.out ++ [.tdisp h i 0x7F (leBytes 4 x)]

/-- The responder serves peer p: its port exists and carries SPDM, the start-up is over, and no commit is under way. -/
def serves (s : State) (p : Peer) : Prop :=
  s.hasPeer p = true ∧ calm s ∧ s.bring.ready = true ∧ s.reachable p = true ∧ s.fw.fw ≠ 2

/-- It serves every request: in Test, Production or a life-cycle state that is not the first or the last, with no image staged. -/
def servesAll (s : State) (p : Peer) : Prop := serves s p ∧ s.life.state ≠ .blank ∧ s.life.state ≠ .endOfLife ∧ s.fw.fw ≠ 1

/-- What s becomes when the controller takes a message of peer p: a link's MCTP packets are used up, a chiplet's sideband credit goes
back (log entries 105, 107); a host's or the management agent's leaves s as it is. -/
def heardOf (s : State) (p : Peer) : State := s.heard p id

/-- Peer p has agreed on algorithms outside any session, or is in one. -/
def agreed (s : State) (p : Peer) : Prop := s.peerSession p ≠ none ∨ s.asks p = false ∧ (s.conn p).stage = 3

/-- The master DRBG instance draws. -/
def draws (s : State) : Prop := s.random.stopped = false ∧ (tblGet s.random.inst 0 {}).live = true

/-- The bytes that a signature covers (R354): the signing prefix of 100 bytes, which ends with the context, and the transcript hash. -/
def signedText (context : String) (request : Nat) (ms : List Bytes) : Bytes :=
  let version := ascii "dmtf-spdm-v1.3.*"
  padTo (100 - (ascii context).length) (version ++ version ++ version ++ version) ++ ascii context ++ sha384 (Config.transcript request ms)

/-- A signed answer to a request whose bytes are `body`, after the messages `ms`: both signatures made over the same message, the ECDSA
one sent after the parts, the ML-DSA-65 one held. -/
def signedAnswer (s t : State) (p : Peer) (request code : Nat) (context : String) (ms : List Bytes) (body : Bytes) (parts : Bytes → List Bytes) : Prop :=
  ∃ n r : Bytes, let m := signedText context request (ms ++ [body, Config.standardBody code (parts n)])
    t.out = s.out ++ [.spdm p code (Config.standardBody code (parts n ++ [Config.ecdsaSign s.fw.aliasEc m r]))] ∧
    t.count 0x4100 5 = capTo 64 (s.count 0x4100 5 + 1) ∧
    (match t.peerSession p with | some k => k.heldPq | none => (t.conn p).heldPq) = some (request, Config.mldsaSign s.fw.aliasPq m r)

/-- The configuration has the link or the chiplet port. -/
def frameThere (s : State) : FramePort → Bool
  | .link l => decide (l < s.cfg.links)
  | .chip c => decide (c < s.cfg.chipPorts)

/-- The configuration has the unit that a command names; a dictionary request names none. -/
def unitThere (s : State) : Instr → Bool
  | .lineRequestIssue x _ | .lineResponse x _ _ _ _ | .lineBoundExpiry x _ _ | .orderPointTake x _ | .moveReadRetry x _ | .writeBack x _
  | .writeBackRetry x _ | .counterLineRetry x _ | .formatComplete x | .regionInitComplete x | .regionRemovalDone x _ | .scrubComplete x
  | .automaticInterval x | .sweepStart x | .readAhead x | .readAheadRetry x _ | .edgeStep x | .sweepComplete x | .laneWaitTimeout x _ | .controllerUp x
  | .controllerDown x => decide (x < s.cfg.memPorts)
  | .hello x | .helloTimer x | .linkAttestationStart x | .frameReceived x _ _ | .plainFrame x _ | .frameTransmit x | .silenceTimeout x
  | .linkBoundExpiry x | .attestationHoldoff x | .linkIdle x | .linkIdleAck x | .wakeFrame x | .wakeRepeat x | .wakeUnanswered x | .domainAbort x
  | .invalidateMessage x | .readData x | .completion x | .atomicData x | .chunkAck x | .joinGrant x _ _ _ _ | .pcsUp x | .pcsDown x _ | .join x _ => decide (x < s.cfg.links)
  | .chipletAdmissionStart x | .admission x _ | .admissionBoundExpiry x | .refusalHoldoffExpiry x | .chipletFrame x _ | .chipletFrameTransmit x
  | .standbyAck x | .standbyAckTimeout x | .standbyRetry x | .chipletWakeFrame x | .chipletWakeTimeout x | .chipletActive x _ | .moduleLeavesActive x
  | .bridgeLaneService x => decide (x < s.cfg.chipPorts)
  | .hostTlp x _ | .hpCfgAccess x _ _ _ _ _ | .keyProg x _ _ _ _ _ _ | .kSetGo x _ _ _ | .kSetStop x _ _ | .query x _ | .getDeviceInterfaceState x _ _
  | .getTdispVersion x _ _ | .getTdispCapabilities x _ _ | .lockInterface x _ _ | .getDeviceInterfaceReport x _ _ | .startInterface x _ _
  | .stopInterface x _ _ | .ctxFaultClear x _ _ _ | .queueRead x _ _ | .queueEnable x _ _ | .queueDisable x _ _ | .hostDmaCompletion x _ _ _ => decide (x < s.cfg.hostPorts)
  | .partitionReset x | .partitionResetDone x | .tableZeroingDone x | .walkComplete x _ | .resizeComplete x | .removalComplete x => decide (x < s.cfg.partitions)
  | .sliceBoundary x => decide (x < s.cfg.aus)
  | .samplerDispatch x => decide (x < s.cfg.samplers)
  | .nak x | .nakHoldoffExpiry x | .keepalive x | .keyUpdateComplete x | .read x | .write x | .writePartial x | .atomic x | .chunk x
  | .spdmResponse x _ => frameThere s x
  | .getVersion x | .getCapabilities x | .negotiateAlgorithms x _ | .getCertificate x _ _ _ | .challenge x _ _ | .getMeasurements x _ _ _
  | .keyExchange x _ | .finish x _ | .heartbeat x | .endSession x | .getPqSignature x | .getPqChain x _ _ | .heartbeatTimeout x | .keyUpdate x => s.hasPeer x
  | .portPhysicalReset x y | .portResetRelease x y => s.hasPort x y
  | .functionLevelReset x y => decide (x < s.cfg.hostPorts ∧ y ≤ 256)
  | .keyUpdateStart (.link _) (some _) => true
  | .keyUpdateStart x _ => frameThere s x
  | .doorbell (.host x _) _ _ _ => decide (x < s.cfg.hostPorts)
  | .doorbell (.chip x) _ _ _ => decide (x < s.cfg.chipPorts)
  | _ => true

/-- The block is held in power-on reset: nothing is ready, no outcome waits, and no key, session, command, setting or object
of a run is left. -/
def held (s : State) : Prop :=
  s.bring.por = true ∧ s.bring.ready = false ∧ s.due = [] ∧ s.keys.slots = [] ∧ s.agent.sessions = [] ∧ s.slots = [] ∧ s.cmds = [] ∧
  s.settings = [] ∧ s.parts = [] ∧ s.ctxs = [] ∧ s.queues = [] ∧ s.objs = []

end Sys2Proof.Ob

open Sys2Proof Sys2Proof.Machine Sys2Proof.Ob

/-- A step runs the command at the front of the queue (spec/95_what_each_step_holds.md). -/
def Obligations.StepTakesFront : Prop :=
  ∀ (c : Instr) (rest : List Instr) (s : State),
    step { s with pending := c :: rest } = exec c { s with pending := rest }

/-- With no command waiting, one K-cycle passes: the model's choice (log entry 2) (R63, R74). -/
def Obligations.EmptyQueuePassesOneCycle : Prop :=
  ∀ s : State, s.pending = [] →
    (s.bring.por = true → step s = .next s) ∧
    (s.bring.por = false → ∃ r, step s = .next { s with loc := (s.loc + 1) % 2 ^ 64, power := { s.power with residency := r } } ∧
      tblGet r s.powerState 0 = tblGet s.power.residency s.powerState 0 + 1 ∧
      ∀ k, k ≠ s.powerState → tblGet r k 0 = tblGet s.power.residency k 0)

/-- The block right after reset (R63, R65, R323, R437, R508, R529). -/
def Obligations.ResetState : Prop :=
  State.reset.pending = [] ∧ State.reset.due = [] ∧ (∀ i j, State.reset.count i j = 0) ∧
  (∀ i j, State.reset.setting i j = entryDefault State.reset.cfg i j) ∧ State.reset.bring.ready = false ∧
  (∀ m, (State.reset.port m).state = 0) ∧ (∀ l, (State.reset.link l).state = 0) ∧ (∀ c, (State.reset.chip c).state = 0) ∧
  (∀ i, (State.reset.slot i).state = 0) ∧ (∀ q, (State.reset.queue q).state = 0) ∧ (∀ c, (State.reset.ctx c).state = 0) ∧
  (∀ p, (State.reset.partn p).state = 0) ∧ State.reset.objs = [] ∧ State.reset.powerState = 0 ∧ State.reset.life.target = none ∧
  (∀ w, tblGet State.reset.fuses w 0 = 0) ∧ State.reset.life.state = .blank ∧ State.reset.bring.member = false ∧ State.reset.bring.por = true

/-- Between commands no outcome waits to be delivered, and the tables of objects and TDIs stay in order (R215, R312, R323, R386). -/
def Obligations.EveryCommandKeeps : Prop :=
  ∀ (c : Instr) (s t : State), exec c s = .next t →
    (s.due = [] → t.due = []) ∧ (tblRising s.objs = true → tblRising t.objs = true) ∧ (tblRising s.tdis = true → tblRising t.tdis = true) ∧
    (tblRising s.keys.slots = true → tblRising t.keys.slots = true)

/-- CREATE_DERIVED and CREATE_SEED make a slot live under its parent (R323, R325, R334, R337, R338, R339). -/
def Obligations.KeySlotCreation : Prop :=
  (∀ (s : State) (i kind parent nonce gen : Nat), s.alive = true → i < 65536 → (s.slot i).state = 0 →
    (kind = 1 ∧ parent < 64 ∨ (kind = 2 ∨ kind = 6) ∧ parent = 0x41) → s.usable (parentSlot parent) = true →
    s.fertile (parentSlot parent) = true → (kind = 6 ∨ drawable s) →
    ∃ t : State, exec (.createDerived i kind parent nonce gen) s = .next t ∧ kspDid s t 1 kind i ∧ (t.slot i).state = 1 ∧
      (t.slot i).kind = kind ∧ (t.slot i).parent = parent ∧ (t.slot i).gen = 0 ∧ (t.slot i).next = false ∧
      (t.slot i).pgen = (s.slot (parentSlot parent)).gen ∧ (t.slot i).use = (t.slot i).dfltUse ∧
      (kind = 1 → ∃ k, (t.slot i).use = regionUse k) ∧ (kind ≠ 1 → (t.slot i).use = kindUse kind) ∧
      (kind = 6 → (t.slot i).nonce = nonce) ∧ (t.slot i).cell = s.masked (s.derivedSeed i 0 (t.slot i))) ∧
  (∀ (s : State) (p kind parent nonce gen : Nat), s.alive = true → p < s.cfg.partitions → (s.slot (partSlot p)).state = 0 →
    s.usable domainSlot = true → s.fertile domainSlot = true → (s.slot (partSlot p)).gen ≤ gen → gen < 0xFFFFFFFF →
    ∃ t : State, exec (.createDerived (partSlot p) kind parent nonce gen) s = .next t ∧ kspDid s t 1 kind (partSlot p) ∧
      (t.slot (partSlot p)).state = 1 ∧ (t.slot (partSlot p)).gen = gen ∧ (t.slot (partSlot p)).pgen = (s.slot domainSlot).gen ∧
      (t.slot (partSlot p)).parent = 0x40 ∧
      (t.slot (partSlot p)).cell = s.masked (kdf (s.slotKey domainSlot) "SH9v2 partition" (leBytes 1 p ++ leBytes 4 gen) 256)) ∧
  (∀ (s : State) (i kind parent nonce gen : Nat) (seed : Bytes), s.alive = true → i < 65536 → (s.slot i).state = 0 →
    (kind = 3 ∧ parent < 64 ∨ (kind = 4 ∨ kind = 5) ∧ parent = 0x41) → s.usable (parentSlot parent) = true →
    s.fertile (parentSlot parent) = true → drawable s →
    ∃ t : State, exec (.createSeed i kind parent nonce gen seed) s = .next t ∧ kspDid s t 2 kind i ∧ (t.slot i).state = 1 ∧
      (t.slot i).kind = kind ∧ (t.slot i).parent = parent ∧ (t.slot i).gen = 0 ∧ (t.slot i).use = kindUse kind ∧
      (t.slot i).pgen = (s.slot (parentSlot parent)).gen ∧ (t.slot i).cell = s.masked (padTo 32 seed)) ∧
  (∀ (s : State) (kind parent nonce gen : Nat) (seed : Bytes), s.alive = true → (s.slot domainSlot).state = 0 →
    s.usable rootSlot = true → s.fertile rootSlot = true → (s.slot domainSlot).gen ≤ gen → gen < 0xFFFFFFFF →
    ∃ t : State, exec (.createSeed domainSlot kind parent nonce gen seed) s = .next t ∧ kspDid s t 2 kind domainSlot ∧
      (t.slot domainSlot).state = 1 ∧ (t.slot domainSlot).parent = 0x41 ∧ (t.slot domainSlot).gen = gen ∧ (t.slot domainSlot).nonce = nonce % 2 ^ 64 ∧
      (t.slot domainSlot).pgen = (s.slot rootSlot).gen ∧ (t.slot domainSlot).cell = s.masked (padTo 32 seed))

/-- SET_NEXT, ADVANCE, INVALIDATE, RETIRE, SET_USE and READ_DIR on a slot they may change (R323, R327, R328, R329, R330, R339, R347). -/
def Obligations.KeySlotChanges : Prop :=
  (∀ (s : State) (i : Nat) (seed : Bytes), s.alive = true → i < 65536 → s.usable i = true → s.fertile i = true →
    (s.slot i).state = 1 → (1 ≤ (s.slot i).kind ∧ (s.slot i).kind ≤ 4 ∨ (s.slot i).kind = 6) → (s.slot i).next = false →
    (s.slot i).gen < 0xFFFFFFFE →
    ∃ t : State, exec (.setNext i seed) s = .next t ∧ kspDid s t 3 (s.slot i).kind i ∧ (t.slot i).next = true ∧
      (t.slot i).gen = (s.slot i).gen ∧ (t.slot i).state = 1 ∧ (t.slot i).cell = (s.slot i).cell ∧
      ((s.slot i).kind = 3 ∨ (s.slot i).kind = 4 → (t.slot i).nextSeed = s.masked (padTo 32 seed))) ∧
  (∀ (s : State) (i : Nat), s.alive = true → s.usable i = true → s.fertile i = true → (s.slot i).state = 1 →
    (s.slot i).next = true →
    ∃ t : State, exec (.advance i) s = .next t ∧ kspDid s t 4 (s.slot i).kind i ∧ (t.slot i).gen = (s.slot i).gen + 1 ∧
      (t.slot i).next = false ∧ (t.slot i).state = 1 ∧ (t.slot i).cell = s.masked (s.seedOf i ((s.slot i).gen + 1)) ∧
      (∀ e, (e, i, (s.slot i).gen) ∉ t.keys.caches) ∧ t.count 0x4000 3 = capTo 64 (s.count 0x4000 3 + 1)) ∧
  (∀ (s : State) (i : Nat), s.alive = true → ((s.slot i).state = 1 ∨ (s.slot i).state = 2) →
    ∃ t : State, exec (.invalidate i) s = .next t ∧ kspDid s t 5 (s.slot i).kind i ∧ (t.slot i).gen = (s.slot i).gen + 1 ∧
      (t.slot i).state = (if i < 65536 then 3 else 0) ∧ (t.slot i).cell = [] ∧ (t.slot i).nextSeed = [] ∧
      t.count 0x4000 3 = capTo 64 (s.count 0x4000 3 + 1)) ∧
  (∀ (s : State) (i : Nat), s.alive = true → ((s.slot i).state = 0 ∨ (s.slot i).state = 3) →
    ∃ t : State, exec (.invalidate i) s = .next t ∧ kspDid s t 5 (s.slot i).kind i ∧ t.slot i = s.slot i) ∧
  (∀ (s : State) (i : Nat), s.alive = true → s.usable i = true →
    ∃ t : State, exec (.retire i) s = .next t ∧ kspDid s t 6 (s.slot i).kind i ∧ t.slot i = s.placed i { s.slot i with state := 2 }) ∧
  (∀ (s : State) (i use : Nat), s.alive = true → s.usable i = true → (s.slot i).state = 1 →
    (use = (s.slot i).dfltUse ∨ use &&& (s.slot i).use = use) →
    ∃ t : State, exec (.setUse i use) s = .next t ∧ kspDid s t 7 (s.slot i).kind i ∧ t.slot i = s.placed i { s.slot i with use := use }) ∧
  (∀ (s : State) (i : Nat), s.alive = true → s.usable i = true →
    ∃ t : State, exec (.readDir i) s = .next t ∧ kspDid s t 8 (s.slot i).kind i ∧ t.slot i = s.slot i ∧ t.keys.dir = s.dirBytes i)

/-- What the key-slot port refuses, and that a refused command changes no slot (R325, R327, R330, R339, R340, R343, R348). -/
def Obligations.KeySlotRefusals : Prop :=
  (∀ (s : State) (i kind parent nonce gen : Nat), s.alive = true → i < 65536 → (s.slot i).state ≠ 0 →
    ∃ t : State, exec (.createDerived i kind parent nonce gen) s = .next t ∧ kspRefused s t 1 kind i 6) ∧
  (∀ (s : State) (i kind parent nonce gen : Nat) (seed : Bytes), s.alive = true → i < 65536 → (s.slot i).state ≠ 0 →
    ∃ t : State, exec (.createSeed i kind parent nonce gen seed) s = .next t ∧ kspRefused s t 2 kind i 6) ∧
  (∀ (s : State) (i kind parent nonce gen : Nat), s.alive = true → i < 65536 → (s.slot i).state = 0 →
    (kind = 1 ∧ parent < 64 ∨ (kind = 2 ∨ kind = 6) ∧ parent = 0x41) → s.usable (parentSlot parent) = false →
    ∃ t : State, exec (.createDerived i kind parent nonce gen) s = .next t ∧ kspRefused s t 1 kind i 1 ∧
      t.count 0x4000 4 = capTo 64 (s.count 0x4000 4 + 1)) ∧
  (∀ (s : State) (i kind parent nonce gen : Nat) (seed : Bytes), s.alive = true → i < 65536 → (s.slot i).state = 0 →
    (kind = 3 ∧ parent < 64 ∨ (kind = 4 ∨ kind = 5) ∧ parent = 0x41) → s.usable (parentSlot parent) = false →
    ∃ t : State, exec (.createSeed i kind parent nonce gen seed) s = .next t ∧ kspRefused s t 2 kind i 1 ∧
      t.count 0x4000 4 = capTo 64 (s.count 0x4000 4 + 1)) ∧
  (∀ (s : State) (i kind parent nonce gen : Nat), s.alive = true → i < 65536 → (s.slot i).state = 0 →
    (kind = 1 ∧ parent < 64 ∨ kind = 2 ∧ parent = 0x41) → s.usable (parentSlot parent) = true →
    s.fertile (parentSlot parent) = true → s.random.stopped = true →
    ∃ t : State, exec (.createDerived i kind parent nonce gen) s = .next t ∧ kspRefused s t 1 kind i 8) ∧
  (∀ (s : State) (p kind parent nonce gen : Nat), s.alive = true → p < s.cfg.partitions → (s.slot (partSlot p)).state = 0 →
    s.usable domainSlot = true → s.fertile domainSlot = true → (gen < (s.slot (partSlot p)).gen ∨ gen = 0xFFFFFFFF) →
    ∃ t : State, exec (.createDerived (partSlot p) kind parent nonce gen) s = .next t ∧
      kspRefused s t 1 kind (partSlot p) (if gen = 0xFFFFFFFF then 4 else 6)) ∧
  (∀ (s : State) (kind parent nonce gen : Nat) (seed : Bytes), s.alive = true → (s.slot domainSlot).state = 0 →
    s.usable rootSlot = true → s.fertile rootSlot = true → gen < (s.slot domainSlot).gen → gen < 0xFFFFFFFF →
    ∃ t : State, exec (.createSeed domainSlot kind parent nonce gen seed) s = .next t ∧ kspRefused s t 2 kind domainSlot 6) ∧
  (∀ (s : State) (i : Nat) (seed : Bytes), s.alive = true → i < 65536 → s.usable i = true → s.fertile i = true →
    (s.slot i).state = 1 → (1 ≤ (s.slot i).kind ∧ (s.slot i).kind ≤ 4 ∨ (s.slot i).kind = 6) → (s.slot i).next = false →
    0xFFFFFFFE ≤ (s.slot i).gen →
    ∃ t : State, exec (.setNext i seed) s = .next t ∧ kspRefused s t 3 (s.slot i).kind i 4) ∧
  (∀ (s : State) (i : Nat) (seed : Bytes), s.alive = true → i < 65536 → s.usable i = true → (s.slot i).state = 2 →
    (1 ≤ (s.slot i).kind ∧ (s.slot i).kind ≤ 4 ∨ (s.slot i).kind = 6) →
    ∃ t : State, exec (.setNext i seed) s = .next t ∧ kspRefused s t 3 (s.slot i).kind i 7) ∧
  (∀ (s : State) (i : Nat), s.alive = true → s.usable i = true → (s.slot i).next = false →
    ∃ t : State, exec (.advance i) s = .next t ∧ kspRefused s t 4 (s.slot i).kind i 6) ∧
  (∀ (s : State) (i : Nat), s.alive = true → s.usable i = true → (s.slot i).next = true → (s.slot i).state = 2 →
    ∃ t : State, exec (.advance i) s = .next t ∧ kspRefused s t 4 (s.slot i).kind i 7) ∧
  (∀ (s : State) (i use : Nat) (seed : Bytes), s.alive = true → s.usable i = false →
    (∃ t : State, exec (.advance i) s = .next t ∧ kspRefused s t 4 (s.slot i).kind i 6) ∧
    (∃ t : State, exec (.setNext i seed) s = .next t ∧ kspRefused s t 3 (s.slot i).kind i 6) ∧
    (∃ t : State, exec (.retire i) s = .next t ∧ kspRefused s t 6 (s.slot i).kind i 6) ∧
    (∃ t : State, exec (.setUse i use) s = .next t ∧ kspRefused s t 7 (s.slot i).kind i 6) ∧
    (∃ t : State, exec (.readDir i) s = .next t ∧ kspRefused s t 8 (s.slot i).kind i 6)) ∧
  (∀ (s : State) (i use : Nat), s.alive = true → s.usable i = true → use ≠ (s.slot i).dfltUse →
    use &&& (s.slot i).use ≠ use → ∃ t : State, exec (.setUse i use) s = .next t ∧ kspRefused s t 7 (s.slot i).kind i 6)

/-- No command of the key-slot port lowers the generation of a slot that holds a key or is internal (R327, R339). -/
def Obligations.GenerationNeverFalls : Prop :=
  ∀ (s t : State) (i j kind parent nonce gen use : Nat) (seed : Bytes) (c : Instr),
    c ∈ [Instr.createDerived i kind parent nonce gen, .createSeed i kind parent nonce gen seed, .setNext i seed, .advance i,
      .invalidate i, .retire i, .setUse i use, .readDir i, .kspStatusClear use] →
    exec c s = .next t → (65536 ≤ j ∨ (s.slot j).state ≠ 0) →
    (s.slot j).gen ≤ (t.slot j).gen ∧ ((s.slot j).state ≠ 0 → (t.slot j).gen ≤ (s.slot j).gen + 1)

/-- What the cipher engine computes, and the key it takes (R340, R344, R345, R346, R325, R326, R341, R343). -/
def Obligations.CipherEngineOperations : Prop :=
  ((∀ (s : State) (din k : Bytes), s.alive = true → s.gce.fault = false → s.gce.key = some k →
    exec (.enc din) s = .next { s with gce := { s.gce with ctrl := 1, din := padTo 16 din, dout := aesEnc k (padTo 16 din), done := true } } ∧
    exec (.dec din) s = .next { s with gce := { s.gce with ctrl := 2, din := padTo 16 din, dout := aesDec k (padTo 16 din), done := true } } ∧
    exec .loadH s = .next { s with gce := { s.gce with ctrl := 5, h := aesEnc k (List.replicate 16 0#8), done := true } }) ∧
  (∀ (s : State) (r : GceIn) (blk : Bytes), s.alive = true → s.gce.fault = false →
    exec (.ghash r) s = .next { s with gce := { s.gce with ctrl := 4, din := padTo 16 r.din, y := ghashMul (xorBytes (padTo 16 (regWritten s.gce.y r.reg)) (padTo 16 r.din)) (padTo 16 s.gce.h), done := true } } ∧
    exec .shaInit s = .next { s with gce := { s.gce with ctrl := 6, digest := Sys2Proof.Machine.shaInit, done := true } } ∧
    (s.gce.digest ≠ [] → exec (.shaBlock blk) s = .next { s with gce := { s.gce with ctrl := 7, shaBlk := padTo 128 blk, digest := shaCompress s.gce.digest (padTo 128 blk), done := true } }) ∧
    exec .shaClear s = .next { s with gce := { s.gce with ctrl := 9, digest := [], shaBlk := [], h := [], done := true } }) ∧
  (∀ (s : State) (blk : Bytes), s.alive = true → s.gce.fault = false → s.gce.digest = [] →
    exec (.shaBlock blk) s = .next { s with gce := { s.gce with ctrl := 7, shaBlk := padTo 128 blk, digest := shaCompress (List.replicate 8 0) (padTo 128 blk), done := true } }) ∧
  (∀ (s : State) (r : GceIn) (k : Bytes) (wide : Bool), s.alive = true → s.gce.fault = false → s.gce.key = some k →
    ctrAtEnd wide (padTo 16 (regWritten s.gce.ctr r.reg)) = false → ¬ (s.alarms.point = 0x16 ∧ s.alarms.unit = 0 ∧ 0 < s.alarms.count) →
    exec (.ctrEnc r wide) s = .next { s with gce := { s.gce with ctrl := 3 + bn wide * 32, din := padTo 16 r.din, dout := xorBytes (aesEnc k (padTo 16 (regWritten s.gce.ctr r.reg))) (padTo 16 r.din), ctr := ctrNext wide (padTo 16 (regWritten s.gce.ctr r.reg)), done := true } }) ∧
  (∀ (s : State) (din : Bytes) (op : Nat × Instr), s.alive = true → s.gce.fault = false → s.gce.key = none →
    op ∈ [(1, Instr.enc din), (2, .dec din), (5, .loadH)] →
    ∃ t : State, exec op.2 s = .next t ∧ t.gce = { s.gce with ctrl := op.1, din := if op.1 = 5 then s.gce.din else padTo 16 din, err := true, cause := 1 } ∧
      t.count 0x4000 4 = capTo 64 (s.count 0x4000 4 + 1) ∧ t = { s with gce := t.gce, ctr := t.ctr, records := t.records }) ∧
  (∀ (s : State) (w : Nat), s.alive = true → exec (.gceStatusClear w) s =
    .next { s with gce := { s.gce with done := s.gce.done && !w.testBit 1, err := s.gce.err && !w.testBit 2, fault := s.gce.fault && !w.testBit 3 } })) ∧
  ((∀ (s : State) (r : GceIn) (wide : Bool), s.alive = true → s.gce.fault = false →
    (ctrAtEnd wide (padTo 16 (regWritten s.gce.ctr r.reg)) = true ∨ s.alarms.point = 0x16 ∧ s.alarms.unit = 0 ∧ 0 < s.alarms.count) →
    ∃ t : State, exec (.ctrEnc r wide) s = .next t ∧
      t.gce = { s.gce with ctrl := 3 + bn wide * 32, din := padTo 16 r.din, ctr := regWritten s.gce.ctr r.reg, fault := true, cause := 5 } ∧ t = { s with gce := t.gce, ctr := t.ctr, records := t.records, alarms := t.alarms }) ∧
  (∀ (s : State) (r : GceIn) (din blk : Bytes) (wide : Bool) (c : Instr × Gce), s.alive = true → s.gce.fault = true →
    c ∈ [(Instr.enc din, s.gce.withDin din), (.dec din, s.gce.withDin din), (.ctrEnc r wide, { s.gce.withDin r.din with ctr := regWritten s.gce.ctr r.reg }),
      (.ghash r, { s.gce.withDin r.din with y := regWritten s.gce.y r.reg }), (.loadH, s.gce), (.shaInit, s.gce),
      (.shaBlock blk, { s.gce with shaBlk := padTo 128 blk }), (.drbg, s.gce), (.shaClear, s.gce)] →
    exec c.1 s = .next (({ s with gce := c.2 } : State).bump 0x4000 5))) ∧
  ((∀ (s : State) (leaf : Nat), s.alive = true → leaf < 65536 → s.usable leaf = true → (s.slot leaf).use.testBit 9 = true →
    ∃ t : State, exec (.gceKeysel leaf) s = .next t ∧ t.gce = { s.gce with keysel := leaf, key := some (padTo 32 (s.material leaf (s.slot leaf).gen)), done := true } ∧
      t.keys.slots = s.keys.slots ∧ (∀ c ∈ t.keys.caches, c.1 = gceEngine → c = (gceEngine, leaf, (s.slot leaf).gen)) ∧
      t = { s with gce := t.gce, keys := t.keys }) ∧
  (∀ (s : State) (leaf : Nat), s.alive = true → leaf < 65536 → (s.usable leaf = false ∨ (s.slot leaf).use.testBit 9 = false) →
    ∃ t : State, exec (.gceKeysel leaf) s = .next t ∧ t.gce = { s.gce with keysel := leaf, key := none, err := true, cause := if s.usable leaf then 2 else 1 } ∧
      t.keys.slots = s.keys.slots ∧ (∀ c ∈ t.keys.caches, c.1 ≠ gceEngine) ∧ t.count 0x4000 4 = capTo 64 (s.count 0x4000 4 + 1) ∧
      t = { s with gce := t.gce, keys := t.keys, ctr := t.ctr, records := t.records }) ∧
  (∀ (s u : State) (b : Bytes), s.alive = true → s.gce.fault = false →
    ({ s with gce := { s.gce with ctrl := 8 } } : State).drawChild drbgGce 16 = some (b, u) →
    exec .drbg s = .next { u with gce := { u.gce with dout := b, done := true } }) ∧
  (∀ s : State, s.alive = true → s.gce.fault = false → s.random.stopped = true →
    ∃ t : State, exec .drbg s = .next t ∧ t.gce = { s.gce with ctrl := 8, err := true, cause := 8 } ∧
      t = { s with gce := t.gce, ctr := t.ctr, records := t.records }))

/-- The random sources, and the upkeep of the key store (R341, R342, R343, R349, R331, R340). -/
def Obligations.RandomSources : Prop :=
  ((∀ (s : State) (w : Nat), s.bring.por = false → s.random.stopped = false → s.random.seed = none → s.random.words.length < 6 →
    ∃ t : State, exec (.entropyWord w) s = .next t ∧ t = { s with random := t.random } ∧ t.random.inst = s.random.inst ∧
      (s.random.words.length < 5 → t.random.words = s.random.words ++ [w % 2 ^ 64] ∧ t.random.seed = none) ∧
      (s.random.words.length = 5 → t.random.words = [] ∧ t.random.seed = some ((s.random.words ++ [w % 2 ^ 64]).flatMap (leBytes 8)))) ∧
  (∀ (s : State) (seed : Bytes), s.bring.por = false → s.random.stopped = false → s.random.seed = some seed →
    ∃ t : State, exec .masterReseed s = .next t ∧ t.random.seed = none ∧ t.random.reseedAt = s.loc ∧
      tblGet t.random.inst 0 {} = drbgSeed (tblGet s.random.inst 0 {}) seed ∧ (tblGet t.random.inst 0 {}).requests = 0 ∧
      (∀ k, k ≠ 0 → tblGet t.random.inst k {} = tblGet s.random.inst k {}) ∧
      t.count 0x4020 2 = capTo 64 (s.count 0x4020 2 + 1) ∧ t = { s with random := t.random, ctr := t.ctr }) ∧
  (∀ (s : State) (n : Nat), s.bring.por = false → 1 ≤ n → n ≤ 46 → drawable s →
    ∃ t : State, exec (.childReseed n) s = .next t ∧ (tblGet t.random.inst n {}).live = true ∧ (tblGet t.random.inst n {}).requests = 0 ∧
      (∀ k, k ≠ 0 → k ≠ n → tblGet t.random.inst k {} = tblGet s.random.inst k {}) ∧ t = { s with random := t.random, ctr := t.ctr, freeCount := t.freeCount } ∧
      (if (tblGet s.random.inst 0 {}).requests < 65536
        then (tblGet t.random.inst 0 {}).requests = (tblGet s.random.inst 0 {}).requests + 1 ∧ t.count 0x4020 2 = capTo 64 (s.count 0x4020 2 + 1) ∧ t.freeCount = s.freeCount
        else (tblGet t.random.inst 0 {}).requests = 1 ∧ t.count 0x4020 2 = capTo 64 (capTo 64 (s.count 0x4020 2 + 1) + 1) ∧ t.random.reseedAt = s.loc)) ∧
  (∀ s : State, s.bring.por = false → s.random.stopped = false →
    ∃ t : State, exec .drbgStop s = .next t ∧ t.random.stopped = true ∧ t.random.inst = [] ∧ t.entryValue 0x4020 3 = [1#8] ∧
      (s.bring.ready = true → t.bring = s.bring ∧ t.faults = s.faults) ∧
      (s.bring.ready = false → t.bring = { s.bring with halted := true } ∧ t.faults.errCode = 0x9014) ∧
      t = { s with random := t.random, alarms := t.alarms, ctr := t.ctr, records := t.records, bring := t.bring, faults := t.faults }) ∧
  (∀ (s u : State) (m : Mgmt) (b : Bytes) (offset length : Nat), s.serving = true → s.roleOf m ≠ .none → offset < 32 →
    offset + length ≤ 32 → s.drawChild drbgGce 32 = some (b, u) →
    exec (.randomRead m offset length) s = .next (u.answer m 0x4030 1 0 ((b.drop offset).take (if length = 0 then 32 else length)))) ∧
  (∀ (s : State) (m : Mgmt) (offset length : Nat), s.serving = true → s.roleOf m ≠ .none → offset < 32 → offset + length ≤ 32 →
    s.random.stopped = true → exec (.randomRead m offset length) s = .next (s.answer m 0x4030 1 0x0802 []))) ∧
  ((∀ (s : State) (w : Nat), s.alive = true → exec (.kspStatusClear w) s =
    .next { s with keys := { s.keys with done := s.keys.done && !w.testBit 1, err := s.keys.err && !w.testBit 2 } }) ∧
  (∀ s : State, s.alive = true → ∃ t : State, exec .scrubberVisit s = .next t ∧ t.keys.scrubAt = (s.keys.scrubAt + 1) % 65536 ∧
    t.slot s.keys.scrubAt =
      (if (s.slot s.keys.scrubAt).state ≠ 0 ∧ s.usable s.keys.scrubAt = false then {} else s.slot s.keys.scrubAt) ∧
    (∀ j, j ≠ s.keys.scrubAt → t.slot j = s.slot j) ∧ t = { s with keys := t.keys }))

/-- What power-on reset and a block reset leave (R65, R68, R437, R438, R529, R532, R53, R493). -/
def Obligations.PowerOnReset : Prop :=
  ((∀ s : State, s.due = [] → ∃ t : State, exec .powerOnResetAssert s = .next t ∧
    t = { State.reset with cfg := s.cfg, pending := s.pending, out := s.out, freeCount := s.freeCount, fuses := s.fuses, alarms := t.alarms, mem := t.mem, links := t.links, chips := t.chips, hosts := t.hosts } ∧
    t.alarms = { active := s.alarms.active } ∧ (∀ m, (t.port m).regions = [] ∧ (t.port m).ctrlUp = (s.port m).ctrlUp) ∧
    (∀ l, (t.link l).state = 0 ∧ (t.link l).pcsUp = (s.link l).pcsUp) ∧ (∀ c, (t.chip c).slot = none ∧ (t.chip c).modules = (s.chip c).modules)) ∧
  (∀ (s : State) (entropy image : Option Bytes), s.bring.por = true →
    ∃ t : State, exec (.powerOnReset entropy image) s = .next t.settle ∧ t.bring.por = false ∧ t.loc = 0 ∧ t.cfg = s.cfg ∧ t.pending = s.pending ∧
      t.parts = [] ∧ t.ctxs = [] ∧ t.queues = [] ∧ t.objs = [] ∧ t.cmds = [] ∧ t.otags = [] ∧ t.settings = [] ∧ (∀ m, (t.port m).regions = []) ∧
      (∀ l, s.vote.interrupted = some l → t.bring.rstReq = true ∧ t.faults.errCode = 0x9000 ∧ t.bring.ready = false ∧ copiesRead t l) ∧
      (s.vote.interrupted = none → entropy = none → t.bring.halted = true ∧ t.faults.errCode = 0x9014 ∧ t.bring.ready = false) ∧
      (s.vote.interrupted = none → entropy ≠ none → image = none → t.bring.phase = 4 ∧ t.bring.ready = false ∧ t.bring.halted = false) ∧
      (∀ e im, s.vote.interrupted = none → s.vote.life.state = .blank → entropy = some e → image = some im →
        t.bring.ready = true ∧ t.bring.phase = 8 ∧ t.fw.image = im.take 262144)) ∧
  (∀ (s : State) (entropy image : Option Bytes), s.due = [] → s.bring.por = false → exec (.powerOnReset entropy image) s = .next s)) ∧
  ((∀ (s : State) (entropy : Option Bytes), s.bring.rstReq = true → s.bring.por = false → s.power.state = 0 →
    ∃ t : State, exec (.blockReset entropy) s = .next t.settle ∧ t.bring.por = false ∧ t.loc = s.loc ∧ t.cfg = s.cfg ∧ t.pending = s.pending ∧
      t.faults.blockFaults = s.faults.blockFaults ∧ t.parts = [] ∧ t.ctxs = [] ∧ t.queues = [] ∧ t.objs = [] ∧ t.cmds = [] ∧
      t.settings = [] ∧ (∀ m, (t.port m).regions = []) ∧
      (s.vote.interrupted = none → entropy = none → t.bring.halted = true ∧ t.faults.errCode = 0x9014) ∧
      (s.vote.interrupted = none → entropy ≠ none → s.fw.source ≠ 0 → t.bring.ready = true ∧ t.fw.image = s.fw.image ∧ t.fw.source = 2)) ∧
  (∀ (s : State) (entropy : Option Bytes), s.due = [] → s.bring.rstReq = true → s.bring.por = false → s.power.state ≠ 0 →
    exec (.blockReset entropy) s = .next s.beginExit) ∧
  (∀ (s : State) (entropy : Option Bytes), s.due = [] → s.bring.rstReq = false → exec (.blockReset entropy) s = .next s))

/-- What the loader and the Maker write into a block (R529, R530, R531, R51, R343, R440, R460). -/
def Obligations.LoaderMessages : Prop :=
  ((∀ (s : State) (tag offset : Nat) (data : Bytes), s.due = [] → s.bring.por = false → s.awake = true → s.bring.phase = 4 → s.bring.ready = false →
    exec (.block tag offset data) s = .next (if offset = s.fw.image.length ∧ offset % 4096 = 0 ∧ offset < 262144 ∧ data.length ≤ 4096 ∧ offset + data.length ≤ 262144
      then { s with fw := { s.fw with image := s.fw.image ++ data }, out := s.out ++ [.loader 0x81 tag 0] }
      else { s with out := s.out ++ [.loader 0x81 tag 1] }) ∧
    exec (.go tag) s = .next { s with bring := { s.bring with phase := 5, goTag := tag } } ∧
    exec (.status tag) s = .next { s with out := s.out ++ [.loader 0x83 tag 0] }) ∧
  (∀ s : State, s.due = [] → s.bring.por = false → s.awake = true → s.bring.phase = 5 →
    ∃ t : State, exec .imageVerified s = .next t ∧ t.out = s.out ++ [.loader 0x82 s.bring.goTag s.bootCheck] ∧
      (s.life.state = .blank → s.bootCheck = 0) ∧
      (s.bootCheck = 0 → t.bring.ready = true ∧ t.bring.phase = 8 ∧ t.bring.readyAt = s.loc ∧ t.fw.image = s.fw.image ∧
        t.fw.version = imageVersion s.fw.image ∧ t.fw.svn = imageSvn s.fw.image ∧ t.fw.source = 1) ∧
      (s.bootCheck ≠ 0 → t.bring.ready = s.bring.ready ∧ t.bring.phase = 4 ∧ t.fw.image = []))) ∧
  ((∀ (s u : State) (m : Mgmt) (b : Bytes), granted s m 0x1101 5 (leBytes 1 1) → s.life.state = .blank → ¬ 5 ∈ s.life.written →
    (∀ x ∈ s.fuseBytes 0 12, x = 0#8) →
    ({ s with life := { s.life with written := 5 :: s.life.written } } : State).drawMaster 48 = some (b, u) →
    exec (.generateSecret m 1) s = .next (accepted s (u.blowBytes 0 b) m 0x1101 5 (leBytes 1 1))) ∧
  (∀ (s : State) (m : Mgmt), granted s m 0x1101 5 (leBytes 1 1) → s.life.state = .blank → ¬ 5 ∈ s.life.written →
    (∀ x ∈ s.fuseBytes 0 12, x = 0#8) → s.random.stopped = true →
    exec (.generateSecret m 1) s = .next (turnedAway s m 0x1101 5 (leBytes 1 1) 0x0802)) ∧
  (∀ (s : State) (m : Mgmt) (v : Nat), granted s m 0x1101 6 (leBytes 8 v) → s.life.state = .blank → ¬ 6 ∈ s.life.written →
    (∀ x ∈ s.fuseBytes 0x18 2, x = 0#8) →
    exec (.serialWrite m v) s = .next (accepted s
      (({ s with life := { s.life with written := 6 :: s.life.written } } : State).blowBytes 0x18 (leBytes 8 v)) m 0x1101 6 (leBytes 8 v))) ∧
  (∀ (s : State) (m : Mgmt) (b : Bytes), granted s m 0x1101 7 b → s.life.state = .blank → ¬ 7 ∈ s.life.written →
    (∀ x ∈ s.fuseBytes 0x20 12, x = 0#8) →
    exec (.debugKeyDigestWrite m b) s = .next (accepted s
      (({ s with life := { s.life with written := 7 :: s.life.written } } : State).blowBytes 0x20 (padTo 48 b)) m 0x1101 7 b)) ∧
  (∀ (s : State) (m : Mgmt) (v : Nat) (b : Bytes), s.life.state ≠ .blank ∨ (5 ∈ s.life.written ∧ 6 ∈ s.life.written ∧ 7 ∈ s.life.written) →
    (granted s m 0x1101 5 (leBytes 1 v) → exec (.generateSecret m v) s = .next (turnedAway s m 0x1101 5 (leBytes 1 v) 0x0801)) ∧
    (granted s m 0x1101 6 (leBytes 8 v) → exec (.serialWrite m v) s = .next (turnedAway s m 0x1101 6 (leBytes 8 v) 0x0801)) ∧
    (granted s m 0x1101 7 b → exec (.debugKeyDigestWrite m b) s = .next (turnedAway s m 0x1101 7 b 0x0801))))

/-- Programming a fuse word blows bits and restores none, asks for bits that are not blown alone, and gives up after three attempts
(R51, R441; which bits an attempt blows is open, log entry 48). -/
def Obligations.FusesOnlyBlow : Prop :=
  ∀ (s : State) (w v : Nat), ∃ (t : State) (asks : List Nat), s.blow w v = t ∧ t = { s with fuses := t.fuses, out := t.out, freeCount := t.freeCount } ∧
    let old := tblGet s.fuses w 0
    let new := tblGet t.fuses w 0
    old ||| new = new ∧ new ||| (old ||| v % 2 ^ 32) = old ||| v % 2 ^ 32 ∧ (∀ k, k ≠ w → tblGet t.fuses k 0 = tblGet s.fuses k 0) ∧
    t.out = s.out ++ asks.map (fun b => .fuse w b) ∧ asks.length ≤ 3 ∧ (∀ b ∈ asks, b ≠ 0 ∧ b &&& old = 0 ∧ v % 2 ^ 32 ||| b = v % 2 ^ 32) ∧
    (asks.length < 3 → new = old ||| v % 2 ^ 32) ∧ (v % 2 ^ 32 ||| old = old → t = s)

/-- A life-cycle transition, and which are allowed (R438, R439, R441). -/
def Obligations.LifeCycleTransition : Prop :=
  ((∀ (s : State) (m : Mgmt) (code : Nat), granted s m 0x1101 1 (leBytes 1 code) → code < 256 →
    exec (.targetState m code) s = .next (if code ≤ 3 then accepted s { s with life := { s.life with target := some code, confirm := 1, requester := s.roleOf m } } m 0x1101 1 (leBytes 1 code)
      else turnedAway s m 0x1101 1 (leBytes 1 code) 0x0609)) ∧
  (∀ (s : State) (m : Mgmt) (v : Nat), granted s m 0x1101 2 (leBytes 4 v) → v < 2 ^ 32 → (s.life.target = none ∨ s.life.confirm ≠ 1) →
    exec (.confirmation m v) s = .next (turnedAway s m 0x1101 2 (leBytes 4 v) 0x0801)) ∧
  (∀ (s : State) (m : Mgmt) (v c : Nat), granted s m 0x1101 2 (leBytes 4 v) → v < 2 ^ 32 → s.life.target = some c → s.life.confirm = 1 →
    v ≠ s.serial % 2 ^ 32 →
    exec (.confirmation m v) s = .next (accepted s { s with life := { s.life with target := none, confirm := 0 } } m 0x1101 2 (leBytes 4 v))) ∧
  (∀ (s : State) (m : Mgmt) (v c : Nat) (l : Life), granted s m 0x1101 2 (leBytes 4 v) → v < 2 ^ 32 → s.life.target = some c → s.life.confirm = 1 →
    v = s.serial % 2 ^ 32 → lifeOf c = some l →
    (s.transitionGate l s.life.requester ≠ 0 →
      exec (.confirmation m v) s = .next (turnedAway s m 0x1101 2 (leBytes 4 v) (s.transitionGate l s.life.requester))) ∧
    (s.transitionGate l s.life.requester = 0 →
      ∃ t : State, exec (.confirmation m v) s = .next t.settle ∧ t.bring.rstReq = true ∧ t.faults.errCode = 0x9000 ∧ copiesRead t l)) ∧
  (∀ s : State, calm s → s.life.confirm = 1 → exec .confirmationTimeout s = .next { s with life := { s.life with target := none, confirm := 0 } })) ∧
  (∀ (s : State) (l : Life) (r : Role), s.transitionGate l r = 0 ↔
    (s.life.state = .blank ∧ l = .test ∧ r = .maker ∧ (∃ x ∈ s.fuseBytes 0 12, x ≠ 0#8) ∧ (∃ x ∈ s.fuseBytes 0x18 2, x ≠ 0#8) ∧
      (∃ x ∈ s.fuseBytes 0x20 12, x ≠ 0#8)) ∨
    (s.life.state = .test ∧ l = .production ∧ r = .maker ∧ s.fw.fw = 0) ∨
    ((s.life.state = .test ∨ s.life.state = .production) ∧ l = .endOfLife ∧ (r = .maker ∨ r = .installer)))

/-- Debug: challenge, submission, opening in Test, closing, and the clearing between (R442, R443, R444, R445). -/
def Obligations.DebugAuthorisation : Prop :=
  (∀ (s u : State) (m : Mgmt) (n : Bytes), granted s m 0x1102 1 (leBytes 1 1) → s.life.state = .production → s.life.failures < 8 → s.life.debug < 2 →
    s.drawMaster 32 = some (n, u) →
    exec (.debugChallenge m) s = .next (accepted s
      { u with life := { u.life with challenge := u.challengeBytes n 0, challengeAt := u.loc, debug := 1 } } m 0x1102 1 (leBytes 1 1))) ∧
  (∀ (s : State) (m : Mgmt), granted s m 0x1102 1 (leBytes 1 2) → s.life.state = .production → s.fw.fw = 0 → s.life.debug = 1 →
    ∃ u : State, exec (.submit m) s = .next (accepted s u m 0x1102 1 (leBytes 1 2)) ∧ u.life.challenge = [] ∧
      (if s.expired s.life.challengeAt (s.setting 0x1102 5) = false ∧ sha384 (rspEcKey s.life.response) = s.makerDigest ∧
          responseHolds "SH9v2 debug" s.life.challenge s.life.response = true
       then u.life.debug = 3 ∧ u.life.failures = 0 ∧ u.life.cleared = false else u.life.debug = 0 ∧ u.life.failures = min 255 (s.life.failures + 1))) ∧
  (∀ (s : State) (m : Mgmt), granted s m 0x1102 1 (leBytes 1 4) → s.life.state = .test →
    (s.roleOf m ≠ .maker → exec (.openInTest m) s = .next (turnedAway s m 0x1102 1 (leBytes 1 4) 0x0601)) ∧
    (s.roleOf m = .maker → s.life.debug < 3 → ∃ u : State, exec (.openInTest m) s = .next (accepted s u m 0x1102 1 (leBytes 1 4)) ∧
      u.life.debug = 3 ∧ u.life.cleared = false ∧ u = { s with agent := u.agent, ctr := u.ctr, life := u.life })) ∧
  (∀ (s : State) (m : Mgmt), granted s m 0x1102 1 (leBytes 1 3) → (s.life.state = .test → s.roleOf m = .maker) →
    ∃ u : State, exec (.closeByBlockReset m) s = .next (accepted s u m 0x1102 1 (leBytes 1 3)) ∧ u.bring = { s.bring with rstReq := true } ∧
      u = { s with bring := u.bring, faults := u.faults, freeCount := u.freeCount }) ∧
  (∀ s : State, s.alive = true → s.life.debug = 3 → s.life.cleared = false → ∃ t : State, exec .clearing s = .next t.settle ∧ t.life.cleared = true) ∧
  (∀ s : State, calm s → s.life.debug = 3 → s.life.cleared = true → (∀ kv ∈ s.parts, kv.2.state = 0) →
    ∃ t : State, exec .clearingDone s = .next t ∧ t.life = { s.life with debug := 4 } ∧ t = { s with life := t.life, agent := t.agent, ctr := t.ctr })

/-- The bring-up gate, founding a domain and joining one (R533, R534, R535, R536, R537). -/
def Obligations.GateAndMembership : Prop :=
  (∀ (s : State) (m : Mgmt), granted s m 0x7001 1 (leBytes 1 1) → (s.life.state = .test ∨ s.life.state = .production) →
    (s.bring.gate = true → exec (.gateOpen m 1) s = .next (accepted s s m 0x7001 1 (leBytes 1 1))) ∧
    (s.bring.gate = false → ∃ t : State, exec (.gateOpen m 1) s = .next t.settle ∧ t.bring = { s.bring with gate := true, gateAt := s.loc })) ∧
  (∀ (s : State) (m : Mgmt), granted s m 0x7002 2 (leBytes 1 1) → s.bring.gate = true → s.bring.member = false → s.life.debug ≠ 4 → s.bring.join ≠ 1 →
    drawable s → (s.slot domainSlot).state = 0 → s.usable rootSlot = true → s.fertile rootSlot = true → (s.slot domainSlot).gen < 0xFFFFFFFF →
    ∃ t : State, exec (.found m) s = .next t.settle ∧ t.bring.member = true ∧ t.bring.memberId = s.setting 0x7002 1 ∧ t.bring.memberAt = s.loc ∧
      (t.slot domainSlot).state = 1 ∧ (t.slot domainSlot).gen = (s.slot domainSlot).gen) ∧
  (∀ (s : State) (m : Mgmt), granted s m 0x7002 2 (leBytes 1 1) → s.bring.gate = false →
    exec (.found m) s = .next (turnedAway s m 0x7002 2 (leBytes 1 1) 0x0801)) ∧
  (∀ (s : State) (m : Mgmt) (p : Hello), granted s m 0x7002 2 (leBytes 1 2) → s.bring.gate = true → s.bring.member = false → s.life.debug ≠ 4 → s.bring.join ≠ 1 →
    (s.link s.joinPort).state = 3 → (s.link s.joinPort).peer = some p → p.isMember = true →
    ∃ t : State, exec (.joinCommand m) s = .next t.settle ∧ t.bring.join = 1 ∧ t.bring.joinLink = s.joinPort ∧ t.bring.joinReason = 0) ∧
  (∀ (s : State) (l status gen : Nat) (domain key : Bytes), calm s → l < s.cfg.links → s.bring.join = 1 → s.bring.joinLink = l → (s.link l).state = 3 →
    (s.link l).session.requester = true → (s.link l).session.stage = 5 → status ≠ 0 → status < 256 →
    ∃ t : State, exec (.joinGrant l status gen domain key) s = .next t ∧ t.bring = { s.bring with join := 3, joinReason := status } ∧
      t = { s with bring := t.bring, agent := t.agent, ctr := t.ctr }) ∧
  (∀ s : State, calm s → ∃ t : State, exec .joinBoundExpiry s = .next t ∧
    t.bring = (if s.bring.join = 1 then { s.bring with join := 3, joinReason := 6 } else s.bring) ∧ t = { s with bring := t.bring, agent := t.agent, ctr := t.ctr }) ∧
  (∀ (s : State) (l member : Nat), calm s → s.bring.ready = true → l < s.cfg.links → s.reachable (.link l) = true → s.fw.fw = 0 →
    (s.life.state = .test ∨ s.life.state = .production) → s.bring.member = true → s.asks (.link l) = false → (s.link l).session.stage = 5 → member < 2 ^ 16 →
    ∃ (t : State) (b : Bytes), exec (.join l member) s = .next t ∧ t.out = s.out ++ [.spdm (.link l) rspVendor b] ∧ t.keys = s.keys ∧ t.bring = s.bring ∧
      (s.joinReason l member ≠ 0 → b = [BitVec.ofNat 8 (s.joinReason l member)] ∧ t.settings = s.settings) ∧
      (s.joinReason l member = 0 → ∃ j, s.permitFor l member = some j ∧ t.setting 0x7003 j = 0 ∧
        b = 0#8 :: (leBytes 8 s.bring.domain ++ leBytes 4 (s.slot domainSlot).gen ++ s.slotKey domainSlot)))

/-- Staging, committing and discarding an image, and the Maker chains (R358, R363, R364, R365). -/
def Obligations.FirmwareUpdate : Prop :=
  (∀ (s : State) (m : Mgmt) (b : Bytes), granted s m 0x4130 2 b →
    exec (.imageBlock m b) s = .next (if s.fw.fw = 0 then accepted s { s with fw := { s.fw with staged := writeBlock s.fw.staged s.fw.offset (padTo 4096 b) } } m 0x4130 2 b
      else turnedAway s m 0x4130 2 b 0x0801)) ∧
  (∀ (s : State) (m : Mgmt), granted s m 0x4130 3 (leBytes 1 1) →
    (s.fw.fw ≠ 0 → exec (.stage m) s = .next (turnedAway s m 0x4130 3 (leBytes 1 1) 0x0801)) ∧
    (s.fw.fw = 0 → ∃ u : State, exec (.stage m) s = .next (accepted s u m 0x4130 3 (leBytes 1 1)) ∧ u = { s with fw := u.fw } ∧ u.fw.staged = s.fw.staged ∧
      (s.imageCheck s.fw.staged = 0 ∧ s.fw.svn ≤ imageSvn s.fw.staged → u.fw.fw = 1 ∧ u.fw.reason = 0 ∧ u.fw.stagedSvn = imageSvn s.fw.staged) ∧
      (s.imageCheck s.fw.staged ≠ 0 → u.fw.fw = 0 ∧ u.fw.reason = s.imageCheck s.fw.staged) ∧
      (s.imageCheck s.fw.staged = 0 ∧ imageSvn s.fw.staged < s.fw.svn → u.fw.fw = 0 ∧ u.fw.reason = 3))) ∧
  (∀ (s : State) (m : Mgmt), granted s m 0x4130 3 (leBytes 1 2) →
    (s.fw.fw ≠ 1 → exec (.commit m) s = .next (turnedAway s m 0x4130 3 (leBytes 1 2) 0x0801)) ∧
    (s.fw.fw = 1 → ∃ t : State, exec (.commit m) s = .next t.settle ∧ t.fw.fw = 2 ∧ t.fw.conns = [])) ∧
  (∀ (s : State) (m : Mgmt), granted s m 0x4130 3 (leBytes 1 3) →
    (s.fw.fw ≠ 1 → exec (.discard m) s = .next (turnedAway s m 0x4130 3 (leBytes 1 3) 0x0801)) ∧
    (s.fw.fw = 1 → (∀ l, (s.link l).updateDue = false) → (∀ c, (s.chip c).updateDue = false) →
      exec (.discard m) s = .next (accepted s { s with fw := { s.fw with command := 3, fw := 0, staged := [], stagedSvn := 0 } } m 0x4130 3 (leBytes 1 3)))) ∧
  (∀ s : State, calm s → s.fw.fw = 2 → ∃ t : State, exec .commitDone s = .next t ∧ t.fw.fw = 0 ∧ t.fw.image = s.fw.staged ∧ t.fw.staged = [] ∧
    t.fw.version = imageVersion s.fw.staged ∧ t.fw.svn = imageSvn s.fw.staged ∧ t = { s with fw := t.fw }) ∧
  (∀ (s : State) (m : Mgmt) (pq : Bool) (chain : Bytes), granted s m 0x4120 (1 + bn pq) chain →
    exec (.certificateChainWrite m pq chain) s = .next (
      if (if pq then s.fw.devPq else s.fw.devEc) ≠ [] ∧ Config.lastCertKey pq chain = some (if pq then s.fw.devPq else s.fw.devEc)
      then accepted s { s with fw := if pq then { s.fw with chainPq := chain } else { s.fw with chainEc := chain } } m 0x4120 (1 + bn pq) chain
      else turnedAway s m 0x4120 (1 + bn pq) chain 0x0609))

/-- Physical resets of ports, and function-level resets (R15, R65, R66, R68, R316, R481). -/
def Obligations.PortPhysicalResets : Prop :=
  ((∀ (s : State) (i : Nat), s.alive = true →
    (i < s.cfg.chipPorts → ∃ t : State, exec (.portPhysicalReset .chiplet i) s = .next t.settle ∧ (t.chip i).inReset = true ∧ (t.chip i).modules = 0 ∧
      (t.chip i).stateReq = 0 ∧ (t.chip i).slot = none) ∧
    (i < s.cfg.links → ∃ t : State, exec (.portPhysicalReset .link i) s = .next t.settle ∧ (t.link i).inReset = true ∧ (t.link i).pcsUp = false ∧
      (t.link i).holdoff = false) ∧
    (i < s.cfg.hostPorts → ∃ t : State, exec (.portPhysicalReset .host i) s = .next t.settle ∧ (t.host i).inReset = true ∧ (t.host i).cfg = [] ∧
      (t.host i).doeIn = [] ∧ ∀ kv ∈ (t.host i).dma, kv.2.lost = true)) ∧
  (∀ (s : State) (i : Nat), calm s →
    (i < s.cfg.chipPorts → exec (.portResetRelease .chiplet i) s = .next (s.modChip i fun c => { c with inReset := false, stateReq := 1 })) ∧
    (i < s.cfg.links → exec (.portResetRelease .link i) s = .next (if (s.link i).inReset then
      s.modLink i fun l => { l with inReset := false, trainReq := l.state ≠ 7 } else s)) ∧
    (i < s.cfg.hostPorts → ∃ t : State, exec (.portResetRelease .host i) s = .next t ∧ (t.host i).inReset = false)) ∧
  (∀ (s : State) (i : Nat) (low : Bool), s.alive = false → s.due = [] →
    let c := fun k => if low then Instr.portPhysicalReset k i else .portResetRelease k i
    (i < s.cfg.chipPorts → exec (c .chiplet) s = .next (s.modChip i fun c => { c with inReset := low, modules := if low then 0 else c.modules })) ∧
    (i < s.cfg.links → exec (c .link) s = .next (s.modLink i fun l => { l with inReset := low, pcsUp := l.pcsUp && !low })) ∧
    (i < s.cfg.hostPorts → exec (c .host) s = .next (s.modHost i fun h => { h with inReset := low }))) ∧
  (∀ (s : State) (i : Nat), s.cfg.links ≤ i → exec (.portPhysicalReset .link i) s = .fault .absentUnit)) ∧
  ((∀ (s : State) (h fn : Nat), calm s → s.faults.phase = 0 → s.power.state = 0 → (s.host h).inReset = false → h < s.cfg.hostPorts → 1 ≤ fn → fn ≤ 256 →
    (∀ kv ∈ s.tdis, kv.1 ≠ tdiKey h (fn - 1)) → exec (.functionLevelReset h fn) s = .next (s.beginExit.emit (.flrDone h fn))) ∧
  (∀ (s : State) (h fn : Nat), calm s → s.faults.phase = 0 → s.power.state ≠ 0 → (s.host h).inReset = false → h < s.cfg.hostPorts → fn ≤ 256 →
    exec (.functionLevelReset h fn) s = .next
      ({ s with power := { s.power with flrDue := s.power.flrDue.filter (· ≠ (h, fn)) ++ [(h, fn)] } } : State).beginExit) ∧
  (∀ (s : State) (h fn : Nat), calm s → (s.host h).inReset = true → h < s.cfg.hostPorts → fn ≤ 256 → exec (.functionLevelReset h fn) s = .next s) ∧
  (∀ (s : State) (h fn : Nat), rested s → s.power.state = 0 → (s.host h).inReset = false → h < s.cfg.hostPorts → 1 ≤ fn → fn ≤ 256 → (∃ kv ∈ s.tdis, kv.1 = tdiKey h (fn - 1)) →
    (s.tdi (tdiKey h (fn - 1))).stopping = false →
    ∃ t : State, exec (.functionLevelReset h fn) s = .next t.settle ∧ (t.tdi (tdiKey h (fn - 1))).state = 0 ∧ (t.tdi (tdiKey h (fn - 1))).slot = 0) ∧
  (∀ (s : State) (h fn : Nat), s.cfg.hostPorts ≤ h → exec (.functionLevelReset h fn) s = .fault .absentUnit))

/-- Power states: entry, wake and exit, and what stopped units do (R68, R69, R70, R72). -/
def Obligations.PowerStates : Prop :=
  (∀ s : State, rested s → s.power.exiting = none → s.power.entering = none → (s.power.state = 0 ∨ s.power.state = 2) →
    s.permitted (s.power.state + 1) = true → s.entryHolds (s.power.state + 1) = true →
    exec .powerStateEntry s = .next (({ s with power := { s.power with state := s.power.state + 1 } } : State).stateTrace 8 0 s.power.state (s.power.state + 1))) ∧
  (∀ s : State, rested s → s.power.exiting = none → s.power.entering = none → s.power.state = 1 → s.permitted 2 = true →
    s.entryHolds 2 = true → (∀ l, (s.link l).state ≠ 4) → (∀ kv ∈ s.links, kv.2.state ≠ 4) → (∀ c, (s.chip c).state ≠ 4) → (∀ kv ∈ s.chips, kv.2.state ≠ 4) →
    exec .powerStateEntry s = .next (({ s with power := { s.power with state := 2, entering := none } } : State).stateTrace 8 0 1 2)) ∧
  (∀ s : State, rested s → s.permitted (s.power.state + 1) = false → exec .powerStateEntry s = .next s) ∧
  (∀ (s : State) (w : WakeCause), calm s → exec (.wakeEvent w) s = .next (
    if s.power.exiting = some 0 ∨ s.power.state = 0 ∧ s.power.entering = none then s
    else { s with power := { s.power with entering := none, exiting := some 0 } })) ∧
  (∀ (s : State) (k : Nat), s.alive = true → s.power.exiting = some k →
    ∃ t : State, exec .exitComplete s = .next (
        let u := (List.range s.cfg.chipPorts).foldl (fun s c => s.resumeChip c) ((List.range s.cfg.links).foldl (fun s l => s.resumeLink l) t)
        if 2 ≤ k then t else if k = 0 then u.settleDue else u).settle ∧
      t.power = { s.power with state := k, exiting := none, exits := if k = 0 ∧ s.power.state ≠ 0 then sat32 (s.power.exits + 1) else s.power.exits } ∧
      t = { s with power := t.power, records := t.records, ctr := t.ctr }) ∧
  (∀ s : State, calm s → s.power.exiting = none → exec .exitComplete s = .next s) ∧
  (∀ (s : State) (i p : Nat) (entropy : Option Bytes) (c : Instr), rested s → s.power.state ≠ 0 → s.arithWork = true → (s.ctx i).resetDue = true →
    (s.partn p).resetDue = true → s.bring.rstReq = true →
    c ∈ [Instr.attentionStep i, .shardMerge i, .kvAppend i, .sample i, .bridgeStream i, .reduce i, .merge i, .contextReset i, .partitionReset p,
      .blockReset entropy] →
    p < s.cfg.partitions → exec c s = .next s.beginExit)

/-- A regulation window restarts the byte counts and recomputes the latency tolerance (R70, R71, R427, R432). -/
def Obligations.RegulationWindow : Prop :=
  (∀ (s : State) (derate ltr : List Nat), calm s → s.fclk = false → exec (.regulationWindow derate ltr) s = .next s) ∧
  ∀ (s : State) (derate ltr : List Nat), s.alive = true → s.fclk = true →
    ∃ w : State, exec (.regulationWindow derate ltr) s = .next w.leaveForbidden.drainTrace.settle ∧ w.power.used = [] ∧
      w.power.ltr = ltr.take s.cfg.hostPorts ∧ w.power.state = s.power.state ∧ w.power.exiting = s.power.exiting ∧
      w.power.tolerance = ((ltr.take s.cfg.hostPorts).filterMap ltrTolerance).foldl min (s.setting 0x1210 1) ∧
      (∀ m, m < s.cfg.memPorts → (w.port m).derate = derate.getD m 255 % 256 ∧ (w.port m).sweep.used = 0) ∧
      w.links = s.links ∧ w.queues = s.queues ∧ w.parts = s.parts ∧ w.settings = s.settings

/-- What hp_ltr_tol requires, and that a tolerance of zero permits S0 only (R71). -/
def Obligations.LatencyTolerance : Prop :=
  (∀ v : Nat, ltrTolerance v = if v.testBit 15 = false then none
    else if v / 2 ^ 10 % 8 < 6 then some (v % 2 ^ 10 * [1, 32, 1024, 32768, 1048576, 33554432].getD (v / 2 ^ 10 % 8) 0) else some 0) ∧
  (∀ (s : State) (k : Nat), s.power.tolerance = 0 → (s.permitted k = true ↔ k = 0)) ∧
  (∀ (s : State) (ltr : List Nat), s.tolerance ltr = ((ltr.take s.cfg.hostPorts).filterMap ltrTolerance).foldl min (s.setting 0x1210 1))

/-- What an alarm input does, and what a source does at its threshold (R497, R499, R500, R501). -/
def Obligations.AlarmEvents : Prop :=
  ((∀ (s : State) (x : Sensor), s.alive = true → (x = .mesh → s.cfg.meshSensor = true) → ¬ sensorNum x ∈ s.alarms.active →
    exec (.alarmEvent (.sensorActive x)) s = .next ((({ s with alarms := { s.alarms with active := sensorNum x :: s.alarms.active } } : State).alarmFire
      ⟨(alarmSource x).1, none, 0, (alarmSource x).2⟩).settle)) ∧
  (∀ (s : State) (x : Sensor), s.alive = false → s.due = [] → (x = .mesh → s.cfg.meshSensor = true) → ¬ sensorNum x ∈ s.alarms.active →
    exec (.alarmEvent (.sensorActive x)) s = .next { s with alarms := { s.alarms with active := sensorNum x :: s.alarms.active } }) ∧
  (∀ (s : State) (x : Sensor), s.due = [] → sensorNum x ∈ s.alarms.active → exec (.alarmEvent (.sensorActive x)) s = .next s) ∧
  (∀ (s : State) (x : Sensor), s.due = [] →
    exec (.alarmEvent (.sensorClear x)) s = .next { s with alarms := { s.alarms with active := s.alarms.active.filter (· ≠ sensorNum x) } }) ∧
  (∀ (s : State) (e : AlarmPend) (rest : List AlarmPend), s.alive = true → s.alarms.pending = e :: rest →
    exec (.alarmEvent .internal) s = .next ((({ s with alarms := { s.alarms with pending := rest } } : State).alarmFire e).settle)) ∧
  (∀ s : State, calm s → exec .alarmWindow s = .next { s with alarms := { s.alarms with counts := [] } })) ∧
  ((∀ (s : State) (a : AlarmPend), byPartition a.sub = false → a.sub < 11 → tblGet s.alarms.counts a.sub 0 + 1 < s.setting 0x6100 a.sub / 2 ^ 16 →
    s.alarmFire a = { (s.bump 0x6104 a.sub).bump 0x6206 3 with alarms := { s.alarms with counts := tblPut s.alarms.counts a.sub (tblGet s.alarms.counts a.sub 0 + 1) } }) ∧
  (∀ (s : State) (a : AlarmPend), byPartition a.sub = false → a.sub < 11 → s.setting 0x6100 a.sub / 2 ^ 16 ≤ tblGet s.alarms.counts a.sub 0 + 1 →
    s.setting 0x6100 a.sub % 4 = 0 →
    ∃ t : State, s.alarmFire a = t ∧ tblGet t.alarms.counts a.sub 0 = 0 ∧ t.count 0x6105 1 = capTo 64 (s.count 0x6105 1 + 1) ∧
      t.count 0x6104 a.sub = capTo 64 (s.count 0x6104 a.sub + 1) ∧ t.agent.nextSeq = s.agent.nextSeq + 1 ∧
      (s.agent.notices.length < 255 → s.agent.notices ++ [⟨12, 0, a.err, none, 0, s.loc, a.sub + (tblGet s.alarms.counts a.sub 0 + 1) * 2 ^ 16, 0⟩] <+: t.agent.notices) ∧
      t = { s with agent := t.agent, ctr := t.ctr, alarms := t.alarms }))

/-- Arming an injection point, and the release of a fenced partition (R501, R503, R504, R505, R506). -/
def Obligations.InjectionAndRelease : Prop :=
  (∀ (s : State) (m : Mgmt) (b : Bytes), granted s m 0x6110 1 b → (s.roleOf m = .installer ∨ s.roleOf m = .maker) → s.life.state = .test →
    let v := leNat b
    exec (.injectionArm m b) s = .next (
      if injectionPoint (v % 256) = true ∧ (v % 256 = 0 ∨ v / 2 ^ 32 % 2 ^ 16 ≠ 0) ∧ s.injectionUnit (v % 256) (v / 2 ^ 8 % 256) = true ∧
        (v % 256 = 4 → v / 2 ^ 64 % 2 ^ 14 < s.cfg.contexts)
      then accepted s { s with alarms := { s.alarms with point := v % 256, unit := v / 2 ^ 8 % 256, count := if v % 256 = 0 then 0 else v / 2 ^ 32 % 2 ^ 16, ctx := v / 2 ^ 64 % 2 ^ 14 } } m 0x6110 1 b
      else turnedAway s m 0x6110 1 b 0x0609)) ∧
  (∀ (s : State) (m : Mgmt) (b : Bytes), granted s m 0x6110 1 b → s.roleOf m = .installer → s.life.state = .production → s.life.debug ≠ 4 →
    exec (.injectionArm m b) s = .next (turnedAway s m 0x6110 1 b 0x0801)) ∧
  (∀ (s : State) (m : Mgmt) (p : Nat), granted s m 0x6102 1 (leBytes 1 p) →
    exec (.releaseFencedPartition m p) s = .next (
      if (s.partn p).fenced then accepted s (s.modPart p fun k => { k with fenced := false, revoked := k.state = 3 }) m 0x6102 1 (leBytes 1 p)
      else turnedAway s m 0x6102 1 (leBytes 1 p) (if s.cfg.partitions ≤ p then 0x0609 else 0x0801)))

/-- How every dictionary write ends, and the audit log and the notices (R456, R466, R508, R455, R469, R474, R475). -/
def Obligations.EndOfWrite : Prop :=
  (∀ (s : State) (m : Mgmt) (i j a key : Nat) (v : Bytes) (r : Role), ∃ t : State, s.endWrite m i j v r key a = t ∧
    t.out = s.out ++ [.dict m.session m.tag i j a []] ∧
    t.count 0x1121 (if a = 0 then 1 else 2) = capTo 64 (s.count 0x1121 (if a = 0 then 1 else 2) + 1) ∧
    t.agent.nextSeq = s.agent.nextSeq + (if (∃ e, entryRow i j = some e ∧ e.audited = true) ∨ a = 0x0601 ∨ a = 0x0602 then 1 else 0) ∧
    sameButAnswer s t) ∧
  ((∀ (s : State) (m : Mgmt) (first count : Nat), s.serving = true → s.due = [] → s.roleOf m ≠ .none → 1 ≤ count → count ≤ 64 →
    ∃ t : State, exec (.auditRead m first count) s = .next t ∧
      t.out = s.out ++ [.dict m.session m.tag 0 0 0 (((s.agent.ring.filter fun r => decide (first ≤ r.seq)).take count).flatMap auditRecord)] ∧
      (∀ r ∈ (s.agent.ring.filter fun r => decide (first ≤ r.seq)).take count, r.seq ≤ t.agent.readTo.getD 0) ∧
      t.agent.ring = s.agent.ring ∧ sameButAnswer s t) ∧
  (∀ (s : State) (m : Mgmt) (first count : Nat), s.serving = true → s.due = [] → s.roleOf m ≠ .none → (count = 0 ∨ 64 < count) →
    exec (.auditRead m first count) s = .next (s.answer m 0 0 0x0609 [])) ∧
  (∀ (s : State) (m : Mgmt) (n : Note) (rest : List Note), s.serving = true → s.due = [] → s.roleOf m ≠ .none → s.agent.notices = n :: rest →
    exec (.notice m) s = .next (({ s with agent := { s.agent with notices := rest } } : State).answer m 0 0 0 (noteBytes n))) ∧
  (∀ (s : State) (m : Mgmt), s.serving = true → s.due = [] → s.roleOf m ≠ .none → s.agent.notices = [] →
    exec (.notice m) s = .next (s.answer m 0 0 0 [])))

/-- READ, DESCRIBE and the audit checkpoint (R454, R455, R456, R458, R460, R470). -/
def Obligations.DictionaryReads : Prop :=
  (∀ (s : State) (m : Mgmt) (d : DictMsg) (e : Entry), s.serving = true → s.due = [] → formCheck d 0 = 0 → s.readGate m d.index d.sub = .ok e →
    ¬ (d.index = 0x4030 ∨ d.index = 0x6220 ∨ d.index = 0x6221 ∨ d.index = 0x1120 ∧ d.sub = 4) →
    exec (.dictionaryRead m d) s = .next (if d.offset < e.size ∧ d.offset + d.length ≤ e.size ∧ d.length ≤ 4096
      then (s.wakeFor d.index).answer m d.index d.sub 0
        (((padTo e.size ((s.wakeFor d.index).entryValue d.index d.sub)).drop d.offset).take (if d.length = 0 then 4096 else d.length))
      else s.answer m d.index d.sub 0x0605 [])) ∧
  (∀ (s : State) (m : Mgmt) (d : DictMsg), s.serving = true → s.due = [] →
    (formCheck d 0 ≠ 0 → exec (.dictionaryRead m d) s = .next (s.answer m d.index d.sub (formCheck d 0) [])) ∧
    (∀ a, formCheck d 0 = 0 → s.readGate m d.index d.sub = .error a → exec (.dictionaryRead m d) s = .next (s.answer m d.index d.sub a [])) ∧
    (∀ e, formCheck d 0 = 0 → d.length = 0 → s.readGate m d.index d.sub = .ok e → exec (.describe m d) s = .next (s.answer m d.index d.sub 0 (describeBytes e))) ∧
    (∀ a, formCheck d 0 = 0 → d.length = 0 → s.readGate m d.index d.sub = .error a → exec (.describe m d) s = .next (s.answer m d.index d.sub a []))) ∧
  (∀ (s : State) (m : Mgmt) (e : Entry) (offset length : Nat), s.serving = true → s.due = [] → s.readGate m 0x1120 4 = .ok e → offset < e.size →
    offset + length ≤ e.size → length ≤ 4096 →
    (offset ≠ 0 → exec (.auditCheckpoint m offset length) s = .next (s.answer m 0x1120 4 0 (((padTo e.size (s.entryValue 0x1120 4)).drop offset).take (if length = 0 then 4096 else length)))) ∧
    (offset = 0 → s.fw.aliasEc = [] → exec (.auditCheckpoint m offset length) s = .next (s.answer m 0x1120 4 0x0801 [])) ∧
    (∀ (ec pq : Bytes) (u : State), offset = 0 → s.fw.aliasEc ≠ [] →
      s.signBoth (ascii "SH9v2 audit" ++ [0#8] ++ s.checkpointHead) = some (ec, pq, u) →
      ∃ t : State, exec (.auditCheckpoint m offset length) s = .next t ∧ t.agent = { u.agent with checkpoint := s.checkpointHead ++ padTo 96 ec ++ padTo 3309 pq } ∧
        t = { u with agent := t.agent, ctr := t.ctr, out := t.out }))

/-- A dictionary write takes effect only where every gate passes (R365, R454, R460, R461, R529). -/
def Obligations.DictionaryWrites : Prop :=
  (∀ (s : State) (m : Mgmt) (d : DictMsg), s.serving = true → s.due = [] → formCheck d d.length ≠ 0 →
    exec (.dictionaryWrite m d) s = .next (turnedAway s m d.index d.sub d.data (formCheck d d.length))) ∧
  (∀ (s : State) (m : Mgmt) (d : DictMsg), s.serving = true → formCheck d d.length = 0 → s.writeGate m d.index d.sub ≠ 0 →
    exec (.dictionaryWrite m d) s = .next (turnedAway s m d.index d.sub d.data (s.writeGate m d.index d.sub)).dropRoles.settle) ∧
  (∀ (s : State) (m : Mgmt) (d : DictMsg), passes s m d.index d.sub d.data → formCheck d d.length = 0 → d.offset = 0 → d.last = true →
    (∀ u, (s.wakeWrite d.index d.sub).writeEffect (s.roleOf m) d.index d.sub d.data = .ok u →
      exec (.dictionaryWrite m d) s = .next (accepted s u m d.index d.sub d.data).dropRoles.settle) ∧
    (∀ a, (s.wakeWrite d.index d.sub).writeEffect (s.roleOf m) d.index d.sub d.data = .error a → a ≠ 0x0403 → a < 65536 →
      exec (.dictionaryWrite m d) s = .next (turnedAway s m d.index d.sub d.data a).dropRoles.settle)) ∧
  (∀ (s : State) (m : Mgmt) (d : DictMsg), s.serving = false → s.due = [] →
    exec (.dictionaryWrite m d) s = .next s ∧ exec (.dictionaryRead m d) s = .next s ∧ exec (.describe m d) s = .next s)

/-- A write of a setting takes effect within its range and nowhere else (R460, R463). -/
def Obligations.SettingsKeepTheirRange : Prop :=
  ∀ (s : State) (i j v lo hi : Nat) (zero : Bool), j < 256 → settingRange s.cfg i j = some (lo, hi, zero) → absentSetting s.cfg i j = false →
    ((lo ≤ v ∧ v ≤ hi ∨ zero = true ∧ v = 0) → ∃ u : State, s.plainWrite i j v = .ok u ∧ u.setting i j = v ∧
      (∀ i' j', j' < 256 → (i', j') ≠ (i, j) → u.setting i' j' = s.setting i' j') ∧ ((i, j) ≠ (0x1210, 2) → u.power = s.power) ∧
      ((i, j) = (0x1210, 2) → v < s.power.state → u.power.exiting.isSome = true) ∧ u = { s with settings := u.settings, power := u.power }) ∧
    (¬ (lo ≤ v ∧ v ≤ hi ∨ zero = true ∧ v = 0) → s.plainWrite i j v = .error 0x0609)

/-- Role challenges, logins and logouts (R450, R451, R452, R453). -/
def Obligations.Roles : Prop :=
  (∀ (s u : State) (m : Mgmt) (n role : Nat) (nonce : Bytes), s.serving = true → s.due = [] → s.mayLogin m = some n → s.agent.holdoff = false →
    1 ≤ role → role ≤ 3 → s.drawMaster 32 = some (nonce, u) →
    exec (.roleChallenge m role) s = .next ((u.modSession n fun k => { k with challenge := some (u.challengeBytes nonce (role + n * 2 ^ 8), u.loc) }).answer m 0 role 0
      (u.challengeBytes nonce (role + n * 2 ^ 8)))) ∧
  (∀ (s : State) (m : Mgmt) (n role : Nat), s.serving = true → s.due = [] → s.mayLogin m = some n → s.agent.holdoff = true →
    exec (.roleChallenge m role) s = .next (s.answer m 0 role 0x0801 [])) ∧
  (∀ (s : State) (m : Mgmt) (n role : Nat) (r : Role) (data : Bytes), s.serving = true → s.due = [] → s.mayLogin m = some n → m.session = some n →
    (s.session n).buffer = none → roleOfNum role = some r → data.length ≤ 8192 →
    ∃ t : State, exec (.roleLogin m role 0 true data) s = .next t ∧ (t.session n).challenge = none ∧
      (if s.loginHolds n role r (padTo 8192 data) = true then (t.session n).role = r ∧ (t.session n).keyId = keyIdBytes (padTo 8192 data) ∧ t.agent.refusedLogins = 0 ∧
          t.out = s.out ++ [.dict m.session m.tag 0 role 0 []]
        else (t.session n).role = (s.session n).role ∧ t.agent.refusedLogins = min 255 (s.agent.refusedLogins + 1) ∧
          t.out = s.out ++ [.dict m.session m.tag 0 role 0x0502 []]) ∧
      t = { s with agent := t.agent, ctr := t.ctr, out := t.out, alarms := t.alarms }) ∧
  (∀ (s : State) (m : Mgmt) (role offset : Nat) (last : Bool) (data : Bytes), s.serving = true → s.due = [] → s.mayLogin m = none →
    exec (.roleChallenge m role) s = .next (s.answer m 0 role 0x0501 []) ∧
    exec (.roleLogin m role offset last data) s = .next (s.answer m 0 role 0x0501 [])) ∧
  (∀ (s : State) (m : Mgmt) (n : Nat), s.serving = true → s.due = [] → m.session = some n → s.roleOf m ≠ .none →
    ∃ t : State, exec (.roleLogout m) s = .next t ∧ (t.session n).role = .none ∧ t.out = s.out ++ [.dict m.session m.tag 0 0 0 []] ∧ sameButAnswer s t) ∧
  (∀ s : State, calm s → exec .loginHoldoffExpiry s = .next { s with agent := { s.agent with holdoff := false } })

/-- Block faults, job aborts and the vigil (R478, R494, R496, R484, R486, R492, R504). -/
def Obligations.BlockFaults : Prop :=
  ((∀ (s : State) (err : Nat), s.alive = true → s.faults.phase = 0 →
    ∃ t : State, exec (.blockFault err) s = .next t.settle ∧ t.faults.blockFaults = s.faults.blockFaults + 1 ∧ t.faults.errCode = err ∧ t.faults.phase ≠ 0) ∧
  (∀ (s : State) (err : Nat), calm s → s.faults.phase ≠ 0 →
    exec (.blockFault err) s = .next (if s.faults.phase = 3
      then { s with bring := { s.bring with rstReq := true }, faults := { s.faults with blockFaults := s.faults.blockFaults + 1, phase := 4 } }
      else { s with faults := { s.faults with blockFaults := s.faults.blockFaults + 1 } })) ∧
  (∀ (s : State) (m : Mgmt), granted s m 0x6040 2 (leBytes 1 1) →
    ∃ t : State, exec (.blockFaultCommand m 1) s = .next t.settle ∧ t.faults.blockFaults = s.faults.blockFaults + 1 ∧ t.faults.errCode = 0xA008 ∧ t.faults.phase ≠ 0) ∧
  (∀ (s : State) (m : Mgmt) (v : Nat), granted s m 0x6040 2 (leBytes 1 v) → v < 256 → v ≠ 1 →
    exec (.blockFaultCommand m v) s = .next (turnedAway s m 0x6040 2 (leBytes 1 v) 0x0609)) ∧
  (∀ s : State, s.alive = true → s.faults.phase = 1 → s.faults.snapLeft ≠ 0 →
    ∃ t : State, exec .snapshotTimeout s = .next t.settle ∧ t.faults.snapLeft = 0 ∧ 2 ≤ t.faults.phase) ∧
  (∀ s : State, calm s → s.faults.phase = 2 → ∃ t : State, exec .abortWaitExpiry s = .next t ∧
    (if s.setting 0x6010 2 = 0 then t.faults.phase = 4 ∧ t.bring.rstReq = true else t.faults.phase = 3 ∧ t.bring = s.bring) ∧
    t = { s with faults := t.faults, bring := t.bring, agent := t.agent, ctr := t.ctr }) ∧
  (∀ s : State, calm s → s.faults.phase = 3 →
    exec .holdExpiry s = .next { s with bring := { s.bring with rstReq := true }, faults := { s.faults with phase := 4 } }) ∧
  (∀ s : State, calm s → (s.faults.phase ≠ 1 → exec .snapshotTimeout s = .next s) ∧ (s.faults.phase ≠ 2 → exec .abortWaitExpiry s = .next s) ∧
    (s.faults.phase ≠ 3 → exec .holdExpiry s = .next s))) ∧
  ((∀ (s : State) (m : Mgmt) (p : Nat), granted s m 0x6040 1 (leBytes 1 p) → p < 256 →
    (s.cfg.partitions ≤ p → exec (.jobAbort m p) s = .next (turnedAway s m 0x6040 1 (leBytes 1 p) 0x0609)) ∧
    (p < s.cfg.partitions → (s.partn p).live = false → exec (.jobAbort m p) s = .next (turnedAway s m 0x6040 1 (leBytes 1 p) 0x0801)) ∧
    (p < s.cfg.partitions → (s.partn p).live = true →
      exec (.jobAbort m p) s = .next (accepted s (s.jobAbort p 0xA006) m 0x6040 1 (leBytes 1 p)).settle)) ∧
  (∀ s : State, rested s → s.bring.ready = true → s.alarms.point ≠ 4 → s.waiters = [] → (∀ kv ∈ s.queues, kv.2.ringFull = false) → s.terminalNodes = [] →
    exec .vigilScan s = .next s) ∧
  (∀ s : State, s.running = true → s.bring.ready = true → s.alarms.point = 4 → 0 < s.alarms.count → (s.ctx s.alarms.ctx).state = 1 →
    ∃ t : State, exec .vigilScan s = .next t.settle ∧ t.count 0x6000 4 = capTo 64 (s.count 0x6000 4 + 1) ∧
      (if s.alarms.count = 1 then t.alarms.point = 0 else t.alarms.point = 4 ∧ t.alarms.count = s.alarms.count - 1)))

/-- The trace, the harvest and the debug port (R509, R510, R511, R512, R513, R517, R54, R436, R506). -/
def Obligations.HarvestAndTrace : Prop :=
  ((∀ s : State, rested s → s.bring.ready = true → s.setting 0x6210 2 ≠ 0 → s.power.state < 2 → s.records.writing = 0 → s.setting 0x6210 1 = 0 →
    exec .harvestSample s = .next { s with records := { s.records with latest := s.harvestBytes, seq := s.records.seq + 1, gap := false } }) ∧
  (∀ (s : State) (m : Mgmt) (j v : Nat), granted s m 0x6211 j (leBytes 4 v) → v < 2 ^ 24 →
    exec (.harvestListWrite m j v) s = .next (if v = 0 ∨ harvestable s.cfg (v % 2 ^ 16) (v / 2 ^ 16) = true
      then accepted s ((s.setSetting 0x6211 j v).modRecords fun r => { r with listGen := (r.listGen + 1) % 256 }) m 0x6211 j (leBytes 4 v)
      else turnedAway s m 0x6211 j (leBytes 4 v) 0x0609)) ∧
  (∀ (s : State) (m : Mgmt) (q : Nat), granted s m 0x6212 2 (leBytes 8 q) → q < 2 ^ 64 →
    exec (.harvestSelect m q) s = .next (if ∃ kv ∈ s.records.ring, recordSeq kv.2 = q
      then accepted s { s with records := { s.records with selected := some q } } m 0x6212 2 (leBytes 8 q)
      else turnedAway s m 0x6212 2 (leBytes 8 q) 0x0609)) ∧
  (∀ (s : State) (m : Mgmt) (v : Nat), granted s m 0x6220 3 (leBytes 1 v) → v < 256 →
    exec (.traceEnable m v) s = .next (
      if s.traceOpen = false then turnedAway s m 0x6220 3 (leBytes 1 v) 0x0801
      else if v < 2 then accepted s (s.setSetting 0x6220 3 v) m 0x6220 3 (leBytes 1 v)
      else turnedAway s m 0x6220 3 (leBytes 1 v) 0x0609)) ∧
  (∀ (s : State) (w : Nat × Bool) (rest : List (Nat × Bool)), calm s → s.setting 0x6220 3 = 1 → s.power.state < 2 → s.records.fifo = w :: rest →
    exec .traceStreamTransfer s = .next { s with records := { s.records with fifo := rest }, out := s.out ++ [.traceWord w.1 w.2] })) ∧
  ((∀ (s : State) (b : Bool), calm s → exec (.debugPortAccess (.bypass b)) s =
    .next { s with out := s.out ++ [.tdo s.life.tap], life := { s.life with tap := b } }) ∧
  (∀ (s : State) (op : DebugOp), calm s → s.debugOpen = false → (∀ b, op ≠ .bypass b) →
    exec (.debugPortAccess op) s = .next { s with out := s.out ++ [.tdo s.life.tap], life := { s.life with tap := false } }) ∧
  (∀ (s : State) (op : DebugOp), calm s → s.debugOpen = true → (op = .scanChain ∨ op = .sramRead) →
    ∃ x, exec (.debugPortAccess op) s = .next { s with out := s.out ++ [.tdo x], freeCount := s.freeCount + 1 }) ∧
  (∀ (s u : State) (b : Bytes), calm s → s.debugOpen = true → s.arm b none = .ok u → exec (.debugPortAccess (.inject b)) s = .next u))

/-- A lane issues under the lowest free tag; responses, bounds and waits end what was issued (R41, R42, R43, R194, R278). -/
def Obligations.LanesTransfer : Prop :=
  (∀ (s u : State) (m lane k : Nat) (r : LaneReq), onPort s m → (s.port m).ctrlUp = true → s.initNext m = u → u.due = [] →
    (u.port m).ctrlUp = true → u.lanePick m lane = some r → freeTag (u.port m) lane = some k →
    ∃ t : State, exec (.lineRequestIssue m lane) s = .next t ∧ tblFind (t.port m).tags (tagKey lane k) = some r ∧
      t.out = u.out ++ [.lineReq m lane k r.write r.addr r.mdata (if r.write then r.data else List.replicate 128 0#8)] ∧
      (t.port m).offered = (u.port m).offered.erase r ∧ t.count 0x6200 (m + 1) = capTo 64 (u.count 0x6200 (m + 1) + 128) ∧
      t = { u with mem := t.mem, out := t.out, ctr := t.ctr, power := t.power }) ∧
  (∀ (s : State) (m : Nat), ((s.port m).init = [] ∨ (s.port m).sweep.used + 128 > s.sweepCap m) → s.initNext m = s) ∧
  (∀ (s : State) (m lane : Nat) (j : LineJob), onPort s m → (s.port m).ctrlUp = true → (s.port m).init = [] →
    (∀ r ∈ (s.port m).offered, laneOf r.addr ≠ lane) →
    (s.port m).fmt = some j → j.next < j.stop → exec (.lineRequestIssue m lane) s = .next (s.formatStep m j).settle) ∧
  (∀ (s : State) (m lane tag status : Nat) (data : Bytes), m < s.cfg.memPorts → calm s → s.sealing = false →
    exec (.lineRequestIssue m lane) s = .next (if (s.port m).busy then s.beginExit else s) ∧
    exec (.lineResponse m lane tag status data) s = .next (if (s.port m).busy then s.beginExit else s)) ∧
  (∀ (s : State) (m lane tag status : Nat) (data : Bytes), s.cfg.legal = true → onPort s m →
    (tblFind (s.port m).tags (tagKey lane tag) = none → exec (.lineResponse m lane tag status data) s = .next (s.touch 6 m)) ∧
    (∀ r, tblFind (s.port m).tags (tagKey lane tag) = some r → r.late = true →
      ∃ t : State, exec (.lineResponse m lane tag status data) s = .next t ∧ (t.port m).tags = tblDel (s.port m).tags (tagKey lane tag) ∧
        t.count 0x3047 (m + 1) = capTo 64 (s.count 0x3047 (m + 1) + 1) ∧
        t = { s with mem := t.mem, ctr := t.ctr, records := t.records, faults := t.faults })) ∧
  (∀ (s : State) (m lane tag : Nat) (data : Bytes) (r : LaneReq), quietPort s m → s.alarms.point ≠ 3 →
    tblFind (s.port m).tags (tagKey lane tag) = some r → r.late = false →
    (∀ j, r.why = .format → (s.port m).fmt = some j →
      ∃ t : State, exec (.lineResponse m lane tag 0 data) s = .next t ∧ (t.port m).tags = tblDel (s.port m).tags (tagKey lane tag) ∧
        (t.port m).fmt = some { j with outstanding := j.outstanding - 1, fails := tblDel j.fails r.addr } ∧
        t = { s with mem := t.mem, faults := t.faults }) ∧
    (∀ a, r.why = .data a → (s.point m a).unwritten = false →
      ∃ t : State, exec (.lineResponse m lane tag 0 data) s = .next t.settle ∧ (t.port m).tags = tblDel (s.port m).tags (tagKey lane tag) ∧
        t.due = toldAll (s.point m a).acks .ok 0 id ∧ (t.point m a).outstanding = false ∧
        t = { s with mem := t.mem, faults := t.faults, due := t.due })) ∧
  (∀ (s : State) (m lane tag : Nat), quietPort s m → (∀ r, tblFind (s.port m).tags (tagKey lane tag) = some r → r.late = true) →
    exec (.lineBoundExpiry m lane tag) s = .next s) ∧
  (∀ (s : State) (m lane tag : Nat) (r : LaneReq) (j : LineJob), quietPort s m → tblFind (s.port m).tags (tagKey lane tag) = some r →
    r.late = false → r.why = .format → (s.port m).fmt = some j → tblGet j.fails r.addr 0 < 15 →
    ∃ t : State, exec (.lineBoundExpiry m lane tag) s = .next t ∧ tblFind (t.port m).tags (tagKey lane tag) = some { r with late := true } ∧
      (t.port m).fmt = some { j with outstanding := j.outstanding - 1, fails := tblPut j.fails r.addr (tblGet j.fails r.addr 0 + 1) } ∧
      t.count 0x3042 (m + 1) = capTo 64 (s.count 0x3042 (m + 1) + 1) ∧ t = { s with mem := t.mem, ctr := t.ctr }) ∧
  (∀ (s : State) (m lane : Nat) (r : LaneReq) (j : LineJob), quietPort s m → (s.port m).ctrlUp = false →
    ((s.port m).offered.find? fun r => laneOf r.addr = lane) = some r → r.why = .format → (s.port m).fmt = some j → tblGet j.fails r.addr 0 < 15 →
    ∃ t : State, exec (.laneWaitTimeout m lane) s = .next t ∧ (t.port m).offered = (s.port m).offered.erase r ∧
      (t.port m).fmt = some { j with outstanding := j.outstanding - 1, fails := tblPut j.fails r.addr (tblGet j.fails r.addr 0 + 1) } ∧
      t = { s with mem := t.mem, ctr := t.ctr }) ∧
  (∀ (s : State) (m lane a : Nat) (r : LaneReq), quietPort s m → (s.port m).ctrlUp = false →
    ((s.port m).offered.find? fun r => laneOf r.addr = lane) = some r → r.why = .data a → (∃ w ∈ (s.point m a).acks, w.1 ≠ .none) →
    (s.point m a).unwritten = false →
    ∃ t : State, exec (.laneWaitTimeout m lane) s = .next t.settle ∧ (t.port m).offered = (s.port m).offered.erase r ∧
      (t.port m).root = (s.port m).root ∧ (t.port m).cache = (s.port m).cache ∧ (t.port m).poisoned = (s.port m).poisoned ∧
      (t.point m a).outstanding = false ∧ (t.point m a).held = none ∧ t.agent = s.agent ∧ t.alarms = s.alarms ∧
      t.due = toldAll (s.point m a).acks .timeout 0x1007 (fun _ => 0xFF#8) ∧
      t = { s with mem := t.mem, ctr := t.ctr, records := t.records, due := t.due }) ∧
  (∀ (s : State) (m lane : Nat), onPort s m → (s.port m).ctrlUp = true → exec (.laneWaitTimeout m lane) s = .next s) ∧
  (∀ (s : State) (m : Nat), m < s.cfg.memPorts → s.due = [] →
    exec (.controllerUp m) s = .next ((s.modPort m fun p => { p with ctrlUp := true, state := if p.state = 0 ∧ s.alive = true then 1 else p.state }).stateTrace 0 m
      (s.port m).state (if (s.port m).state = 0 ∧ s.alive = true then 1 else (s.port m).state)) ∧
    exec (.controllerDown m) s = .next ((s.modPort m fun p => { p with ctrlUp := false, state := if p.state = 1 then 0 else p.state }).stateTrace 0 m
      (s.port m).state (if (s.port m).state = 1 then 0 else (s.port m).state)))

/-- What a free order point does with the request it takes (R201, R202, R206, R211, R214, R221, R278, R279, R280). -/
def Obligations.OrderPointsServe : Prop :=
  (∀ (s : State) (m a : Nat), onPort s m → (s.point m a).op = none → (s.point m a).poisonTry = none →
    (∀ q ∈ (s.port m).waiting, q.line ≠ a) → (s.point m a).unwritten = false → (s.point m a).outstanding = false →
    exec (.orderPointTake m a) s = .next (s.modPoint m a fun o => { o with held := none })) ∧
  (∀ (s : State) (m a : Nat) (q : LineReq), quietPort s m → (s.point m a).poisonTry = none → s.pointPick m a = some q → q.contender < 100 →
    ((s.port m).state = 4 → ∃ t : State, exec (.orderPointTake m a) s = .next t.settle ∧ (t.port m).waiting = afterTake (s.port m).waiting q ∧
      t.due = (if q.reply = .none then [] else [(q.reply, ⟨.timeout, 0x100F, failData q.acc⟩)]) ∧
      t = { s with mem := t.mem, ctr := t.ctr, records := t.records, due := t.due }) ∧
    (∀ h, (s.port m).state ≠ 4 → (s.point m a).held = some h → ((s.point m a).outstanding = true ∨ (s.point m a).unwritten = true) →
      q.line = a →
      (q.acc = .load → ∃ t : State, exec (.orderPointTake m a) s = .next t.settle ∧ (t.port m).waiting = afterTake (s.port m).waiting q ∧
        t.due = (if q.reply = .none then [] else [(q.reply, ⟨.ok, 0, h⟩)]) ∧ (t.port m).offered = (s.port m).offered ∧
        t = { s with mem := t.mem, ctr := t.ctr, records := t.records, due := t.due }) ∧
      (∀ d, q.acc = .store d → ∃ t : State, exec (.orderPointTake m a) s = .next t ∧ (t.point m a).held = some (padTo 128 d) ∧
        (t.point m a).unwritten = true ∧ (t.point m a).full = true ∧ (t.point m a).nextAcks = (s.point m a).nextAcks ++ [(q.reply, [])] ∧
        (t.port m).offered = (s.port m).offered ∧ t.count 0x3240 7 = capTo 64 (s.count 0x3240 7 + 1) ∧
        t = { s with mem := t.mem, ctr := t.ctr, records := t.records })) ∧
    (∀ (d : Bytes) (r : Nat) (g : Region) (c : CacheLine), (s.port m).state ≠ 4 → (s.point m a).held = none → q.line = a → q.acc = .store d →
      (s.port m).mode = 2 → regionAt (s.port m) a = some (r, g) → s.usable g.slot = true → poisonKey (s.port m) a = none →
      tblFind (s.port m).cache (tagLine (s.port m).dcap a) = some c →
      let gen := s.lineGen m r g a false
      let line := sealLine (s.material g.slot gen) false 0 (dataLine m a) gen (padTo 128 d)
      ∃ t x, exec (.orderPointTake m a) s = .next t ∧ (t.port m).offered = (s.port m).offered ++ [x] ∧ x.write = true ∧ x.addr = a ∧
        x.mdata = false ∧ x.data = line.1 ∧ x.why = .data a ∧
        (tblGet (t.port m).cache (tagLine (s.port m).dcap a) {}).data = c.data.take (tagByte a) ++ line.2 ++ c.data.drop (tagByte a + 8) ∧
        (t.point m a).held = some (padTo 128 d) ∧ (t.point m a).outstanding = true ∧ (t.point m a).acks = [(q.reply, [])] ∧
        t = { s with mem := t.mem, ctr := t.ctr, records := t.records })) ∧
  (∀ (mat plain : Bytes) (tree : Bool) (nonce line gen : Nat), plain.length = 128 →
    openLine mat tree nonce line gen (sealLine mat tree nonce line gen plain).1 (sealLine mat tree nonce line gen plain).2 = some plain)

/-- Move reads, write-backs and counter lines that are tried again (R206, R218, R220). -/
def Obligations.MetadataUpkeep : Prop :=
  (∀ (s : State) (m a : Nat) (x : Transition), onPort s m → a % 128 = 0 → a < (s.port m).dcap →
    transitionOf (s.port m) (metaLine (s.port m).dcap 0 a) = some x → tblGet x.fails (a / 128 % 128) 0 ≠ 0 → (s.point m a).op = none →
    (s.point m a).outstanding = false → (s.point m a).unwritten = false → (s.point m a).poisonTry = none →
    (s.port m).easelWait = [] → (∀ lane, easelLoad (s.port m) lane true < 239) → fetching (s.port m) (tagLine (s.port m).dcap a) = false →
    let need := a :: missing (s.port m) [tagLine (s.port m).dcap a]
    ∃ t : State, exec (.moveReadRetry m a) s = .next t ∧
      (t.point m a).op = some ⟨⟨a, .load, 0, 7, byMove, .none, 0, false, 0⟩, need, [], none⟩ ∧
      (t.port m).offered = (s.port m).offered ++ readsFor (s.port m).dcap a need ∧ t = { s with mem := t.mem }) ∧
  (∀ (s : State) (m x : Nat) (c : CacheLine), onPort s m → tblFind (s.port m).cache x = some c →
    (c.pinned = false → lineInUse (s.port m) x = false → c.dirty = true → c.writing = false → c.ended = false → c.kind = 0 → ∃ t r, exec (.writeBack m x) s = .next t ∧ (t.port m).offered = (s.port m).offered ++ [r] ∧
      r.write = true ∧ r.addr = x ∧ r.mdata = true ∧ r.data = c.data ∧ r.why = .writeBack ∧
      tblFind (t.port m).cache x = some { c with writing := true, dirty := false, snap := c.data } ∧ t = { s with mem := t.mem }) ∧
    (c.pinned = true ∨ lineInUse (s.port m) x = true ∨ c.dirty = false ∨ c.writing = true ∨ c.ended = true → exec (.writeBack m x) s = .next s) ∧
    (0 < c.fails → c.writing = false → c.snap ≠ [] → (s.port m).state ≠ 4 → (s.port m).fmt = none →
      ∃ t r, exec (.writeBackRetry m x) s = .next t ∧ (t.port m).offered = (s.port m).offered ++ [r] ∧ r.write = true ∧ r.addr = x ∧
        r.mdata = true ∧ r.data = c.snap ∧ r.why = .writeBack ∧ (∃ c', tblFind (t.port m).cache x = some c' ∧ c'.writing = true ∧ c'.data = c.data) ∧
        t = { s with mem := t.mem })) ∧
  (∀ (s : State) (m a : Nat), onPort s m → a % 128 = 0 → (s.point m a).poisonTry.isSome = true → (s.point m a).op = none →
    (s.port m).state ≠ 4 → missing (s.port m) (metaChain (s.port m).dcap a) = [] →
    ∃ t : State, exec (.counterLineRetry m a) s = .next t ∧ (t.point m a).poisonTry = none ∧ a ∈ (t.port m).poisoned ∧
      t = ((s.setMinor m a 0x7F).poisonCount m a true).modPoint m a fun o => { o with poisonTry := none })

/-- Formatting a port, and the life of a region (R194, R196, R197, R198, R222, R460). -/
def Obligations.FormattingAndRegions : Prop :=
  (∀ (s u : State) (m : Mgmt) (p i : Nat), granted s m 0x3004 (p + 1) (leBytes 1 1) → p < s.cfg.memPorts → (s.port p).state = 1 →
    dataCapacity (decide (s.setting 0x3001 (p + 1) = 1)) (s.setting 0x3002 (p + 1)) ≠ 0 → s.freeLeaf = some i →
    s.createLeaf i 2 0x41 0 (kindUse 2) 0 p 0 = .ok u →
    ∃ t : State, exec (.format m p 1) s = .next t ∧ (t.port p).state = 2 ∧ (t.port p).mode = s.setting 0x3001 (p + 1) ∧
      (t.port p).dcap = dataCapacity (decide (s.setting 0x3001 (p + 1) = 1)) (s.setting 0x3002 (p + 1)) ∧ (t.port p).treeSlot = i ∧
      (t.port p).regions = [] ∧ (t.port p).cache = [] ∧ (t.port p).poisoned = [] ∧ t.keys = u.keys ∧
      t = { u with mem := t.mem, agent := t.agent, ctr := t.ctr, records := t.records, out := t.out }) ∧
  (∀ (s : State) (p : Nat) (j : LineJob), onPort s p → (s.port p).fmt = some j →
    exec (.formatComplete p) s = .next (if (s.port p).state = 2 ∧ j.stop ≤ j.next ∧ j.outstanding = 0 ∧ j.fails = []
      then (s.modPort p fun p => { p with state := 3, fmt := none }).stateTrace 0 p 2 3 else s)) ∧
  (∀ (s u : State) (m : Mgmt) (p r i : Nat) (rc : Bytes), granted s m (0x3020 + p) r rc → p < s.cfg.memPorts → (s.port p).state = 3 →
    tblFind (s.port p).regions r = none → recState (leNat rc) = 1 → (recKind (leNat rc) = 3 → s.roleOf m = .installer) →
    (s.partn (recPart (leNat rc))).state ≠ 0 → s.usable (partSlot (recPart (leNat rc))) = true → s.fertile (partSlot (recPart (leNat rc))) = true →
    recPages (leNat rc) ≠ 0 → (recBase (leNat rc) + recPages (leNat rc)) * 2 ^ 14 ≤ (s.port p).dcap →
    overlaps (s.port p) (recBase (leNat rc)) (recPages (leNat rc)) = false → s.freeLeaf = some i →
    s.createLeaf i 1 (recPart (leNat rc)) 0 (regionUse (recKind (leNat rc))) s.memberField p r = .ok u →
    ∃ t : State, exec (.regionCreate m p r rc) s = .next t ∧ tblFind (t.port p).regions r = some ⟨recBase (leNat rc), recPages (leNat rc),
        recKind (leNat rc), recPart (leNat rc), 1, i, 0, 0⟩ ∧ t.keys = u.keys ∧ (∃ j, (t.port p).init = (u.port p).init ++ [j] ∧ j.region = r ∧ j.next = 0) ∧
      t = { u with mem := t.mem, agent := t.agent, ctr := t.ctr, out := t.out }) ∧
  (∀ (s : State) (m : Mgmt) (p r : Nat) (rc : Bytes) (g : Region), granted s m (0x3020 + p) r rc → p < s.cfg.memPorts →
    tblFind (s.port p).regions r = some g →
    (recState (leNat rc) = 0 → exec (.regionRemove m p r rc) s = .next (accepted s (s.retireRegion p r) m (0x3020 + p) r rc).settle ∧
      (tblGet ((s.retireRegion p r).port p).regions r {}).state = 4) ∧
    (recState (leNat rc) ≠ 0 → (recKind (leNat rc) = 3 → s.roleOf m = .installer) →
      exec (.regionCreate m p r rc) s = .next (turnedAway s m (0x3020 + p) r rc 0x0801))) ∧
  (∀ (s : State) (p : Nat) (j : LineJob), onPort s p →
    ((s.port p).init.find? fun j => decide (j.stop ≤ j.next) && !s.regionBusy p j.region) = some j →
    s.usable (tblGet (s.port p).regions j.region {}).slot = true →
    ∃ t : State, exec (.regionInitComplete p) s = .next t ∧
      tblFind (t.port p).regions j.region = some { tblGet (s.port p).regions j.region {} with state := 2 } ∧
      (t.port p).init = (s.port p).init.filter (fun i => i.region ≠ j.region) ∧ t = { s with mem := t.mem }) ∧
  (∀ (s : State) (p r : Nat) (g : Region), onPort s p → tblFind (s.port p).regions r = some g → g.state = 4 →
    (s.partn g.part).state ≠ 3 → s.regionBusy p r = false →
    ∃ t : State, exec (.regionRemovalDone p r) s = .next t.settle ∧ tblFind (t.port p).regions r = none ∧
      (∀ r', r' ≠ r → tblFind (t.port p).regions r' = tblFind (s.port p).regions r')) ∧
  (∀ (s : State) (m : Mgmt) (p r : Nat), granted s m 0x3030 (p + 1) (leBytes 1 r) → p < s.cfg.memPorts → (s.port p).scrub = none →
    (tblGet (s.port p).regions r {}).state = 2 →
    ∃ t j, exec (.regionScrub m p r) s = .next t ∧ (t.port p).scrub = some j ∧ j.region = r ∧ j.next = 0 ∧ j.outstanding = 0 ∧
      t = { s with mem := t.mem, agent := t.agent, ctr := t.ctr, out := t.out }) ∧
  (∀ (s : State) (p : Nat) (j : LineJob), onPort s p → (s.port p).scrub = some j →
    exec (.scrubComplete p) s = .next (if j.stop ≤ j.next ∧ j.outstanding = 0 then s.modPort p fun p => { p with scrub := none } else s))

/-- The rekey sweep: queued, started, read ahead, resealed at the edge, completed (R228, R230, R231, R232, R233, R234, R235, R236, R237, R238). -/
def Obligations.RekeySweep : Prop :=
  (∀ (s : State) (m : Mgmt) (p r : Nat), granted s m 0x3103 (p + 1) (leBytes 1 r) → p < s.cfg.memPorts → r ≠ 0 →
    r ∉ (s.port p).sweep.queued → ¬ ((s.port p).sweep.active = true ∧ (s.port p).sweep.region = r) →
    ((tblGet (s.port p).regions r {}).state = 2 → exec (.sweepQueue m p r) s = .next (accepted s
      ((s.modSweep p fun w => { w with queued := w.queued ++ [r] }).setSetting 0x3103 (p + 1) r) m 0x3103 (p + 1) (leBytes 1 r))) ∧
    ((tblGet (s.port p).regions r {}).state ≠ 2 → exec (.sweepQueue m p r) s = .next (turnedAway s m 0x3103 (p + 1) (leBytes 1 r) 0x0801))) ∧
  (∀ (s : State) (p : Nat), onPort s p →
    exec (.automaticInterval p) s = .next (if s.setting 0x3102 (p + 1) = 0 then s
      else if (s.port p).sweep.roundRuns then s.modSweep p fun w => { w with roundDue := true } else s.queueRound p)) ∧
  (∀ (s : State) (p r : Nat) (rest : List Nat) (g : Region), onPort s p → (s.port p).state = 3 → (s.port p).sweep.active = false →
    ((s.port p).sweep.queued.filter fun r => (tblGet (s.port p).regions r {}).state = 2) = r :: rest → tblFind (s.port p).regions r = some g →
    g.slot < 65536 → (s.slot g.slot).kind = 1 → (s.slot g.slot).next = false → (s.slot g.slot).state = 1 → s.usable g.slot = true → s.fertile g.slot = true →
    (s.slot g.slot).use.testBit 7 = true →
    ((s.slot g.slot).gen < 0xFFFFFFFE → ∃ t : State, exec (.sweepStart p) s = .next t ∧ tblFind (t.port p).regions r = some { g with state := 3 } ∧
      (t.port p).sweep.state = 1 ∧ (t.port p).sweep.region = r ∧ (t.port p).sweep.edge = g.base * 2 ^ 14 ∧
      (t.port p).sweep.fromGen = (s.slot g.slot).gen ∧ rest <+: (t.port p).sweep.queued ∧
      ((s.port p).sweep.roundDue = false → (t.port p).sweep.queued = rest) ∧
      t.slot g.slot = s.placed g.slot { s.slot g.slot with next := true } ∧ (∀ i, i ≠ g.slot → t.slot i = s.slot i) ∧ t = { s with mem := t.mem, keys := t.keys }) ∧
    (0xFFFFFFFE ≤ (s.slot g.slot).gen → ∃ t : State, exec (.sweepStart p) s = .next t ∧ (t.port p).regions = (s.port p).regions ∧
      (t.port p).sweep.state = 4 ∧ (t.port p).sweep.region = r ∧ rest <+: (t.port p).sweep.queued ∧
      ((s.port p).sweep.roundDue = false → (t.port p).sweep.queued = rest) ∧
      t = { s with mem := t.mem, ctr := t.ctr, records := t.records })) ∧
  (∀ (s : State) (p : Nat), quietPort s p →
    let w := (s.port p).sweep
    let asks := fun (a : Nat) (t : State) =>
      (t.port p).waiting = (s.port p).waiting ++ [⟨a, .load, (s.partAt p a).getD 0, 7, byAhead, .none, 0, false, 0⟩] ∧
      (t.port p).sweep.asked = w.asked ++ [a] ∧ (t.port p).sweep.edge = w.edge ∧ t = { s with mem := t.mem }
    ((w.state = 1 ∨ w.state = 2) → w.used + 128 ≤ s.sweepCap p → w.edge < s.sweepEnd p → tblFind w.ahead w.edge = none → w.edge ∉ w.asked →
      tblGet w.fails w.edge 0 = 0 →
      ((w.ahead.map (·.1) ++ w.asked).filter fun x => laneOf x = laneOf w.edge).length < 64 →
      (s.resealed p w.edge = some true → ∃ t : State, exec (.readAhead p) s = .next t ∧ asks w.edge t) ∧
      (s.resealed p w.edge = none → (s.point p w.edge).outstanding = false → (s.point p w.edge).unwritten = false →
        (s.point p w.edge).poisonTry = none →
        ∃ t o, exec (.readAhead p) s = .next t ∧ (t.point p w.edge).op = some o ∧ o.req.contender = byPage ∧
          o.need = missing (s.port p) (metaChain (s.port p).dcap w.edge) ∧ (t.port p).sweep = w ∧ t = { s with mem := t.mem, ctr := t.ctr })) ∧
    (∀ a, a % 128 = 0 → w.active = true → w.used + 128 ≤ s.sweepCap p → tblGet w.fails a 0 ≠ 0 → a ∉ w.asked → ∃ t : State, exec (.readAheadRetry p a) s = .next t ∧ asks a t) ∧
    (w.active = false → exec (.readAhead p) s = .next s ∧ (∀ a, exec (.readAheadRetry p a) s = .next s) ∧ exec (.edgeStep p) s = .next s)) ∧
  (∀ (s : State) (p : Nat) (g : Region), onPort s p → ((s.port p).sweep.state = 1 ∨ (s.port p).sweep.state = 2) → (s.port p).state = 3 →
    tblFind (s.port p).regions (s.port p).sweep.region = some g → g.state = 3 → (s.port p).sweep.edge < s.sweepEnd p → (s.port p).mode = 1 →
    (transitionOf (s.port p) (metaLine (s.port p).dcap 0 (s.port p).sweep.edge)).isSome = true →
      exec (.edgeStep p) s = .next (((s.modSweep p fun w => { w with state := 2 }).pinEdge p).pump p).settle) ∧
  (∀ (s : State) (p : Nat) (g : Region), quietPort s p →
    ((s.port p).sweep.state = 1 ∨ (s.port p).sweep.state = 2) → (s.port p).state = 3 →
    tblFind (s.port p).regions (s.port p).sweep.region = some g → g.state = 3 →
    let w := (s.port p).sweep
    let a := w.edge
    (s.sweepEnd p ≤ a → ∃ t : State, exec (.edgeStep p) s = .next t ∧ (t.port p).sweep.state = 3 ∧ (t.port p).sweep.pinned = [] ∧
      (t.port p).sweep.edge = a ∧ t = { s with mem := t.mem }) ∧
    (a < s.sweepEnd p → (s.port p).mode = 2 → (poisonKey (s.port p) a).isSome = true →
      exec (.edgeStep p) s = .next (((s.modSweep p fun w => { w with state := 1 }).pinEdge p).edgeTo p (a + 128))) ∧
    (∀ (plain : Bytes) (c : CacheLine), a < s.sweepEnd p → s.usable g.slot = true → (s.port p).mode = 2 → poisonKey (s.port p) a = none → a ∉ w.skip →
      tblFind w.ahead a = some plain → w.used + 128 ≤ s.sweepCap p → tblFind (s.port p).cache (tagLine (s.port p).dcap a) = some c →
      (s.point p a).outstanding = false → (s.point p a).unwritten = false → (s.point p a).poisonTry = none →
      let gen := (s.slot g.slot).gen + 1
      let line := sealLine (s.material g.slot gen) false 0 (dataLine p a) gen plain
      ∃ t x, exec (.edgeStep p) s = .next t ∧ (t.port p).offered = (s.port p).offered ++ [x] ∧ x.write = true ∧ x.addr = a ∧ x.data = line.1 ∧
        x.why = .data a ∧ (tblGet (t.port p).cache (tagLine (s.port p).dcap a) {}).data = c.data.take (tagByte a) ++ line.2 ++ c.data.drop (tagByte a + 8) ∧
        (t.port p).sweep.edge = a + 128 ∧ t.count 0x3105 (p + 1) = capTo 64 (s.count 0x3105 (p + 1) + 1) ∧ t = { s with mem := t.mem, ctr := t.ctr })) ∧
  (∀ (s : State) (p : Nat) (g : Region), s.cfg.legal = true → onPort s p → (s.port p).sweep.state = 3 → (∀ kv ∈ (s.port p).points, kv.2.sweepWrite = false) →
    tblFind (s.port p).regions (s.port p).sweep.region = some g → (s.slot g.slot).next = true → (s.slot g.slot).state = 1 →
    s.usable g.slot = true → s.fertile g.slot = true →
    ∃ t : State, exec (.sweepComplete p) s = .next t ∧
      tblFind (t.port p).regions (s.port p).sweep.region = some { g with state := 2, gen := ((s.slot g.slot).gen + 1) % 2 ^ 16, edge := 0 } ∧
      (t.slot g.slot).gen = (s.slot g.slot).gen + 1 ∧ (t.slot g.slot).next = false ∧ (t.port p).sweep.state = 0 ∧
      t.count 0x3104 (p + 1) = capTo 64 (s.count 0x3104 (p + 1) + 1) ∧ t.count 0x3107 (p + 1) = s.loc)

/-- A link trains, says HELLO, and falls (R262, R263, R264, R265, R351, R364, R460, R533). -/
def Obligations.LinkStates : Prop :=
  (∀ (s : State) (l : Nat), onLink s l → (s.link l).state = 0 → (s.link l).inReset = false → s.bring.gate = true → findsRoom s l 2 →
    ((s.link l).holdoff = false → ∃ t : State, exec (.pcsUp l) s = .next t ∧ linkRises s t l) ∧
    ((s.link l).pcsUp = true → ∃ t : State, exec (.attestationHoldoff l) s = .next t ∧ (t.link l).holdoff = false ∧ linkRises s t l)) ∧
  (∀ (s : State) (l : Nat), hasLink s l → s.sealing = false → (s.link l).state = 0 → (s.link l).inReset = false → s.bring.gate = true →
    (s.link l).holdoff = false → ∃ t : State, exec (.pcsUp l) s = .next t ∧ (t.link l).state = 1 ∧ (t.link l).sentHello = true ∧ t.out = s.out) ∧
  (∀ (s : State) (l : Nat), onLink s l → findsRoom s l 2 → (s.link l).state = 1 →
    ∃ t b, exec (.helloTimer l) s = .next t ∧ t.out = s.out ++ [.frame l b] ∧ (t.link l).state = 1 ∧ (t.link l).sentHello = true) ∧
  (∀ (s : State) (l : Nat), hasLink s l →
    ((s.link l).state ≠ 1 ∨ s.sealing = false → exec (.helloTimer l) s = .next s) ∧
    (s.takeLinkMsg l 0x31 = none → exec (.hello l) s = .next s)) ∧
  (∀ (s u : State) (l : Nat) (m : Msg) (p : Hello), hasLink s l → s.takeLinkMsg l 0x31 = some (m, u) → helloOf m = some p →
    (∀ kv ∈ s.liveRoutes, ¬ (bit kv.2 11 = true ∧ bits kv.2 9 5 = l)) →
    ((s.link l).state = 1 → ∃ t : State, exec (.hello l) s = .next t ∧ (t.link l).state = 2 ∧ (t.link l).peer = some p ∧ (t.link l).boundRunning = true ∧
      (t.link l).session = { requester := (s.isRequester l p).getD false }) ∧
    ((s.link l).state = 3 ∨ (s.link l).state = 4 → ∃ t : State, exec (.hello l) s = .next t ∧ (t.link l).peer = some p ∧
      (t.link l).state = if s.bring.member = true ∧ p.isMember = true ∧ p.domain = s.bring.domain then 4 else 3)) ∧
  (∀ (s : State) (l : Nat) (p : Hello), hasLink s l → (s.link l).peer = some p → s.isRequester l p = some true → (s.link l).session.stage = 0 →
    ((s.link l).state = 2 ∨ (s.link l).rekeying = true) → exec (.linkAttestationStart l) s = .next (if s.fw.fw = 0
      then (s.modLink l fun k => { k with session := { k.session with requester := true } }).say (.spdmRequest (.link l) 0x84 offeredVersions) else s)) ∧
  (∀ (s : State) (l : Nat), hasLink s l →
    (s.sealing = true → (s.link l).state = 3 ∨ (s.link l).state = 4 → ∃ t : State, exec (.silenceTimeout l) s = .next t ∧ linkFailed s t l 0x200C) ∧
    (s.sealing = false → exec (.silenceTimeout l) s = .next s) ∧
    ((s.link l).state = 5 → (s.link l).wakeSent = true → ∃ t : State, exec (.wakeUnanswered l) s = .next t ∧ linkFailed s t l 0x2013) ∧
    ((s.link l).boundRunning = true → (s.link l).state ≠ 0 → (s.link l).state ≠ 6 → (s.link l).state ≠ 7 →
      ∃ t : State, exec (.linkBoundExpiry l) s = .next t ∧ linkFailed s t l 0x200E) ∧
    ((s.link l).state = 3 ∨ (s.link l).state = 4 ∨ (s.link l).state = 5 → ∃ t : State, exec (.pcsDown l true) s = .next t ∧ linkFailed s t l 0x200F) ∧
    ((s.link l).state ≠ 7 → ∃ t : State, exec (.pcsDown l false) s = .next t ∧ (t.link l).state = 0 ∧ (t.link l).pcsUp = false ∧ ∀ j, j ≠ l → t.link j = s.link j) ∧
    ((s.link l).state < 3 → exec (.silenceTimeout l) s = .next s ∧ exec (.wakeUnanswered l) s = .next s ∧ exec (.pcsDown l true) s = .next s) ∧
    ((s.link l).boundRunning = false → exec (.linkBoundExpiry l) s = .next s)) ∧
  (∀ (s : State) (m : Mgmt) (l v : Nat), l < s.cfg.links → granted s m 0x3211 (l + 1) (leBytes 1 v) →
    (v = 1 → ∃ t : State, exec (.linkDisable m l v) s = .next t ∧ (t.link l).state = 7 ∧ ∀ j, j ≠ l → t.link j = s.link j) ∧
    (v = 0 → (s.link l).state = 7 → (s.link l).pcsUp = false → ∃ t : State, exec (.linkDisable m l v) s = .next t ∧ (t.link l).state = 0 ∧ (t.link l).slot = none) ∧
    (v = 2 → exec (.linkDisable m l v) s = .next (if (s.link l).state = 3 ∨ (s.link l).state = 4 ∨ (s.link l).state = 5
      then (accepted s (s.linkUpdateStart l) m 0x3211 (l + 1) (leBytes 1 v)).settle else turnedAway s m 0x3211 (l + 1) (leBytes 1 v) 0x0801)) ∧
    (3 ≤ v → exec (.linkDisable m l v) s = .next (turnedAway s m 0x3211 (l + 1) (leBytes 1 v) 0x0609)))

/-- Frames of a link: plain, sealed, refused with NAK, sent again (R245, R247, R251, R252, R255, R256). -/
def Obligations.LinkFrames : Prop :=
  (∀ (s : State) (l : Nat) (b : Bytes), onLink s l → ((s.link l).state = 1 ∨ (s.link l).state = 2) →
    let h := leNat (b.take 16)
    let w := padTo (128 * (bits h 6 4 + 1)) b
    let good := bits h 1 0 = 0 ∧ bits h 3 2 = 3 ∧ hcrcOk w = true ∧ w.drop (w.length - 16) = padTo 16 (leBytes 4 (crc32 (w.take (w.length - 16))))
    let g := gatherUnits (msgUnits 3) 0 (some (bits h 13 8)) { rest := tblGet (s.link l).fs.partialRx 3 [] } (chunks 16 ((w.take (w.length - 16)).drop 16))
    (¬ good ∨ g.bad = true → exec (.plainFrame l b) s = .next s ∧ exec (.frameReceived l b false) s = .next s) ∧
    (good → g.bad = false → ∃ t : State, exec (.plainFrame l b) s = .next t ∧ exec (.frameReceived l b false) s = .next t ∧
      (t.link l).rx = (s.link l).rx ++ (g.msgs.map msgOf).filter (fun m => decide (m.mtype ≠ 0x30)) ∧
      (t.link l).mctp = (s.link l).mctp ++ ((g.msgs.map msgOf).filter (fun m => decide (m.mtype = 0x30))).map (fun m => m.body) ∧
      t.count 0x3202 (l + 1) = capTo 64 (s.count 0x3202 (l + 1) + 1) ∧ t = { s with links := t.links, ctr := t.ctr })) ∧
  (∀ (s : State) (l : Nat) (b : Bytes), hasLink s l → s.sealing = false →
    exec (.frameReceived l b false) s = .next (if 1 ≤ (s.link l).state ∧ (s.link l).state ≤ 5 then s.beginExit else s)) ∧
  (∀ (s : State) (l : Nat) (b : Bytes), onLink s l → ((s.link l).state = 3 ∨ (s.link l).state = 4) → s.alarms.point ≠ 2 → s.alarms.point ≠ 0x12 →
    (s.link l).fs.hunting = false →
    let h := leNat (b.take 16)
    let w := padTo (128 * (bits h 6 4 + 1)) b
    let refused := fun (x : Host.Outcome State Fault Refusal) (e : Nat) => (s.link l).fs.refusals < 7 → ∃ t : State, x = .next t ∧ (t.link l).fs = (s.link l).fs.refuse ∧
      (t.link l).rx = (s.link l).rx ∧ (t.link l).lastErr = e ∧ (t.link l).state = (s.link l).state
    refused (exec (.frameReceived l b true) s) 0x2001 ∧
    (hcrcOk w = false → refused (exec (.frameReceived l b false) s) 0x2002) ∧
    (hcrcOk w = true → bits h 1 0 = 0 → ∃ t : State, exec (.plainFrame l b) s = .next t ∧ (t.link l).fs = (s.link l).fs ∧ (t.link l).rx = (s.link l).rx ∧
      (t.link l).lastErr = 0x2006 ∧ t.count 0x3203 (l + 1) = capTo 64 (s.count 0x3203 (l + 1) + 1)) ∧
    (hcrcOk w = true → bits h 1 0 = 1 → (s.link l).fs.rxSeq < bits h 95 32 → refused (exec (.frameReceived l b false) s) 0x2004) ∧
    (∀ (g : Nat) (ks : Bytes × Bytes) (u : State), hcrcOk w = true → bits h 1 0 = 1 → bits h 95 32 = (s.link l).fs.rxSeq →
      s.rxGen (s.link l) (bit h 7) = some g → s.linkKey l g false = .ok (ks, u) →
      (openFrame ks.1 ks.2 (bits h 95 32) w = none → refused (exec (.frameReceived l b false) s) 0x2003) ∧
      (∀ text, openFrame ks.1 ks.2 (bits h 95 32) w = some text →
        exec (.frameReceived l b false) s = .next (u.acceptFrame l h g text).settle ∧
        (noTraffic s → tblGet (s.link l).fs.partialRx (bits h 3 2) [] = [] → (∀ x ∈ text, x = 0#8) →
          ∃ t : State, exec (.frameReceived l b false) s = .next t ∧ (t.link l).fs.rxSeq = (s.link l).fs.rxSeq + 1 ∧ (t.link l).rx = [] ∧
            (t.link l).fs.acked = ackUpTo 14 (s.link l).fs.acked (s.link l).fs.txSeq (bits h 31 18) ∧
            t.count 0x3202 (l + 1) = capTo 64 (s.count 0x3202 (l + 1) + 1))))) ∧
  (∀ (s u : State) (l : Nat) (ks : Bytes × Bytes), onLink s l → ((s.link l).state = 3 ∨ (s.link l).state = 4) → noTraffic s →
    (∀ vc, tblGet (s.link l).fs.txq vc [] = []) → (s.link l).peerLow = false → nextFrame (s.link l).fs →
    s.linkKey l (s.txGen (s.link l)) true = .ok (ks, u) →
    ∃ t b, exec (.frameTransmit l) s = .next t ∧ exec (.keepalive (.link l)) s = .next t ∧ t.out = s.out ++ [.frame l b] ∧
      idleFrame b ks.1 ks.2 (s.link l).fs.txSeq ∧ (t.link l).fs.txSeq = (s.link l).fs.txSeq + 1 ∧
      tblFind (t.link l).fs.replay (s.link l).fs.txSeq = some b ∧ (t.link l).fs.nakDue = false ∧ t.count 0x3201 (l + 1) = capTo 64 (s.count 0x3201 (l + 1) + 1)) ∧
  (∀ (s : State) (l : Nat), onLink s l → noTraffic s → ((s.link l).state = 3 ∨ (s.link l).state = 4) → (s.link l).fs.txSeq < 2 ^ 64 - 1 →
    (s.link l).fs.replayRoom 98304 1024 = false → exec (.frameTransmit l) s = .next s) ∧
  (∀ (s : State) (l : Nat), onLink s l → noTraffic s → ((s.link l).state = 1 ∨ (s.link l).state = 2) → tblGet (s.link l).fs.txq 3 [] ≠ [] →
    ∃ t b, exec (.frameTransmit l) s = .next t ∧ t.out = s.out ++ [.frame l b] ∧ plainOf b (((tblGet (s.link l).fs.txq 3 []).take 62).map (·.2)) ∧
      (tblGet (s.link l).fs.txq 3 []).drop 62 <+: tblGet (t.link l).fs.txq 3 [] ∧
      ((s.link l).fs.held = [] → tblGet (t.link l).fs.txq 3 [] = (tblGet (s.link l).fs.txq 3 []).drop 62)) ∧
  (∀ (s : State) (l a : Nat), onLink s l → (s.link l).fs.replayFrom = some a →
    ∃ t : State, exec (.nak (.link l)) s = .next t ∧ (t.link l).fs = { (s.link l).fs with replayFrom := none } ∧
      t.out = s.out ++ ((s.link l).fs.replay.filter fun kv => decide (a ≤ kv.1)).map (fun kv => .frame l kv.2) ∧
      t.count 0x3205 (l + 1) = capTo 64 (s.count 0x3205 (l + 1) + ((s.link l).fs.replay.filter fun kv => decide (a ≤ kv.1)).length) ∧
      t = { s with links := t.links, out := t.out, ctr := t.ctr, records := t.records }) ∧
  (∀ (s : State) (c a : Nat), c < s.cfg.chipPorts → calm s → s.sealing = true → (s.chip c).fs.replayFrom = some a →
    ∃ t : State, exec (.nak (.chip c)) s = .next t ∧ (t.chip c).fs = { (s.chip c).fs with replayFrom := none } ∧
      t.out = s.out ++ ((s.chip c).fs.replay.filter fun kv => decide (a ≤ kv.1)).map (fun kv => .chipFrame c (kv.1 % max 1 (s.chip c).used) kv.2)) ∧
  (∀ (s : State) (x : FramePort), calm s → frameThere s x = true → s.sealing = false → ∀ c ∈ [Instr.nak x, .nakHoldoffExpiry x, .keepalive x, .keyUpdateComplete x],
    exec c s = .next s) ∧
  (∀ (s : State) (i : Nat), calm s → s.sealing = true →
    (i < s.cfg.links → exec (.nakHoldoffExpiry (.link i)) s = .next (s.modLink i fun k => { k with fs := { k.fs with nakHold := false } }) ∧
      ((s.link i).fs.replayFrom = none → exec (.nak (.link i)) s = .next s) ∧
      ((s.link i).state ≠ 3 → (s.link i).state ≠ 4 → exec (.keepalive (.link i)) s = .next s)) ∧
    (i < s.cfg.chipPorts → exec (.nakHoldoffExpiry (.chip i)) s = .next (s.modChip i fun k => { k with fs := { k.fs with nakHold := false } })))

/-- Key updates of links and chiplet ports (R258, R262, R327, R364). -/
def Obligations.LinkKeyUpdates : Prop :=
  (∀ (s : State) (l : Nat), hasLink s l → ((s.link l).state = 3 ∨ (s.link l).state = 4) → (s.link l).update = false → (s.link l).session.stage = 5 →
    let started := if s.fw.fw = 1 then s.modLink l fun k => { k with updateDue := true }
      else ((s.modLink l fun k => { k with updateDue := false, boundRunning := true, session := { k.session with updateAsked := true } }).say
        (if (s.link l).session.requester then .spdmRequest (.link l) 0xE9 [] else .spdm (.link l) 0x6A [0xE9#8])).linkNext l
    exec (.keyUpdateStart (.link l) none) s = .next (if s.setting 0x3210 2 = 0 then s else started.settle) ∧
    ∀ m, granted s m 0x3211 (l + 1) (leBytes 1 2) →
      exec (.keyUpdateStart (.link l) (some m)) s = .next (accepted s started m 0x3211 (l + 1) (leBytes 1 2)).settle) ∧
  (∀ (s : State) (l i : Nat), (s.link l).slot = some i → (s.link l).update = false → i < 65536 → s.usable i = true → s.fertile i = true →
    (s.slot i).state = 1 → (s.slot i).kind = 4 → (s.slot i).next = false → (s.slot i).gen < 0xFFFFFFFE →
    let seed := linkSeed (s.link l).session.exportMaster ((s.slot i).gen + 1)
    ((s.linkNext l).slot i).next = true ∧ ((s.linkNext l).slot i).gen = (s.slot i).gen ∧ ((s.linkNext l).slot i).nextSeed = s.masked (padTo 32 seed) ∧
      ((s.linkNext l).link l).update = true ∧ ((s.linkNext l).link l).updateX = none ∧
      (s.linkNext l).rxGen ((s.linkNext l).link l) (decide ((s.slot i).gen % 2 = 1)) = some (s.slot i).gen ∧
      (s.linkNext l).rxGen ((s.linkNext l).link l) (decide (((s.slot i).gen + 1) % 2 = 1)) = some ((s.slot i).gen + 1) ∧
      (s.linkUpdate l) = (s.linkNext l).modLink l fun k => { k with updateX := some k.fs.txSeq }) ∧
  (∀ (s : State) (l : Nat), hasLink s l → (s.link l).state = 5 → (s.link l).update = false → (s.link l).session.stage = 5 → s.setting 0x3210 2 ≠ 0 →
    exec (.keyUpdateStart (.link l) none) s = .next (s.modLink l fun k => { k with updateDue := true })) ∧
  (∀ (s u : State) (l : Nat) (ks : Bytes × Bytes), onLink s l → ((s.link l).state = 3 ∨ (s.link l).state = 4) → noTraffic s →
    (∀ vc, tblGet (s.link l).fs.txq vc [] = []) → (s.link l).peerLow = false → (s.link l).fs.txSeq + 1 = updateSeq →
    (s.link l).fs.replayRoom 98304 1024 = true → (s.link l).update = false → (s.link l).session.stage = 5 → s.fw.fw ≠ 1 →
    s.linkKey l (s.txGen (s.link l)) true = .ok (ks, u) → ∀ i, (s.link l).slot = some i → i < 65536 → s.usable i = true → s.fertile i = true →
    (s.slot i).state = 1 → (s.slot i).kind = 4 → (s.slot i).next = false → (s.slot i).gen < 0xFFFFFFFE →
    ∃ t : State, exec (.frameTransmit l) s = .next t ∧ (t.link l).fs.txSeq = updateSeq ∧ (t.link l).session.updateAsked = true ∧ (t.link l).boundRunning = true ∧
      (t.slot i).next = true) ∧
  (∀ (s : State) (c : Nat), c < s.cfg.chipPorts → calm s → (s.chip c).state = 4 → (s.chip c).update = false → (s.chip c).session.stage = 5 →
    s.chipRemoving c = false →
    exec (.keyUpdateStart (.chip c) none) s = .next (if s.setting 0x3305 3 = 0 then s else if s.fw.fw = 1 then s.modChip c fun k => { k with updateDue := true }
      else (((s.modChip c fun k => { k with updateDue := false, boundRunning := true, session := { k.session with updateAsked := true } }).emit
        (.spdmRequest (.chip c) 0xE9 [])).chipNext c).settle)) ∧
  (∀ (s : State) (l i x : Nat), onLink s l → (s.link l).slot = some i → (s.link l).update = true → (s.link l).updateX = some x →
    (s.slot i).next = true → (s.slot i).state = 1 → s.usable i = true → s.fertile i = true →
    ((s.link l).rxNew = true → x ≤ (s.link l).fs.acked → (s.link l).rekeying = true → (s.link l).fresh = false → (s.link l).session.stage ≠ 5 →
      ∃ t : State, exec (.keyUpdateComplete (.link l)) s = .next t ∧ (t.slot i).gen = (s.slot i).gen + 1 ∧ (t.link l).update = false ∧
        (t.link l).rekeying = true ∧ (t.link l).withhold = (s.link l).withhold) ∧
    ((s.link l).rxNew = true → x ≤ (s.link l).fs.acked → ((s.link l).rekeying = false ∨ (s.link l).fresh = true) → ∃ t : State, exec (.keyUpdateComplete (.link l)) s = .next t ∧
      (t.slot i).gen = (s.slot i).gen + 1 ∧ (t.slot i).next = false ∧ (t.link l).update = false ∧ (t.link l).updateX = none ∧
      (t.link l).boundRunning = false ∧ (t.link l).state = (s.link l).state ∧ t.count 0x3208 (l + 1) = capTo 64 (s.count 0x3208 (l + 1) + 1)) ∧
    ((s.link l).rxNew = false ∨ (s.link l).fs.acked < x → exec (.keyUpdateComplete (.link l)) s = .next s)) ∧
  (∀ (s : State) (c i x : Nat), c < s.cfg.chipPorts → calm s → s.sealing = true → s.chipRemoving c = false → (s.chip c).slot = some i → (s.chip c).update = true → (s.chip c).updateX = some x →
    (s.slot i).next = true → (s.slot i).state = 1 → s.usable i = true → s.fertile i = true →
    ((s.chip c).rxNew = true → x ≤ (s.chip c).fs.acked → ((s.chip c).withhold = false ∨ (s.chip c).fresh = true) → ∃ t : State, exec (.keyUpdateComplete (.chip c)) s = .next t ∧
      (t.slot i).gen = (s.slot i).gen + 1 ∧ (t.slot i).next = false ∧ (t.chip c).update = false ∧ (t.chip c).state = (s.chip c).state) ∧
    ((s.chip c).rxNew = false ∨ (s.chip c).fs.acked < x → exec (.keyUpdateComplete (.chip c)) s = .next s))

/-- Idle-low, wake-up, route tables and domain aborts (R250, R265, R270, R271, R460, R492). -/
def Obligations.IdleRoutesAndAborts : Prop :=
  (∀ (s u : State) (l : Nat) (m : Msg), hasLink s l → (s.link l).state = 4 →
    (s.takeLinkMsg l 0x32 = some (m, u) → (s.link l).fs.queued < 2048 → (∀ h ∈ (s.link l).fs.held, h.1 ≠ 3) → ∃ t : State, exec (.linkIdle l) s = .next t ∧ (t.link l).peerLow = true ∧ (t.link l).state = 4 ∧
      tblGet (t.link l).fs.txq 3 [] = tblGet (s.link l).fs.txq 3 [] ++ startUnits (msgBytes { mtype := 0x33, src := s.memberField })) ∧
    (s.takeLinkMsg l 0x33 = some (m, u) → (s.link l).idleSent = true → s.power.entering = some 2 →
      ∃ t : State, exec (.linkIdleAck l) s = .next t ∧ (t.link l).state = 5) ∧
    (s.takeLinkMsg l 0x32 = none → exec (.linkIdle l) s = .next s) ∧ (s.takeLinkMsg l 0x33 = none → exec (.linkIdleAck l) s = .next s)) ∧
  (∀ (s u : State) (l : Nat) (ks : Bytes × Bytes), hasLink s l → (s.link l).state = 5 → s.power.state = 0 → s.power.exiting = none →
    (s.link l).sentHello = true → (s.link l).updateDue = false → nextFrame (s.link l).fs → s.linkKey l (s.txGen (s.link l)) true = .ok (ks, u) →
    ∃ t b, exec (.wakeFrame l) s = .next t ∧ (t.link l).state = (if s.sameDomain (s.link l) then 4 else 3) ∧ (t.link l).peerLow = false ∧ t.out = s.out ++ [.frame l b] ∧
      idleFrame b ks.1 ks.2 (s.link l).fs.txSeq ∧ (t.link l).fs.txSeq = (s.link l).fs.txSeq + 1) ∧
  (∀ (s : State) (l : Nat), hasLink s l →
    ((s.link l).state = 5 → s.power.state ≠ 0 → exec (.wakeFrame l) s = .next s.beginExit) ∧
    ((s.link l).state ≠ 5 → exec (.wakeFrame l) s = .next s ∧ exec (.wakeRepeat l) s = .next s) ∧
    ((s.link l).state = 5 → (s.link l).peerLow = true → 0 < (s.link l).queued →
      exec (.wakeRepeat l) s = .next (if s.sealing then (s.emit (.frame l wakeBeat)).modLink l fun k => { k with wakeSent := true } else s.beginExit))) ∧
  (∀ (s : State) (m : Mgmt), granted s m 0x3220 3 (leBytes 1 1) →
    let fails := fun (kv : Nat × Nat) => !(s.bring.member && kv.1 = s.bring.memberId) && s.routeFails kv.2 ≠ 0
    ((∀ kv ∈ s.stagingRoutes, fails kv = false) → ∃ t : State, exec (.routeCommit m 1) s = .next t ∧ t.liveRoutes = s.stagingRoutes ∧ t.count 0x3220 4 = 1 ∧
      (∀ n, n ∈ s.routeHeld → n ∈ t.routeHeld) ∧
      (∀ kv ∈ s.stagingRoutes, bits (tblGet s.stagingRoutes kv.1 0) 11 0 ≠ bits (tblGet s.liveRoutes kv.1 0) 11 0 → kv.1 ∈ t.routeHeld)) ∧
    (∀ kv, s.stagingRoutes.find? fails = some kv → ∃ t : State, exec (.routeCommit m 1) s = .next t ∧ t.liveRoutes = s.liveRoutes ∧ t.routeHeld = s.routeHeld ∧
      t.count 0x3220 4 = 2 + kv.1 * 2 ^ 16 + s.routeFails kv.2 * 2 ^ 32)) ∧
  (∀ s : State, calm s → s.fclk = false → exec .routeHoldExpiry s = .next s) ∧
  (∀ s : State, calm s → s.fclk = true →
    (s.routeHold = [] → exec .routeHoldExpiry s = .next { s with routeHeld := [] }) ∧
    (∀ (m : Msg) (o : Nat), m.mtype ≠ 0 → s.routeHold = [⟨none, m, none, []⟩] → ({ s with routeHold := [], routeHeld := [] } : State).routeOf none m.dst m.adaptive = some o →
      (s.link o).state = 4 → exec .routeHoldExpiry s = .next ((({ s with routeHold := [], routeHeld := [] } : State).leftBy none m o).modLink o fun k =>
        { k with fs := k.fs.push (mtypeVc m.mtype) (startUnits (msgBytes m)) }))) ∧
  (∀ (s : State) (m : Mgmt) (v : Nat), granted s m 0x3210 1 (leBytes 2 v) → exec (.levelWrite m v) s = .next (
    if ∃ kv ∈ s.links, kv.2.state = 3 ∨ kv.2.state = 4 then turnedAway s m 0x3210 1 (leBytes 2 v) 0x0801
    else accepted s (s.setSetting 0x3210 1 (v % 2 ^ 16)) m 0x3210 1 (leBytes 2 v))) ∧
  (∀ (s u : State) (l : Nat) (m : Msg), hasLink s l → s.fclk = true → s.takeLinkMsg l 0x20 = some (m, u) →
    let v := leNat (m.body.take 16)
    let id := (bits v 15 0, bits v 47 16)
    let k := s.partn (bits v 53 48)
    (id ∈ s.faults.seen → exec (.domainAbort l) s = .next (u.freeUnits l 2 m.units 0)) ∧
    (id ∉ s.faults.seen → k.live = false → ∃ t : State, exec (.domainAbort l) s = .next t ∧ id ∈ t.faults.seen ∧ t = { s with faults := t.faults, links := t.links }) ∧
    (id ∉ s.faults.seen → k.live = true → k.job = bits v 111 80 → k.kgen % 256 = bits v 119 112 →
      ∃ t : State, exec (.domainAbort l) s = .next t.settle ∧ id ∈ t.faults.seen ∧ (t.partn (bits v 53 48)).aborted = true ∧
        (t.partn (bits v 53 48)).resetDue = !k.resetting ∧ t.count 0x6000 7 = capTo 64 (s.count 0x6000 7 + 1)))

/-- READ, WRITE, WRITE_PARTIAL, ATOMIC and INVALIDATE of another member (R191, R196, R261, R274, R279, R281, R286, R287, R305). -/
def Obligations.RequestsAtTheHome : Prop :=
  (∀ (s u : State) (l t : Nat) (m : Msg), hasLink s l → t ∈ [1, 2, 3, 4] → s.takeLinkMsg l t = some (m, u) →
    let row : Instr := if t = 1 then .read (.link l) else if t = 2 then .write (.link l) else if t = 3 then .writePartial (.link l) else .atomic (.link l)
    let a := linkAccess m
    let asker := u.askerOf l m a.2
    let w := m.addr / 2 ^ 43
    let q : LineReq := ⟨m.addr % 2 ^ 43 / 128 * 128, a.1, m.part, clsOfCode m.cls, l, asker, 0, true, u.clock⟩
    (u.msgStale m = true → ∃ v : State, exec row s = .next v ∧ (s.sealing = true → v.count 0x3206 (l + 1) = capTo 64 (s.count 0x3206 (l + 1) + 1)) ∧ v.mem = s.mem ∧ (v.link l).lastErr = 0x2009) ∧
    (u.msgStale m = false →
      (atomicOk a.1 = false → exec row s = .next ({ u with due := [(asker, ⟨.format, 0x2023, []⟩)] } : State).settle) ∧
      (atomicOk a.1 = true → 8 ≤ w → ∃ v : State, exec row s = .next v.settle ∧ v.due = [(asker, ⟨.access, 0x7008, failData a.1⟩)] ∧ v.mem = s.mem) ∧
      (atomicOk a.1 = true → s.cfg.memPorts ≤ w → w < 8 → ∃ v : State, exec row s = .next v.settle ∧ v.due = [(asker, ⟨.access, 0x100B, failData a.1⟩)] ∧ v.mem = s.mem) ∧
      (atomicOk a.1 = true → w < s.cfg.memPorts → ∀ c e, u.lineRefusal w q = some (c, e) →
        ∃ v : State, exec row s = .next v.settle ∧ v.due = [(asker, ⟨c, e, failData a.1⟩)] ∧ v.mem = s.mem) ∧
      (atomicOk a.1 = true → w < s.cfg.memPorts → u.lineRefusal w q = none → ((s.port w).mode = 2 → poisonKey (s.port w) q.line = none) →
        exec row s = .next (({ u with clock := u.clock + 1 } : State).modPort w fun p => { p with waiting := p.waiting ++ [q] })))) ∧
  (∀ (s : State) (l t : Nat), hasLink s l → t ∈ [1, 2, 3, 4] → s.takeLinkMsg l t = none →
    exec (if t = 1 then .read (.link l) else if t = 2 then .write (.link l) else if t = 3 then .writePartial (.link l) else .atomic (.link l)) s = .next s) ∧
  (∀ (s : State) (c t : Nat), c < s.cfg.chipPorts → calm s → t ∈ [1, 2, 3, 4] →
    let row : Instr := if t = 1 then .read (.chip c) else if t = 2 then .write (.chip c) else if t = 3 then .writePartial (.chip c) else .atomic (.chip c)
    (s.takeChipMsg c t = none → exec row s = .next s) ∧
    (∀ m u, s.takeChipMsg c t = some (m, u) → exec row s = .next ((u.access ⟨bufChip c, (s.chip c).bound.getD 0, none, m.addr / 128 * 128, (chipAccess m).1, 4,
      srcChip c, .chip c (s.chip c).sess m.otag (chipAccess m).2 m.units, (chipAccess m).2, false, false⟩).drainBells c).settle)) ∧
  (∀ (s u : State) (l : Nat) (m : Msg), hasLink s l → s.takeLinkMsg l 0x05 = some (m, u) → u.msgStale m = false →
    let hit := fun (dom : Nat) => bits m.addr 47 44 = 15 ∨ homeOf dom = m.addr % 2 ^ 16 ∧ dom % 2 ^ 48 / 2 ^ (20 + bits m.addr 47 44) = bits m.addr 43 16 / 2 ^ bits m.addr 47 44
    ∃ t : State, exec (.invalidateMessage l) s = .next t.settle ∧ t.due = [(u.askerOf l m false, ⟨.ok, 0, []⟩)] ∧
      (∀ kv, kv ∈ t.rcache ↔ kv ∈ s.rcache ∧ ¬ (kv.2.part = m.part ∧ hit kv.2.addr)) ∧ t.mem = s.mem) ∧
  (∀ (s : State) (l : Nat), hasLink s l → s.takeLinkMsg l 0x05 = none → exec (.invalidateMessage l) s = .next s)

/-- Responses at the issuer, timeouts, and OTAGs released (R261, R276, R278, R283, R288, R289). -/
def Obligations.ResponsesAndTimeouts : Prop :=
  (∀ (s u : State) (l t : Nat) (m : Msg), hasLink s l → t ∈ [0x10, 0x11, 0x12] → s.takeLinkMsg l t = some (m, u) → u.msgStale m = false →
    let row : Instr := if t = 0x10 then .readData l else if t = 0x11 then .completion l else .atomicData l
    let res := fun (o : Otag) => if t = 0x10 then (⟨.ok, 0, m.body⟩ : Result)
      else if t = 0x11 then ⟨codeOf (m.addr % 2 ^ 8), bits m.addr 23 8, []⟩ else ⟨.ok, 0, atomicData o m.body⟩
    (∀ o, tblFind s.otags m.otag = some o → o.answeredBy t (m.addr % 2 ^ 8) = true → o.entry = none → (o.cacheable = false ∨ o.noInstall = true) → s.heldOps = [] →
      ∃ v : State, exec row s = .next v.settle ∧ v.otags = tblDel s.otags m.otag ∧ v.rcache = s.rcache ∧
        v.due = (if o.reply = .none then [] else [(o.reply, ⟨(res o).code, (res o).err, if (res o).code = .ok then (res o).data else failData o.acc⟩)])) ∧
    ((∀ o, tblFind s.otags m.otag = some o → o.answeredBy t (m.addr % 2 ^ 8) = false) →
      ∃ v : State, exec row s = .next v ∧ v.otags = s.otags ∧ (s.sealing = true → v.count 0x3240 5 = capTo 64 (s.count 0x3240 5 + 1)) ∧
        v = { s with links := v.links, ctr := v.ctr, records := v.records, faults := v.faults })) ∧
  (∀ (s : State) (l : Nat), hasLink s l → (s.takeLinkMsg l 0x10 = none → exec (.readData l) s = .next s) ∧
    (s.takeLinkMsg l 0x11 = none → exec (.completion l) s = .next s) ∧ (s.takeLinkMsg l 0x12 = none → exec (.atomicData l) s = .next s)) ∧
  (∀ (s : State) (k : Nat), calm s → s.fclk = false → exec (.fabricTimeout k) s = .next s ∧ exec (.otagRelease k) s = .next s) ∧
  (∀ (s : State) (k : Nat) (o : Otag), calm s → s.fclk = true → tblFind s.otags k = some o →
    (o.reserved = false → o.entry = none → o.ctx = none → s.heldOps = [] →
      let err := if o.inval then 0x2022 else 0x2020
      ∃ t : State, exec (.fabricTimeout k) s = .next t.settle ∧ t.due = (if o.reply = .none then [] else [(o.reply, ⟨.timeout, err, failData o.acc⟩)]) ∧
        (∃ o', tblFind t.otags k = some o' ∧ o'.reserved = true ∧ o'.reply = .none) ∧ (s.sealing = true → t.count 0x3240 4 = capTo 64 (s.count 0x3240 4 + 1)) ∧
        t = { s with otags := t.otags, ctr := t.ctr, records := t.records, due := t.due }) ∧
    (o.reserved = true → s.heldOps = [] → exec (.otagRelease k) s = .next { s with otags := tblDel s.otags k }) ∧
    (o.reserved = true → exec (.fabricTimeout k) s = .next { s with otags := tblPut s.otags k { o with timed := true } }) ∧ (o.reserved = false → exec (.otagRelease k) s = .next s))

/-- Contribution chunks, their acknowledgements, and combining entries (R177, R178, R179, R180, R185, R186, R250). -/
def Obligations.ChunksAndCombining : Prop :=
  (∀ (s u : State) (l : Nat) (m : Msg), hasLink s l → s.takeLinkMsg l 0 = some (m, u) →
    (s.computing = false → exec (.chunk (.link l)) s = .next s.beginExit) ∧
    (s.computing = true → s.lanesFor m.part = false → exec (.chunk (.link l)) s = .next s.takeEarly.settle)) ∧
  (∀ (s u : State) (l o : Nat) (m : Msg), hasLink s l → s.takeLinkMsg l 0 = some (m, u) → s.computing = true → s.lanesFor m.part = true →
    u.msgStale m = false → s.early = [] →
    let k := chunkOf m.body
    let f : ChunkFrom := .link l (s.link l).sess (m.body.take 15)
    (k.home ≠ s.memberField → k.combine = false → o ≠ l → u.routeOf (some l) k.home false = some o → s.routeHeld = [] → (s.link o).state = 4 →
      ∃ t : State, exec (.chunk (.link l)) s = .next t ∧ t.chunkRecs = s.chunkRecs ++ [⟨o, (chunkBytes k).take 15, [f]⟩] ∧
        (t.link o).fs = (s.link o).fs.push 0 (startUnits (chunkBytes k)) ∧ t.lanesTurn = m.part) ∧
    (k.home = s.memberField → tblFind s.rslots (slotKey7 k.part k.slot) = none → u.transitUsed + (chunkBytes k).length ≤ 2 ^ 20 →
      let enters := k.combine && bit (s.setting 0x2310 1) 2 && s.chunkRoom
      ∃ t : State, exec (.chunk (.link l)) s = .next t ∧ t.early = [⟨k, [f], if enters then some k.accum else none⟩] ∧ t.rslots = s.rslots)) ∧
  (∀ (s : State) (l : Nat), hasLink s l → (s.takeLinkMsg l 0 = none → exec (.chunk (.link l)) s = .next s) ∧ (s.takeLinkMsg l 0x13 = none → exec (.chunkAck l) s = .next s)) ∧
  (∀ (s u : State) (c : Nat) (m : ChipMsg), c < s.cfg.chipPorts → calm s → s.takeChipMsg c 0 = some (m, u) →
    (s.computing = false → exec (.chunk (.chip c)) s = .next s.beginExit) ∧
    (s.computing = true → s.lanesFor ((s.chip c).bound.getD 0) = false → exec (.chunk (.chip c)) s = .next s.takeEarly.settle) ∧
    (s.computing = true → s.lanesFor ((s.chip c).bound.getD 0) = true → some (chunkOf m.body).part ≠ (s.chip c).bound → s.early = [] → (u.chip c).rx = [] →
      ∃ t : State, exec (.chunk (.chip c)) s = .next t ∧ t = { s with chips := t.chips, lanesTurn := (s.chip c).bound.getD 0 } ∧ (t.chip c).rx = [])) ∧
  (∀ (s u : State) (l j : Nat) (m : Msg) (r : ChunkRec) (h : Bytes), hasLink s l → s.takeLinkMsg l 0x13 = some (m, u) → u.msgStale m = false → j ≠ l → (s.link j).state = 4 →
    (s.chunkRecs.find? fun r => r.link = l && r.header = (m.body.drop 1).take 15) = some r → r.froms = [.link j (s.link j).sess h] →
    ∃ t b, exec (.chunkAck l) s = .next t ∧ t.chunkRecs = s.chunkRecs.erase r ∧ b.mtype = 0x13 ∧
      b.body = leBytes 1 (codeNum (codeOf (leNat (m.body.take 1)))) ++ padTo 15 h ∧
      (t.link j).fs = (s.link j).fs.push 1 (startUnits (msgBytes b))) ∧
  (∀ (s u : State) (l : Nat) (m : Msg), hasLink s l → s.takeLinkMsg l 0x13 = some (m, u) → u.msgStale m = true →
    ∃ t : State, exec (.chunkAck l) s = .next t ∧ t.chunkRecs = s.chunkRecs ∧ (s.sealing = true → t.count 0x3206 (l + 1) = capTo 64 (s.count 0x3206 (l + 1) + 1)) ∧ (t.link l).lastErr = 0x2009) ∧
  (∀ (s : State) (i : Nat), rested s →
    (s.early[i]? = none → exec (.earlyArrivalExpiry i) s = .next s) ∧
    (∀ (x : HeldChunk) (l : Nat) (h : Bytes), s.early[i]? = some x → x.froms = [.link l (s.link l).sess h] → (s.link l).state = 4 →
      ∃ t b, exec (.earlyArrivalExpiry i) s = .next t ∧ t.early = s.early.eraseIdx i ∧ (s.sealing = true → t.count 0x2300 3 = capTo 64 (s.count 0x2300 3 + 1)) ∧ b.mtype = 0x13 ∧
        b.body = leBytes 1 (codeNum .wrongState) ++ padTo 15 h ∧ (t.link l).fs = (s.link l).fs.push 1 (startUnits (msgBytes b))) ∧
    (tblFind s.rslots i = none → exec (.slotIdleExpiry i) s = .next s) ∧
    (∀ k, tblFind s.rslots i = some k → exec (.slotIdleExpiry i) s = .next (s.finishCmd k.cmd .timeout 0x5306 0).settle)) ∧
  (∀ (s : State) (e : Nat), calm s → s.fclk = false → exec (.combiningWindowExpiry e) s = .next s ∧ exec (.combinedDeparture e) s = .next s) ∧
  (∀ (s : State) (e : Nat), calm s → s.fclk = true →
    (tblFind s.comb e = none → exec (.combiningWindowExpiry e) s = .next s ∧ exec (.combinedDeparture e) s = .next s) ∧
    (∀ c, tblFind s.comb e = some c →
      exec (.combiningWindowExpiry e) s = .next (if c.kind = 0 then { s with comb := tblPut s.comb e { c with closed := true } } else s) ∧
      (∀ l, c.kind = 2 → s.routeOf c.arrived c.chunk.home false = some l → (s.link l).grants (chunkUnits (chunkBytes c.chunk)) = false →
        exec (.combinedDeparture e) s = .next s) ∧
      (∀ l, c.kind = 1 → c.departed = false → s.routeOf c.arrived (homeOf c.addr) false = some l → (s.link l).grants 2 = false →
        exec (.combinedDeparture e) s = .next s) ∧
      (∀ l, c.kind = 2 → c.froms.length < 2 → (s.link l).grants (chunkUnits (chunkBytes c.chunk)) = true → s.routeHeld = [] →
        s.routeOf c.arrived c.chunk.home false = some l → (s.link l).state = 4 →
        ∃ t : State, exec (.combinedDeparture e) s = .next t ∧ t.comb = tblDel s.comb e ∧ t.chunkRecs = s.chunkRecs ++ [⟨l, (chunkBytes c.chunk).take 15, c.froms⟩] ∧
          (t.link l).fs = (s.link l).fs.push 0 (startUnits (chunkBytes c.chunk))) ∧
      (∀ l, c.kind = 1 → c.departed = false → s.routeOf c.arrived (homeOf c.addr) false = some l → (s.link l).grants 2 = true → (s.link l).state = 4 →
        s.routeHeld = [] → s.heldOps = [] → firstGap s.otags 0 < 65536 →
        ∃ t o b, exec (.combinedDeparture e) s = .next t ∧ tblFind t.comb e = some { c with departed := true } ∧
          tblFind t.otags (firstGap s.otags 0) = some o ∧ o.entry = some e ∧ o.acc = .atomic c.op c.wide (c.addr % 128) c.operand ∧
          b.mtype = 4 ∧ (t.link l).fs = (s.link l).fs.push 0 (startUnits (msgBytes b)))))

/-- Control pages: fault clear, and the queue operations read, enable and disable (R308, R373, R374, R396). -/
def Obligations.ControlPages : Prop :=
  (∀ (s : State) (h fn n : Nat) (w : Bool), reachesPage s h fn n →
    exec (.ctxFaultClear h fn n w) s = .next (s.modCtx n fun c => { c with fault := c.fault && !w })) ∧
  (∀ (s : State) (h fn n : Nat), reachesPage s h fn n →
    let c := s.ctx n
    let q := c.qcfgQ
    let k := s.queue q
    let mine := c.qbase ≤ q ∧ q < c.qbase + c.qcount
    let done := fun (t : State) => (t.ctx n).qcfgDone = true ∧ (t.ctx n).qcfgErr = c.qcfgErr
    let refused := fun (x : Host.Outcome State Fault Refusal) (cause : Nat) => ∃ t : State, x = .next t ∧ (t.ctx n).qcfgDone = true ∧ (t.ctx n).qcfgErr = true ∧
      (t.ctx n).qcfgCause = cause ∧ t.count 0x5000 4 = capTo 64 (s.count 0x5000 4 + (if cause = 0x6004 then 1 else 0)) ∧ t = { s with ctxs := t.ctxs, ctr := t.ctr }
    (mine → ∃ t : State, exec (.queueRead h fn n) s = .next t ∧ done t ∧ (t.ctx n).qcfgRing = k.ring + k.rlog * 2 ^ 48 ∧
      (t.ctx n).qcfgCring = k.cring + k.clog * 2 ^ 48 + k.vec * 2 ^ 53 ∧ (t.ctx n).qcfgCount = k.tail + k.ctail * 2 ^ 32 ∧
      (k.accepted = none → (t.ctx n).qcfgState = k.state + k.head * 2 ^ 32) ∧ t = { s with ctxs := t.ctxs }) ∧
    (mine → k.state = 0 → c.state = 1 → bits c.qcfgRing 47 0 % 4096 = 0 → bits c.qcfgCring 47 0 % 4096 = 0 →
      4 ≤ bits c.qcfgRing 52 48 → bits c.qcfgRing 52 48 ≤ 20 → 4 ≤ bits c.qcfgCring 52 48 → bits c.qcfgCring 52 48 ≤ 20 →
      (bits c.qcfgCring 59 53 < 64 ∨ bits c.qcfgCring 59 53 = 0x7F) →
      ∃ t : State, exec (.queueEnable h fn n) s = .next t ∧ done t ∧ t.queue q =
        ({ state := 1, ring := bits c.qcfgRing 47 0, rlog := bits c.qcfgRing 52 48, cring := bits c.qcfgCring 47 0, clog := bits c.qcfgCring 52 48, vec := bits c.qcfgCring 59 53 } : Queue) ∧ t = { s with ctxs := t.ctxs, queues := t.queues }) ∧
    (mine → (k.state = 1 ∨ k.state = 2) → k.accepted = none →
      ∃ t : State, exec (.queueDisable h fn n) s = .next t ∧ done t ∧ (t.queue q).state = 3 ∧ (t.queue q).head = k.head ∧ (t.queue q).started = k.started ∧
        t = { s with ctxs := t.ctxs, queues := t.queues }) ∧
    (mine → k.state ≠ 0 → refused (exec (.queueEnable h fn n) s) 0x6004) ∧
    (mine → k.state = 0 ∨ k.state = 3 → refused (exec (.queueDisable h fn n) s) 0x6004) ∧
    (¬ mine → refused (exec (.queueRead h fn n) s) 0x6003 ∧ refused (exec (.queueEnable h fn n) s) 0x6003 ∧ refused (exec (.queueDisable h fn n) s) 0x6003)) ∧
  (∀ (s : State) (h fn n : Nat) (w : Bool), s.cfg.legal = true → h < s.cfg.hostPorts → busy s → (s.host h).inReset = false → s.reaches h fn n = false →
    ∃ t : State, t.count 0x3340 (h + 1) = capTo 64 (s.count 0x3340 (h + 1) + 1) ∧ (t.host h).lastErr = 0x4003 ∧
      t = { s with hosts := t.hosts, ctr := t.ctr, records := t.records } ∧
      ∀ i ∈ [Instr.ctxFaultClear h fn n w, .queueRead h fn n, .queueEnable h fn n, .queueDisable h fn n], exec i s = .next t) ∧
  (∀ (s : State) (h fn n : Nat) (w : Bool), h < s.cfg.hostPorts → calm s → s.faults.phase = 0 → ¬ inS0 s →
    ∀ i ∈ [Instr.ctxFaultClear h fn n w, .queueRead h fn n, .queueEnable h fn n, .queueDisable h fn n],
      exec i s = if s.fclk then exec i s.beginExit else .next s.beginExit) ∧
  (∀ (s : State) (h fn n : Nat) (w : Bool), h < s.cfg.hostPorts → busy s → (s.host h).inReset = true →
    ∀ i ∈ [Instr.ctxFaultClear h fn n w, .queueRead h fn n, .queueEnable h fn n, .queueDisable h fn n], exec i s = .next s) ∧
  (∀ (s : State) (q : Nat), busy s → exec (.queueDisabled q) s = .next (
    if (s.queue q).state = 3 ∧ s.queueQuiet q = true then s.modQueue q fun k => { k with state := 0 } else s))

/-- Doorbells, acceptance, start, and the commands of the queue manager (R375, R376, R377, R380, R384, R393, R397). -/
def Obligations.QueuesAndCommands : Prop :=
  (∀ (s : State) (q n v h fn : Nat), s.cfg.legal = true → h < s.cfg.hostPorts → busy s → (s.host h).inReset = false → q < s.cfg.queues → s.ownerOf q = some n →
    s.reaches h fn n = true → s.tdiHolds n = false →
    let k := s.queue q
    ((s.ctx n).state = 1 → k.state = 1 → v < 2 ^ 32 → (v + 2 ^ 32 - k.tail) % 2 ^ 32 ≠ 0 → (v + 2 ^ 32 - k.tail) % 2 ^ 32 < 2 ^ 31 →
      (v + 2 ^ 32 - k.head) % 2 ^ 32 ≤ 2 ^ k.rlog → exec (.doorbell (.host h fn) q 15 v) s = .next (s.modQueue q fun k => { k with tail := v })) ∧
    ((s.ctx n).state = 1 → k.state = 1 → v < 2 ^ 32 → (k.ctail + 2 ^ 32 - v) % 2 ^ 32 ≤ 2 ^ k.clog →
      exec (.doorbell (.host h fn) q 0xF0 (v * 2 ^ 32)) s = .next (s.modQueue q fun k => { k with chead := v })) ∧
    ((s.ctx n).state = 1 → k.state ≠ 1 → exec (.doorbell (.host h fn) q 15 v) s = .next (s.bump 0x5000 6)) ∧
    ((s.ctx n).state = 2 → exec (.doorbell (.host h fn) q 15 v) s = .next (s.modQueue q fun k => { k with heldBells := k.heldBells ++ [(15, v)] }))) ∧
  (∀ (s : State) (q be v h fn : Nat), s.cfg.legal = true → h < s.cfg.hostPorts → busy s → (s.host h).inReset = false → (∀ n, s.ownerOf q = some n → s.reaches h fn n = false) →
    ∃ t : State, exec (.doorbell (.host h fn) q be v) s = .next t ∧ t.queues = s.queues ∧ t.count 0x3340 (h + 1) = capTo 64 (s.count 0x3340 (h + 1) + 1)) ∧
  (∀ (s : State) (r : Ringer) (q be v : Nat), unitThere s (.doorbell r q be v) = true → busy s → ringerDark r s = true → exec (.doorbell r q be v) s = .next s) ∧
  (∀ (s : State) (q n v c : Nat), c < s.cfg.chipPorts → busy s → (s.chip c).inReset = false → s.ownerOf q = some n → s.tdiHolds n = false → (s.ctx n).state = 1 →
    bit (s.ctx n).chipDb c = true → (s.chip c).bound = some (s.ctx n).part → (s.chip c).state = 4 → (s.queue q).state = 1 → v < 2 ^ 32 →
    (v + 2 ^ 32 - (s.queue q).tail) % 2 ^ 32 ≠ 0 → (v + 2 ^ 32 - (s.queue q).tail) % 2 ^ 32 < 2 ^ 31 →
    (v + 2 ^ 32 - (s.queue q).head) % 2 ^ 32 ≤ 2 ^ (s.queue q).rlog →
    exec (.doorbell (.chip c) q 15 v) s = .next (s.modQueue q fun k => { k with tail := v })) ∧
  (∀ (s : State) (r : Ringer) (q be v : Nat), unitThere s (.doorbell r q be v) = true → calm s → s.faults.phase = 0 → ¬ inS0 s →
    exec (.doorbell r q be v) s = if s.fclk then exec (.doorbell r q be v) s.beginExit else .next s.beginExit) ∧
  (∀ (s : State) (q n : Nat), busy s → s.ownerOf q = some n →
    let k := s.queue q
    let waits := k.state = 1 ∧ k.tail ≠ k.head ∧ k.accepted = none ∧ k.fetching = false ∧ (s.ctx n).state = 1 ∧
      ∀ i ∈ k.started, ¬ ((s.cmd i).opcode = 2 ∧ (s.cmd i).phase = 1)
    (waits → exec (.descriptorAccept q) s = .next (((s.modQueue q fun k => { k with fetching := true, fetched := none, probes := [], probing := [], probeFails := [] }).access
      { buf := bufQueues, part := (s.ctx n).part, ctx := some n, dev := (k.ring + 64 * (k.head % 2 ^ k.rlog)) / 128 * 128, acc := .load, cls := 12,
        source := srcQueue q, reply := .fetch q, ret := true }).settle)) ∧
    (¬ waits → exec (.descriptorAccept q) s = .next s)) ∧
  (∀ (s : State) (q n d : Nat), hOpcode d ≠ 0x11 → ∃ t : State, s.accepted q n d none none = t ∧ (t.queue q).head = ((s.queue q).head + 1) % 2 ^ 32 ∧
    (t.queue q).accepted = some s.cmdNext ∧ (t.queue q).fetching = false ∧ t.cmdNext = s.cmdNext + 1 ∧ (s.fclk = true → t.count 0x5000 1 = capTo 64 (s.count 0x5000 1 + 1)) ∧
    ∃ c, tblFind t.cmds s.cmdNext = some c ∧ c.q = q ∧ c.ctx = n ∧ c.desc = d ∧ c.index = (s.queue q).head ∧ c.qb = (s.queue q).qb ∧ c.opcode = hOpcode d ∧
      c.phase = 0 ∧ c.waitPassed = true) ∧
  (∀ (s : State) (q id : Nat) (c : Cmd), busy s → (s.queue q).accepted = some id → tblFind s.cmds id = some c →
    (s.mayStart q id = true → c.fail = none → ∃ t : State, exec (.commandStart q) s = .next t ∧ tblFind t.cmds id = some { c with phase := 1, reserved := true } ∧
      t.queue q = { s.queue q with accepted := none, reserved := (s.queue q).reserved + 1, started := (s.queue q).started ++ [id] } ∧
      t = { s with cmds := t.cmds, queues := t.queues, watch := t.watch, ctr := t.ctr, records := t.records }) ∧
    (s.mayStart q id = false → exec (.commandStart q) s = .next s)) ∧
  (∀ (s : State) (id : Nat) (c : Cmd), started s id 1 c → exec (.nop id) s = .next (s.finishCmd id .ok 0 0).settle ∧
    (hSigEn c.desc = false → hNoRecord c.desc = true → ∃ t : State, exec (.nop id) s = .next t ∧ tblFind t.cmds id = none ∧
      t.count 0x5000 2 = capTo 64 (s.count 0x5000 2 + 1) ∧ (t.queue c.q).reserved = (s.queue c.q).reserved - bn c.reserved ∧ t.mem = s.mem)) ∧
  (∀ (s : State) (id : Nat) (c : Cmd), started s id 2 c →
    exec (.fenceBase id) s = .next ((s.modQueue c.q fun k => { k with qb := bits c.desc 126 64 }).finishCmd id .ok 0 0).settle) ∧
  (∀ (s : State) (id : Nat) (c : Cmd), started s id 3 c → ∃ t : State, exec (.ctxReset id) s = .next t ∧ tblFind t.cmds id = some { c with stage := 1 } ∧
    t.ctx c.ctx = { s.ctx c.ctx with resetDue := true, resetCmds := (s.ctx c.ctx).resetCmds ++ [id] } ∧ t = { s with cmds := t.cmds, ctxs := t.ctxs })

/-- OBJ_CREATE takes the lowest free index at its generation (R388). -/
def Obligations.ObjectCreation : Prop :=
  ∀ (s : State) (id : Nat) (c : Cmd), started s id 0x10 c → tblRising s.objs = true →
    let used := fun (j : Nat) => (tblGet s.objs j {}).live = true ∨ (tblGet s.objs j {}).retired = true ∨ (tblGet s.objs j {}).pendingFree = true
    let ends := fun (t : State) (code : Code) (err detail : Nat) => exec (.objCreate id) s = .next (t.finishCmd id code err detail).settle ∧
      (hSigEn c.desc = false → hNoRecord c.desc = false ∨ code ≠ .ok → c.reserved = true →
        ∃ r ∈ ((t.finishCmd id code err detail).queue c.q).records, r.cmd = id ∧ r.code = code ∧ r.err = err ∧ r.detail = detail)
    (∀ i, i < s.setting 0x5010 1 → ¬ used i → (∀ j, j < i → used j) →
      ∃ t o, t = { s with objs := t.objs, objLive := t.objLive } ∧ tblGet t.objs i {} = o ∧ o.live = true ∧ o.gen = (tblGet s.objs i {}).gen ∧
        o.owner = c.ctx ∧ o.base = bits c.desc 111 64 ∧ o.size = bits c.desc 159 112 ∧ o.shared = c.desc.testBit 160 ∧ o.rd = c.desc.testBit 161 ∧
        o.wr = c.desc.testBit 162 ∧ (∀ j, j ≠ i → tblGet t.objs j {} = tblGet s.objs j {}) ∧ ends t .ok 0 (i + o.gen * 2 ^ 24)) ∧
    ((∀ i, i < s.setting 0x5010 1 → used i) → ends s .resource 0x600C 0)

/-- OBJ_FREE, fence signals and fence waits (R389, R390, R392, R393, R394). -/
def Obligations.FreesAndFences : Prop :=
  (∀ (s : State) (n id d : Nat), let i := bits d 95 64 % 2 ^ 24
    let o := tblGet s.objs i {}
    let p := tblGet (s.freeAccepted n id d).objs i {}
    p.live = false ∧ p.pendingFree = true ∧ p.freeCmd = id ∧ p.gen = (o.gen + 1) % 256 ∧ p.retired = decide (255 ≤ o.gen) ∧
    (s.fclk = true → (s.freeAccepted n id d).count 0x5010 4 = capTo 64 (s.count 0x5010 4 + (if 255 ≤ o.gen then 1 else 0))) ∧
    (∀ j, j ≠ i → tblGet (s.freeAccepted n id d).objs j {} = tblGet s.objs j {})) ∧
  (∀ (s : State) (id : Nat) (c : Cmd), started s id 0x11 c → ∃ t : State, exec (.objFree id) s = .next t ∧ tblFind t.cmds id = some { c with stage := 1 } ∧
    t = { s with cmds := t.cmds }) ∧
  (∀ (s : State) (id i : Nat) (o : Obj) (c : Cmd), busy s → (s.objs.find? fun kv => kv.2.pendingFree && kv.2.freeCmd = id) = some (i, o) → tblFind s.cmds id = some c →
    ((∀ x ∈ o.quiesce, tblFind s.cmds x = none) → c.phase = 1 → exec (.freeQuiescence id) s = .next ((s.endFree i).finishCmd id .ok 0 0).settle ∧
      (tblGet (s.endFree i).objs i {}).pendingFree = false) ∧
    ((∃ x ∈ o.quiesce, tblFind s.cmds x ≠ none) → exec (.freeQuiescence id) s = .next s)) ∧
  (∀ (s : State) (q id : Nat), busy s → s.signalDue q = some id → s.earlierDone id = true → (s.queue q).failedAt = none →
    let dev := (s.cmd id).sigWord
    exec (.fenceSignal q) s = .next (((s.modCmd id fun c => { c with sig := 1 }).access
      { buf := bufQueues, part := (s.cmd id).part, ctx := some (s.cmd id).ctx, dev := dev / 128 * 128, cls := 12, source := srcQueue q, reply := .signal id,
        ret := true, acc := .atomic 4 true (dev % 128) ((s.cmd id).qb + hSigDelta (s.cmd id).desc) }).settle)) ∧
  (∀ (s : State) (q : Nat), busy s → s.signalDue q = none → exec (.fenceSignal q) s = .next s) ∧
  (∀ (s : State) (q id : Nat) (c : Cmd), busy s → (s.queue q).accepted = some id → tblFind s.cmds id = some c → c.waitPassed = false → c.waitBusy = false →
    let reads := .next (((s.modCmd id fun c => { c with waitBusy := true }).access
      { buf := bufQueues, part := c.part, ctx := some c.ctx, dev := c.fenceLine / 128 * 128, acc := .load, cls := 12, source := srcQueue q,
        reply := .fence q, ret := true }).settle)
    (c.watched = true → exec (.fenceReread q) s = reads ∧ exec (.fencePoll q) s = .next s) ∧
    (c.watched = false → exec (.fencePoll q) s = reads ∧ exec (.fenceReread q) s = .next s)) ∧
  (∀ (s : State) (q id : Nat) (c : Cmd) (r : Result), (s.queue q).accepted = some id → tblFind s.cmds id = some c → c.waitPassed = false →
    let v := leNat ((r.data.drop (c.fenceLine % 128)).take 8)
    let c' := (s.fenceRead q r).cmd id
    c'.waitBusy = false ∧
      (r.code = .ok → c'.fail = c.fail ∧ (c'.waitPassed = true ↔ (BitVec.ofNat 64 (c.qb + hWaitDelta c.desc)).toInt ≤ (BitVec.ofNat 64 v).toInt)) ∧
      (r.code ≠ .ok → c'.waitPassed = true ∧ c'.fail = some (r.code, r.err)))

/-- Context records, context resets and partition resets (R369, R370, R371, R397, R479, R480). -/
def Obligations.ContextsAndTheirResets : Prop :=
  (∀ (s : State) (m : Mgmt) (n : Nat) (b : Bytes), granted s m (ctxEntry n).1 (ctxEntry n).2 b → n < s.cfg.contexts → (s.ctx n).state = 0 →
    bits (leNat b) 1 0 = 1 →
    let v := leNat b
    let k := s.partn (bits v 7 2)
    let refused := fun a => exec (.contextCreate m n b) s = .next (turnedAway s m (ctxEntry n).1 (ctxEntry n).2 b a)
    let range := bits v 52 40 ≠ 0 ∧ bits v 52 40 ≤ 4096 ∧ k.qbase ≤ bits v 39 22 ∧ bits v 39 22 + bits v 52 40 ≤ k.qbase + k.qcount ∧ bits v 13 8 ≤ 44 ∧
      ∀ kv ∈ s.ctxs, kv.2.state ≠ 0 → ¬ (kv.2.qbase < bits v 39 22 + bits v 52 40 ∧ bits v 39 22 < kv.2.qbase + kv.2.qcount)
    let room := (k.auMask ≠ 0 → s.scratchHeld (bits v 7 2) + bits v 13 8 ≤ s.setting 0x2120 3) ∧
      (k.mode = 1 → bits v 13 8 = 0 ∨ s.scratchHeld (bits v 7 2) = 0)
    (k.state = 3 → refused 0x0801) ∧ (k.state = 0 → refused 0x0609) ∧ (k.state ≠ 3 → ¬ range → refused 0x0609) ∧
    (k.state ≠ 0 → k.state ≠ 3 → range → ¬ room → refused 0x0802) ∧
    (k.state ≠ 0 → k.state ≠ 3 → range → room → exec (.contextCreate m n b) s = .next (accepted s { s with ctxs := tblPut s.ctxs n { state := 1, part := bits v 7 2, scratch := bits v 13 8, chipDb := bits v 21 14, qbase := bits v 39 22, qcount := bits v 52 40, faultVec := bits v 58 53 } }
      m (ctxEntry n).1 (ctxEntry n).2 b))) ∧
  (∀ (s : State) (m : Mgmt) (n : Nat) (b : Bytes), granted s m (ctxEntry n).1 (ctxEntry n).2 b → n < s.cfg.contexts → (s.ctx n).state ≠ 0 →
    (s.ctx n).destroying = false →
    let v := leNat b
    let c := s.ctx n
    let ok := fun (f : Ctx → Ctx) => Host.Outcome.next (accepted s (s.modCtx n f) m (ctxEntry n).1 (ctxEntry n).2 b)
    let refused := fun a => Host.Outcome.next (turnedAway s m (ctxEntry n).1 (ctxEntry n).2 b a)
    let same := bits v 7 2 = c.part ∧ bits v 13 8 = c.scratch ∧ bits v 39 22 = c.qbase ∧ bits v 52 40 = c.qcount
    ∀ i ∈ [Instr.contextUpdate m n b, .contextCreate m n b, .contextDestroy m n b],
      (bits v 1 0 = 1 → same → exec i s = ok fun c => { c with chipDb := bits v 21 14, faultVec := bits v 58 53 }) ∧
      (bits v 1 0 = 1 → ¬ same → exec i s = refused 0x0801) ∧
      (bits v 1 0 = 2 → c.state = 1 → exec i s = ok fun c => { c with resetDue := true }) ∧
      (bits v 1 0 = 0 → (∃ kv ∈ s.tdis, kv.2.names n = true ∧ (kv.2.state = 1 ∨ kv.2.state = 2)) → exec i s = refused 0x0801) ∧
      (bits v 1 0 = 0 → (∀ kv ∈ s.tdis, kv.2.names n = true → kv.2.state = 0 ∨ kv.2.state = 3) →
        exec i s = ok fun k => { k with destroying := true, resetDue := c.state = 1 }) ∧
      (bits v 1 0 = 3 → exec i s = refused 0x0609)) ∧
  (∀ (s : State) (n : Nat), busy s →
    ((s.ctx n).resetDue = false → exec (.contextReset n) s = .next s) ∧
    ((s.ctx n).resetDue = true → (s.ctx n).state = 1 → ∃ t : State, exec (.contextReset n) s = .next t.settle ∧ (t.ctx n).state = 2 ∧
      (∀ kv ∈ t.cmds, kv.2.ctx = n → kv.1 ∈ (s.ctx n).resetCmds ∨ kv.2.opcode = 0x24 ∧ kv.2.fail.isSome = true) ∧ ∀ j, j ≠ n → (t.ctx j).state = (s.ctx j).state)) ∧
  (∀ (s : State) (n : Nat), busy s →
    let c := s.ctx n
    let mine := fun (q : Nat) => c.qbase ≤ q ∧ q < c.qbase + c.qcount
    (c.state ≠ 2 ∨ s.resetQuiet n = false → exec (.contextResetDone n) s = .next s) ∧
    (c.state = 2 → s.resetQuiet n = true → (s.partn c.part).state ≠ 3 → c.freeing = false → c.resetCmds = [] → (∀ kv ∈ s.queues, kv.2.heldBells = []) →
      (c.destroying = false → ∃ t : State, exec (.contextResetDone n) s = .next t ∧
        t.ctx n = { c with state := 1, resets := sat32 (c.resets + 1), faultsSinceReset := 0, aborted := false } ∧
        (∀ q, mine q → t.queue q = { s.queue q with head := (s.queue q).progress, qb := 0, failedAt := none, state := if (s.queue q).state = 2 ∨ (s.queue q).state = 3 then 0 else (s.queue q).state }) ∧ ∀ q, ¬ mine q → t.queue q = s.queue q) ∧
      (c.destroying = true → ∃ t : State, exec (.contextResetDone n) s = .next t ∧ (∀ q, mine q → (t.queue q).state = 0) ∧
        (∀ i, (tblGet s.objs i {}).owner = n → (tblGet t.objs i {}).live = false) ∧
        ((∀ kv ∈ s.cmds, kv.2.part ≠ c.part) → tblFind s.cmds s.cmdNext = none → (∀ kv ∈ s.objs, kv.2.owner = n → kv.2.pendingFree = false) →
          t.ctx n = {} ∧ ∀ q, mine q → t.queue q = {}) ∧
        ((∃ kv ∈ s.objs, kv.2.owner = n ∧ kv.2.live = true ∧ kv.2.shared = true ∧ ∃ x ∈ s.cmds, x.2.part = c.part ∧ (tblFind s.cmds x.1).isSome = true) →
          t.ctx n = { c with state := 2, resets := sat32 (c.resets + 1), faultsSinceReset := 0, aborted := false, freeing := true })))) ∧
  (∀ (s : State) (n : Nat), busy s → let c := s.ctx n
    c.state = 2 → s.resetQuiet n = true → (s.partn c.part).state ≠ 3 → c.freeing = true → exec (.contextResetDone n) s = .next (s.endDestroy n).tdiSettle ∧
      (s.freesQuiet n = true → ((s.endDestroy n).ctx n) = {}) ∧ (s.freesQuiet n = false → s.endDestroy n = s)) ∧
  (∀ (s : State) (p : Nat), p < s.cfg.partitions → busy s →
    ((s.partn p).resetDue = false → exec (.partitionReset p) s = .next s) ∧
    ((s.partn p).resetDue = true → (s.partn p).state ≠ 0 → ∃ t : State, exec (.partitionReset p) s = .next t.settle ∧ (t.partn p).resetting = true ∧
      ∀ n, (s.ctx n).state = 1 → (s.ctx n).part = p → (t.ctx n).state = 2) ∧
    ((s.partn p).resetting = true → (∀ kv ∈ s.ctxs, kv.2.part = p → kv.2.state = 0 ∨ kv.2.state = 1 ∧ kv.2.resetDue = false) →
      exec (.partitionResetDone p) s = .next (s.modPart p fun k => { k with resetting := false, aborted := false })) ∧
    ((s.partn p).resetting = false ∨ (∃ kv ∈ s.ctxs, kv.2.part = p ∧ kv.2.state = 2) → exec (.partitionResetDone p) s = .next s))

/-- Translation records, table zeroing, map requests and walks (R403, R407, R408, R410, R411, R412, R413, R414). -/
def Obligations.Translation : Prop :=
  (∀ (s : State) (m : Mgmt) (p : Nat) (b : Bytes), granted s m 0x5110 (p + 1) b → p < s.cfg.partitions →
    let v := leNat b
    let g := tblGet (s.port (bits v 2 0)).regions (bits v 15 8) {}
    let free := (∀ kv ∈ s.ctxs, kv.2.part = p → kv.2.state ≠ 1) ∧ (s.transOf p).zeroing = false
    let good := bits v 34 16 ≠ 0 ∧ bits v 34 16 ≤ 2 ^ 18 ∧ g.part = p ∧ g.kind = 3 ∧ (g.state = 2 ∨ g.state = 3) ∧ bits v 34 16 * 2 ^ 12 ≤ g.pages * 2 ^ 14
    (¬ free → exec (.translationRecordWrite m p b) s = .next (turnedAway s m 0x5110 (p + 1) b 0x0801)) ∧
    (free → ¬ good → exec (.translationRecordWrite m p b) s = .next (turnedAway s m 0x5110 (p + 1) b 0x0609)) ∧
    (free → good → ∃ t : State, exec (.translationRecordWrite m p b) s = .next (accepted s t m 0x5110 (p + 1) b).settle ∧
      t.transOf p = { port := bits v 2 0, region := bits v 15 8, dsize := bits v 34 16, zeroing := v.testBit 35, cursor := bn (v.testBit 35), outstanding := bn (v.testBit 35) } ∧
      (∀ kv ∈ t.tlb1, ∀ e ∈ kv.2, e.part ≠ p) ∧ (∀ kv ∈ t.tlb2, ∀ e ∈ kv.2, e.part ≠ p) ∧ (∀ w ∈ t.walks, w.part ≠ p))) ∧
  (∀ (s : State) (p : Nat), calm s → s.fclk = false → exec .mapDone s = .next s ∧ (p < s.cfg.partitions → exec (.tableZeroingDone p) s = .next s)) ∧
  (∀ (s : State) (p : Nat), p < s.cfg.partitions → calm s → s.fclk = true →
    let t := s.transOf p
    (t.zeroing = true → t.outstanding = 0 → 32 * t.dsize ≤ t.cursor →
      exec (.tableZeroingDone p) s = .next (s.modTrans p fun t => { t with zeroing := false, enable := true })) ∧
    (t.zeroing = false ∨ t.outstanding ≠ 0 → exec (.tableZeroingDone p) s = .next s)) ∧
  (∀ (s : State) (m : Mgmt) (b : Bytes), granted s m 0x5120 1 b →
    let r := leNat b
    let t := s.transOf (bits r 5 0)
    let good := (bits r 7 6 = 1 ∧ r.testBit 64 = true ∨ bits r 7 6 = 2) ∧ bits r 42 16 + bits r 15 8 < t.dsize * 512
    ∀ i ∈ [Instr.map m b, .unmap m b],
      (t.enable = false ∨ s.mapJob.status = 1 → exec i s = .next (turnedAway s m 0x5120 1 b 0x0801)) ∧
      (t.enable = true → s.mapJob.status ≠ 1 → ¬ good → exec i s = .next (turnedAway s m 0x5120 1 b 0x0609)) ∧
      (t.enable = true → s.mapJob.status ≠ 1 → good → ∃ u : State, exec i s = .next (accepted s u m 0x5120 1 b).settle ∧
        u.mapJob = { record := mapKept r, status := 1, outstanding := true } ∧ u.trans = s.trans)) ∧
  (∀ s : State, calm s → s.fclk = true →
    (s.mapJob.status = 1 → s.mapJob.waiting = true → s.partInFlight (bits s.mapJob.record 5 0) = false →
      exec .mapDone s = .next { s with mapJob := { s.mapJob with status := 2, waiting := false } }) ∧
    (s.mapJob.status ≠ 1 ∨ s.mapJob.waiting = false ∨ s.partInFlight (bits s.mapJob.record 5 0) = true → exec .mapDone s = .next s)) ∧
  (∀ s : State, busy s →
    let may := fun (w : Walk) => w.issued = false ∧ w.line = none ∧ s.walksOut (fun v => decide (v.buf * 64 + v.part = w.buf * 64 + w.part)) < 32
    ((∃ w ∈ s.walks, may w) → s.walksOut (fun _ => true) < 1024 → ∃ t w, exec .walk s = .next (State.settle t) ∧ w ∈ s.walks ∧ may w ∧
      t.walks = s.walks.map fun v => if v.part = w.part && v.page = w.page
        then { v with issued := true, read := s.clock, line := if (s.tableRegion w.part).isSome then none else some ⟨.access, 0x7006, []⟩ } else v) ∧
    ((∀ w ∈ s.walks, ¬ may w) → exec .walk s = .next s)) ∧
  (∀ (s : State) (p page : Nat), p < s.cfg.partitions → busy s →
    let x := s.walks.find? fun w => w.part = p && w.page = page
    let rest := s.walks.filter fun v => !(v.part = p && v.page = page)
    (x = none → exec (.walkComplete p page) s = .next s) ∧
    (∀ w, x = some w → w.line = none → exec (.walkComplete p page) s = .next s) ∧
    (∀ w r, x = some w → w.line = some r → w.again = true → exec (.walkComplete p page) s = .next { s with walks := s.walks.map fun v =>
      if v.part = p && v.page = page then { v with issued := false, again := false, line := none } else v }) ∧
    (∀ w r, x = some w → w.line = some r → w.again = false → (∀ y ∈ w.waiting, y.part = p ∧ y.dev / 2 ^ 21 = page) →
      (r.code ≠ .ok → exec (.walkComplete p page) s = .next (w.waiting.foldl (fun (u : State) y => u.transFail y r.code 0x7006) { s with walks := rest }).settle) ∧
      (r.code = .ok → ∃ u : State, exec (.walkComplete p page) s = .next (w.waiting.foldl (fun (u : State) y => (u.waitBehind y).getD (u.translated y (leNat ((r.data.drop (8 * page % 128)).take 8)))) u).settle ∧
        u.walks = rest ∧ u.count 0x5100 4 = capTo 64 (s.count 0x5100 4 + 1) ∧
        ((leNat ((r.data.drop (8 * page % 128)).take 8)).testBit 0 = true → ∀ y ∈ w.waiting,
          tlbFind (tblGet u.tlb1 y.buf []) p page = some (leNat ((r.data.drop (8 * page % 128)).take 8))))))

/-- Partitions: creation, resize, removal, guarantees (R417, R418, R419, R420, R421, R424, R425, R428, R430, R433). -/
def Obligations.PartitionLifetime : Prop :=
  (∀ (s : State) (m : Mgmt) (p : Nat) (b : Bytes), s.cfg.legal = true → granted s m 0x5200 (p + 1) b → p < s.cfg.partitions → (s.partn p).state = 0 →
    bits (leNat b) 2 0 = 1 →
    let v := leNat b
    let refused := fun a => exec (.partitionCreate m p b) s = .next (turnedAway s m 0x5200 (p + 1) b a)
    (s.partShape v = true → refused 0x0609) ∧
    (s.partShape v = false → s.bring.member = false ∨ s.life.debug = 4 → refused 0x0801) ∧
    (s.partShape v = false → s.bring.member = true → s.life.debug ≠ 4 → bits v 127 96 < 2 ^ 32 - 1 →
      (bits v 127 96 < (s.slot (partSlot p)).gen ∨ s.partQueues p v = true → refused 0x0609) ∧
      ((s.slot (partSlot p)).gen ≤ bits v 127 96 → s.partQueues p v = false → s.partAus p v = true ∨ s.partStaging p v = true → refused 0x0802) ∧
      ((s.slot (partSlot p)).gen ≤ bits v 127 96 → s.partQueues p v = false → s.partAus p v = false → s.partStaging p v = false →
        (s.slot (partSlot p)).state = 0 → s.usable domainSlot = true → s.fertile domainSlot = true →
        ∃ t : State, exec (.partitionCreate m p b) s = .next (accepted s t m 0x5200 (p + 1) b).settle ∧
          t.partn p = { state := 1, mode := bits v 3 3, qbase := bits v 25 8, qcount := bits v 44 26, auMask := bits v 79 48, staging := bits v 88 80, kgen := bits v 127 96, job := bits v 159 128, stagingHeld := bits v 88 80 } ∧
          (t.slot (partSlot p)).state = 1 ∧ (t.slot (partSlot p)).gen = bits v 127 96 ∧ (∀ i, i < 44 → t.setting (0x5210 + i) (p + 1) = 0x10000) ∧
          ∀ a, a < s.cfg.aus → v.testBit (48 + a) = true → a < 32 → tblGet t.auOwner a 0xFF = p))) ∧
  (∀ (s : State) (m : Mgmt) (p : Nat) (b : Bytes), granted s m 0x5200 (p + 1) b → p < s.cfg.partitions →
    let v := leNat b
    let k := s.partn p
    let refused := fun a => exec (.partitionResize m p b) s = .next (turnedAway s m 0x5200 (p + 1) b a)
    let fixed := bits v 3 3 = k.mode ∧ bits v 25 8 = k.qbase ∧ bits v 127 96 = k.kgen ∧ bits v 159 128 = k.job
    (k.state = 2 → bits v 2 0 = 1 → refused 0x0801) ∧ (k.state = 3 → bits v 2 0 ≤ 3 → refused 0x0801) ∧ (k.state = 0 → bits v 2 0 = 0 → refused 0x0801) ∧
    (k.state = 1 → bits v 2 0 = 1 → ¬ fixed → refused 0x0801) ∧
    (k.state = 1 → bits v 2 0 = 1 → fixed → s.partShape v = true ∨ s.partQueues p v = true → refused 0x0609) ∧
    (k.state = 1 → bits v 2 0 = 1 → fixed → s.partShape v = false → s.partQueues p v = false → s.partAus p v = false → s.partStaging p v = false →
      k.stagingUsed ≤ bits v 88 80 * 2 ^ 16 → bits v 79 48 ≠ 0 →
      (∀ kv ∈ s.ctxs, kv.2.state ≠ 0 → kv.2.part = p → kv.2.qbase + kv.2.qcount ≤ k.qbase + bits v 44 26) →
      ∃ t : State, exec (.partitionResize m p b) s = .next (accepted s t m 0x5200 (p + 1) b).settle ∧ (t.partn p).state = 2 ∧
        (t.partn p).qcount = bits v 44 26 ∧ (t.partn p).auMask = bits v 79 48 ∧ (t.partn p).staging = bits v 88 80 ∧ (t.partn p).kgen = k.kgen)) ∧
  (∀ (s : State) (p : Nat), p < s.cfg.partitions → busy s →
    ((s.partn p).state = 2 → (∀ a ∈ s.leavingAus p, s.auBusy a = false) → ∃ t : State, exec (.resizeComplete p) s = .next t.settle ∧ (t.partn p).state = 1 ∧
      (t.partn p).stagingHeld = (s.partn p).staging ∧ (∀ a, tblFind t.auOwner a = some p → (s.partn p).auMask.testBit a = true) ∧
      (s.leavingAus p = [] → t = { s with parts := t.parts, auOwner := t.auOwner, ctr := t.ctr }) ∧
      (s.leavingAus p ≠ [] → (∀ kv ∈ t.tlb1, ∀ e ∈ kv.2, e.part ≠ p) ∧ (∀ kv ∈ t.tlb2, ∀ e ∈ kv.2, e.part ≠ p) ∧
        ∀ w ∈ t.walks, w.part = p → ∀ x ∈ w.waiting, x.buf ∉ s.leavingAus p)) ∧
    ((s.partn p).state ≠ 2 ∨ (∃ a ∈ s.leavingAus p, s.auBusy a = true) → exec (.resizeComplete p) s = .next s)) ∧
  (∀ (s : State) (m : Mgmt) (p : Nat) (b : Bytes), granted s m 0x5200 (p + 1) b → p < s.cfg.partitions → bits (leNat b) 2 0 = 0 →
    ((s.partn p).state = 1 ∨ (s.partn p).state = 2) → ∃ t : State, exec (.partitionRemove m p b) s = .next (accepted s t m 0x5200 (p + 1) b).settle ∧
      (t.partn p).state = 3 ∧ (t.partn p).revoked = true ∧ ((t.partn p).step = 5 ∨ (t.partn p).step = 8) ∧ (t.slot (partSlot p)).state ≠ 1) ∧
  (∀ (s : State) (p : Nat), p < s.cfg.partitions → busy s →
    ((s.partn p).state = 3 → (s.partn p).step = 8 →
      exec (.removalComplete p) s = .next (({ s with parts := tblDel s.parts p, auOwner := s.auOwner.filter fun kv => kv.2 ≠ p } : State).bump 0x5260 3)) ∧
    ((s.partn p).state = 3 → (s.partn p).step = 5 → s.partQuiet p = true → ∃ t : State, exec (.removalComplete p) s = .next t.settle ∧ (t.partn p).step = 8 ∧
      t.transOf p = {} ∧ t.auOwner = s.auOwner ∧ (t.partn p).stagingHeld = (s.partn p).stagingHeld ∧ ∀ kv ∈ t.tlb2, ∀ e ∈ kv.2, e.part ≠ p) ∧
    ((s.partn p).state ≠ 3 ∨ (s.partn p).step = 5 ∧ s.partQuiet p = false → exec (.removalComplete p) s = .next s)) ∧
  (∀ (s : State) (m : Mgmt) (i p v : Nat), i < 44 → granted s m (0x5210 + i) (p + 1) (leBytes 4 v) →
    let bad := s.hasRegulated i = false ∨ s.cfg.partitions ≤ p ∨ 900 < bits v 15 0 ∨ bits v 23 16 = 0
    let t := s.setSetting (0x5210 + i) (p + 1) (v % 2 ^ 24)
    (bad → exec (.guaranteeWrite m (0x5210 + i) p v) s = .next (turnedAway s m (0x5210 + i) (p + 1) (leBytes 4 v) 0x0609)) ∧
    (¬ bad → 9 * s.capacity i < 10 * t.minSum i → exec (.guaranteeWrite m (0x5210 + i) p v) s = .next (turnedAway s m (0x5210 + i) (p + 1) (leBytes 4 v) 0x0802)) ∧
    (¬ bad → 10 * t.minSum i ≤ 9 * s.capacity i → exec (.guaranteeWrite m (0x5210 + i) p v) s = .next (accepted s t m (0x5210 + i) (p + 1) (leBytes 4 v))))

/-- Attention steps, slices of an AU, the merge of shards, and KV appends (R115, R117, R120, R121, R124, R128, R131, R135, R136). -/
def Obligations.AttentionAndAppends : Prop :=
  (∀ (s : State) (id : Nat) (c : Cmd), working s id 0x21 c → c.stage ≠ 3 →
    let dev := c.objDev 128 (bits c.desc 191 160)
    c.has dev ((4 * aB c.desc + 7) / 8 * 8) = false →
    exec (.attentionStep id) s = .next (s.cmdLoadRange id 12 bufQueues dev ((4 * aB c.desc + 7) / 8 * 8)).settle) ∧
  (∀ (s : State) (au id : Nat) (c : Cmd) (h : Shard), au < s.cfg.aus → working s id 0x21 c → s.auPick au = some id → (s.partn c.part).mode = 1 →
    (c.shards.find? fun x => x.au = au && !x.finished) = some h → h.pages.length ≤ 65536 →
    c.has c.queryRange.1 c.queryRange.2 = true →
    (∀ pg ∈ h.pages, ∀ r ∈ kvRanges (aKv c.desc) (aD c.desc) pg, c.has r.1 r.2 = true) →
    ∃ (t : State) (h' : Shard), exec (.sliceBoundary au) s = .next t ∧ h' ∈ (t.cmd id).shards ∧ h'.au = au ∧ h'.finished = true ∧ h'.pages = [] ∧
      ((∀ x ∈ c.shards.erase h, x.au = au → x.finished = true) → ¬ id ∈ tblGet t.auQueue au []) ∧
      t.count 0x2100 6 = capTo 64 (s.count 0x2100 6 + (h.pages.filter (·.away)).length) ∧ t = { s with cmds := t.cmds, freeCount := t.freeCount, auLastCtx := t.auLastCtx, auQueue := t.auQueue, ctr := t.ctr } ∧
      (c.shards = [h] → exec (.attentionStep id) s = .next t) ∧
      ∀ pg a, h.pages = [pg] → h.soft = [a] → pg.member = 0 → 0 < aG c.desc → h'.soft = [(pageStep (s.freeCount * 65536 * 1024) (aKv c.desc) (aYb4 c.desc)
        (BitVec.ofNat 32 (bits c.desc 287 256)) (c.queryVec 0) (c.kvRows (aKv c.desc) (aD c.desc) pg) a).1]) ∧
  (∀ (s : State) (au : Nat), au < s.cfg.aus → busy s → s.auPick au = none → exec (.sliceBoundary au) s = .next s) ∧
  (∀ (s : State) (id : Nat) (c : Cmd) (h : Shard), working s id 0x21 c → c.stage = 3 → c.shards.find? (fun h => h.finished && !h.merged) = some h →
    (∃ x ∈ c.shards, x ≠ h ∧ ¬ (x.finished = true ∧ x.merged = true)) →
    exec (.shardMerge id) s = .next (s.modCmd id fun c => { c with total := (c.total.zip h.soft).map (fun x => mergeRecord x.1 x.2.m x.2.l (normalise x.2)), shards := c.shards.map fun x => if x = h then { x with merged := true, soft := [] } else x })) ∧
  (∀ (s : State) (id : Nat) (c : Cmd), working s id 0x21 c → c.stage = 3 → aMode c.desc = 0 → s.portBad c.part (aPort c.desc) = false → c.palette.round ≠ 1 →
    (∀ h, c.shards = [h] → h.finished = true → h.merged = false → ∃ t : State, exec (.shardMerge id) s = .next t.settle ∧
      handsOver s t id (aPort c.desc) (bits c.desc 223 192) (h.soft.flatMap (resultRecord c.palette (bits c.desc 343 336)))) ∧
    (c.shards = [] → ∃ t : State, exec (.attentionStep id) s = .next t.settle ∧
      handsOver s t id (aPort c.desc) (bits c.desc 223 192) (c.total.flatMap (resultRecord c.palette (bits c.desc 343 336))))) ∧
  (∀ (s : State) (id : Nat) (c : Cmd), working s id 0x22 c →
    let size := kvPageSize (kFmt c.desc) (kD c.desc)
    let src := c.objDev 64 (bits c.desc 127 96)
    let len := 2 * kCount c.desc * rowBytes (kSrc c.desc) (kD c.desc)
    let ends := fun (code : Code) (err : Nat) => exec (.kvAppend id) s = .next (s.finishCmd id code err c.detail).settle
    (0 < c.writes → exec (.kvAppend id) s = .next s) ∧
    (c.writes = 0 → c.hasPages [(kPage c.desc, size)] = true →
    (s.kvPagePort c (kPage c.desc) size = none → ends .access 0x5102) ∧
    (∀ m, s.kvPagePort c (kPage c.desc) size = some m →
      ((s.ctx c.ctx).scratch = 0 → ends .resource 0x5103) ∧
      ((s.ctx c.ctx).scratch ≠ 0 → c.au = none → s.placeOn c.part m s.auPages = none → ends .resource 0x5104) ∧
      (∀ a, (s.ctx c.ctx).scratch ≠ 0 → ((∃ away, c.au = none ∧ s.placeOn c.part m s.auPages = some (a, away)) ∨ c.au = some a ∧ c.has src len = false) →
        exec (.kvAppend id) s = .next (((s.modCmd id fun c => { c with au := some a }).cmdLoadRange id 0 a src len).settle)) ∧
      (∀ a, (s.ctx c.ctx).scratch ≠ 0 → c.au = some a → c.has src len = true →
        (c.done < kCount c.desc → c.desc.testBit 232 = false → ∃ t : State, exec (.kvAppend id) s = .next t.settle ∧
          (t.cmd id).done = c.done + 1 ∧ (t.cmd id).detail = kFirst c.desc + c.done) ∧
        (c.pendingFrames = 0 → c.acksDue = 0 → kCount c.desc ≤ c.done → ∃ t : State, exec (.kvAppend id) s = .next (t.finishCmd id .ok 0 0).settle ∧
          t.count 0x2100 6 = capTo 64 (s.count 0x2100 6 + (if a / (s.cfg.aus / s.cfg.memPorts) = m then 0 else 1)) ∧
          t = { s with cmds := t.cmds, ctr := t.ctr }))))) ∧
  (∀ (s : State) (id e : Nat) (code : Code) (c : Cmd), busy s → tblFind s.cmds id = some c → c.phase = 1 → c.stage ≠ 99 → c.fail = some (code, e) →
    (c.opcode = 0x21 → exec (.attentionStep id) s = .next (if 0 < c.writes then s else (s.finishCmd id code e c.detail).settle)) ∧
    (c.opcode = 0x22 → exec (.kvAppend id) s = .next (if 0 < c.writes then s else (s.finishCmd id code e c.detail).settle)))

/-- Samples, streams and the lane, reductions, merges and invalidations (R142, R144, R146, R147, R164, R166, R174, R177, R181, R286, R306). -/
def Obligations.SamplingBridgeAndReduction : Prop :=
  (∀ (s : State) (id : Nat) (c : Cmd), working s id 0x23 c → c.stage = 0 → c.writes = 0 →
    let ends := fun (e : Nat) => exec (.sample id) s = .next (s.finishCmd id .access e c.detail).settle
    (s.samplePort c.part c.desc ≠ 0 → ends (s.samplePort c.part c.desc)) ∧
    (s.samplePort c.part c.desc = 0 → c.hasPages [c.logitRange, c.mapRange, c.tokenRange] = true →
      (s.samplePages c = true → exec (.sample id) s = .next
        (({ s with samplerFifo := tblMod s.samplerFifo c.part (queueIn id) [] } : State).modCmd id fun c => { c with stage := 1 })) ∧
      (s.samplePages c = false → ends 0x5203))) ∧
  (∀ (s : State) (n : Nat), n < s.cfg.samplers → busy s → s.samplerHolds n = none →
    (∀ kv ∈ s.samplerFifo, ∀ id, kv.2.head? = some id → (s.cmd id).stage ≠ 1) →
    exec (.samplerDispatch n) s = .next s) ∧
  (∀ (s : State) (n p id : Nat) (rest : List Nat) (c : Cmd), n < s.cfg.samplers → working s id 0x23 c → c.stage = 1 → s.samplerHolds n = none →
    s.samplerFifo = [(p, id :: rest)] → s.samplerFor p = some n → s.samplePort c.part c.desc = 0 → c.has c.logitRange.1 c.logitRange.2 = false →
    ∃ t : State, exec (.samplerDispatch n) s = .next t.settle ∧ tblFind t.samplerCmd n = some id ∧ tblGet t.samplerPart n 0xFF = p ∧
      tblGet t.samplerFifo p [] = rest ∧ (t.cmd id).stage = 2) ∧
  (∀ (s : State) (n id : Nat) (c : Cmd), n < s.cfg.samplers → working s id 0x23 c → s.samplerHolds n = some id → sGreedy c.desc = true → (s.sampler n).out = none → c.writes = 0 →
    let d := c.desc
    let logits := c.logitRange
    let map := c.mapRange
    let scored := (unpack (if sFmt d = 0 then 32 else 16) (sV d) (c.bytes logits.1 logits.2)).zipIdx.map fun x =>
      (scoreStep d (sUse d && (leNat (c.bytes map.1 map.2)).testBit x.2) (logit32 (sFmt d) x.1)).1
    let u := (s.sampler n).ingest scored
    s.samplePort c.part d = 0 → c.has logits.1 logits.2 = true → c.has map.1 map.2 = true →
    ((∀ x ∈ scored, (f32 x).special = true) → ∃ k, exec (.samplerDispatch n) s = .next (((s.bumpBy 0x2200 3 k).modSampler n fun _ => u).finishCmd id .format 0x5202 c.detail).settle) ∧
    ((∃ x ∈ scored, (f32 x).special = false) → sMode d = 1 → sUpdate d = false →
      ∃ t : State, exec (.samplerDispatch n) s = .next t.settle ∧ handsOver s t id (sPort d) (bits d 223 192) (tokenRecord d (chooseToken d 0 u)) ∧
        (t.sampler n).scores = scored ∧ (t.sampler n).bankA = [] ∧ (t.sampler n).ahead = (s.sampler n).ahead)) ∧
  (∀ (s : State) (id : Nat) (c : Cmd), working s id 0x24 c → s.portBad c.part (bPort c.desc) = false →
    let d := c.desc
    let port := bPort d
    let n := bElems d
    let f := bSrc d
    let tgt := bTarget d c.palette
    let all := [(c.objDev 64 (bits d 127 96), rowBytes f (bRows d * n)), (c.objDev 64 (bMeta d), rowMeta f (bRows d * n))]
    (c.stage = 0 → c.hasPages all = true → s.pagesPass c all (s.pieceMay c.part 2 false) = true →
      exec (.bridgeStream id) s = .next ((s.modCmd id fun c => { c with stage := 1 }).streamJoin id port)) ∧
    (c.stage ≠ 0 → id ∈ (s.chip port).streams → (∀ x ∈ (s.chip port).rows, x.cmd ≠ id) →
      (bRows d ≤ c.done → ∃ t : State, exec (.bridgeStream id) s = .next t ∧ (t.cmd id).stage = 99 ∧ (t.cmd id).pendingFrames = c.pendingFrames + 1 ∧
        (t.chip port).rows = (s.chip port).rows ++ [⟨id, c.part, { mtype := 0x19, addr := bits d 287 256 + bRows d % 2 ^ 32 * 2 ^ 32, code := 0 }, true⟩]) ∧
      (c.done < bRows d → (c.palette.round ≠ 1 ∨ tgt = f) → let r := c.streamRow c.done
        c.has r.1.1 r.1.2 = true → c.has r.2.1 r.2.2 = true →
        let x := convertRow f tgt n c.palette.sat none (leBytes (rowBytes f n) ((leNat (c.bytes r.1.1 r.1.2) >>> (c.done * n * (fmtOf f).bits % 8)) % 2 ^ (n * (fmtOf f).bits))) (c.bytes r.2.1 r.2.2)
        let up := fun (b : Bytes) => padTo ((b.length + 15) / 16 * 16) b
        ∃ t : State, exec (.bridgeStream id) s = .next t ∧ (t.cmd id).done = c.done + 1 ∧
          (t.chip port).rows = (s.chip port).rows ++ (deliverMsgs (bits d 287 256)
            (c.done * ((rowMeta tgt n + 15) / 16 * 16 + (rowBytes tgt n + 15) / 16 * 16)) (up x.2.1 ++ up x.1)).map fun m => ⟨id, c.part, m, false⟩))) ∧
  (∀ (s : State) (c : Nat) (x : LaneItem) (rest : List LaneItem), c < s.cfg.chipPorts → busy s → (s.chip c).state = 4 → (s.chip c).standby = 0 →
    (s.chip c).deliveries = x :: rest → ((s.chip c).ran < s.setting 0x2230 1 ∨ (s.chip c).streamTurn = none) →
    ∃ t : State, exec (.bridgeLaneService c) s = .next t ∧ (t.chip c).deliveries = rest ∧ (t.chip c).ran = (s.chip c).ran + 1 ∧ (t.chip c).lastPart = x.part ∧
      (t.chip c).fs = (s.chip c).fs.push 0 (startUnits (chipMsgBytes x.msg)) ∧ (t.chip c).conv = x.msg.body ∧ t = { s with chips := t.chips }) ∧
  (∀ (s : State) (id : Nat) (c : Cmd), working s id 0x25 c → s.early = [] →
    let d := c.desc
    let n := rLocal d
    let k := chunksOf (rElems d)
    let outs := if rMode d = 0 then [(c.objDev 128 (bits d 191 160), rOutBytes d)] else []
    let ins := (List.range n).flatMap fun i => [(c.operandRanges i).1, (c.operandRanges i).2]
    let key := slotKey7 c.part (rSlot d)
    let r := c.operandRanges (c.done / k)
    (c.stage = 0 → c.writes = 0 → c.hasPages (outs ++ ins) = true → s.pagesPass c outs (s.pieceMay c.part 3 true) = true →
      s.pagesPass c ins (s.pieceMay c.part 3 false) = true →
      (rExpect d = 0 → exec (.reduce id) s = .next (s.modCmd id fun c => { c with stage := 1 })) ∧
      (rExpect d ≠ 0 → tblFind s.rslots key ≠ none → exec (.reduce id) s = .next (s.finishCmd id .wrongState 0x5304 c.detail).settle) ∧
      (rExpect d ≠ 0 → tblFind s.rslots key = none → s.rslots.length < 1024 → (s.partn c.part).stagingUsed + 4 * rElems d ≤ (s.partn c.part).staging * 2 ^ 16 →
        exec (.reduce id) s = .next ((({ s.modCmd id (fun c => { c with stage := 1 }) with rslots := tblPut s.rslots key { part := c.part, slot := rSlot d, epoch := rEpoch d, cmd := id, op := rOp d, elems := rElems d, total := n + rExpect d } } : State)).modPart
          c.part fun p => { p with stagingUsed := p.stagingUsed + 4 * rElems d }))) ∧
    (c.stage ≠ 0 → c.done < n * k → c.has r.1.1 r.1.2 = true → c.has r.2.1 r.2.2 = true → s.lanesFor c.part = false → exec (.reduce id) s = .next s) ∧
    (c.stage ≠ 0 → c.done < n * k → rExpect d = 0 → c.has r.1.1 r.1.2 = true → c.has r.2.1 r.2.2 = true → s.lanesFor c.part = true →
      (c.done / k + 1 < n → ∀ old, (c.total = [] ∧ old = List.replicate (rElems d) (laneZero (rOp d)) ∨ ∃ a, c.total = [a] ∧ old = a.o) →
        let at256 := 256 * (c.done % k)
        let len := chunkLen (rElems d) (c.done % k)
        let x := c.operandChunk (c.done / k) (c.done % k)
        let new := (((old.drop at256).take len).zip (decodeRow (rIn d) len x.1 x.2)).map fun v => foldLane (rOp d) v.1 v.2
        exec (.reduce id) s = .next (({ s with lanesTurn := c.part } : State).modCmd id fun y =>
          { y with done := c.done + 1, got := if (c.done + 1) % k = 0 then [] else y.got, total := [⟨0, 0, old.take at256 ++ new ++ old.drop (at256 + len)⟩] })) ∧
      (n = 1 → rMode d = 0 → d.testBit 240 = false → ∃ t : State, exec (.reduce id) s = .next (if c.done + 1 = k then t.cmdIssued id else t).settle ∧
        (t.cmd id).done = c.done + 1 ∧ (t.cmd id).phase = 1 ∧ t.lanesTurn = c.part))) ∧
  (∀ (s : State) (id i : Nat) (c : Cmd), working s id 0x26 c →
    let d := c.desc
    let rs := partialSize (mD d)
    let list := c.objDev 64 (bits d 127 96)
    let bases := (List.range (mSets d)).map fun i => leNat (c.bytes (list + 8 * i) 8)
    let sets := bases.map fun b => (b, mRecs d * rs)
    let outs := if mMode d = 1 then [(c.objDev 128 (bits d 191 160), mRecs d * rs)] else []
    let old := if c.total.isEmpty then List.replicate (mRecs d) (softZero (mD d)) else c.total
    let total := (old.zip ((List.range (mRecs d)).map fun r => partialOf (mD d) (c.bytes (bases.getD i 0 + r * rs) rs))).map fun x => mergeRecord x.1 x.2.m x.2.l x.2.o
    s.early = [] → c.hasPages outs = true → s.pagesPass c outs (s.pieceMay c.part 3 true) = true →
    c.has list (8 * mSets d) = true → (∀ b ∈ bases, b % 128 = 0 ∧ b < 2 ^ 48) → c.hasPages sets = true → s.pagesPass c sets (s.pieceMay c.part 3 false) = true →
    (∃ before after, c.setOrder = before ++ i :: after ∧ (∀ j ∈ before, ∃ h ∈ c.shards, h.au = j) ∧ ∀ h ∈ c.shards, h.au ≠ i) →
    (s.lanesFor c.part = false → exec (.merge id) s = .next s) ∧
    (s.lanesFor c.part = true → c.shards.length + 1 < mSets d → exec (.merge id) s = .next (({ s with lanesTurn := c.part } : State).modCmd id fun c => { c with total := total, shards := c.shards ++ [⟨i, [], true, [], true, true⟩] })) ∧
    (s.lanesFor c.part = true → mSets d ≤ c.shards.length + 1 → ∃ t : State, exec (.merge id) s = .next (t.cmdIssued id).settle ∧ (t.cmd id).total = total)) ∧
  (∀ (s : State) (id : Nat) (c : Cmd), working s id 0x27 c → c.stage = 0 → iTargets c.desc = 0 → c.writes = 0 → c.pendingFrames = 0 → c.acksDue = 0 →
    let d := c.desc
    let hit := fun (a : Nat) => iScope d = 15 ∨ homeOf a = iHome d ∧ a % 2 ^ 48 / 2 ^ (20 + iScope d) = iBase d / 2 ^ iScope d
    ∃ t : State, exec (.invalidateCommand id) s = .next (t.finishCmd id .ok 0 c.detail).settle ∧ t.mem = s.mem ∧
      (d.testBit 205 = true → (∀ kv ∈ t.rcache, kv.2.part = c.part → ¬ hit kv.2.addr) ∧
        ∀ kv ∈ t.comb, kv.2.kind = 0 → hit kv.2.addr → kv.2.closed = true) ∧ (d.testBit 205 = false → t.rcache = s.rcache))

/-- Chiplet ports: modules, attestation, admission, binding, formats (R102, R103, R295, R296, R297, R298, R307, R533). -/
def Obligations.ChipletAdmission : Prop :=
  (∀ (s : State) (c n : Nat), c < s.cfg.chipPorts → s.due = [] →
    let k := min n (s.cfg.chipModules.getD c 0)
    (s.alive = true → (s.chip c).state = 0 → (s.chip c).inReset = false → n ≠ 0 →
      ∃ t : State, exec (.chipletActive c n) s = .next t ∧ (t.chip c).state = 1 ∧ (t.chip c).modules = k) ∧
    (s.alive = false ∨ (s.chip c).state ≠ 0 ∨ (s.chip c).inReset = true ∨ n = 0 → exec (.chipletActive c n) s = .next (s.modChip c fun x => { x with modules := k }))) ∧
  (∀ (s : State) (c : Nat), hasChip s c →
    ((s.chip c).state = 0 → exec (.moduleLeavesActive c) s = .next (s.modChip c fun k => { k with modules := k.modules - 1 })) ∧
    ((s.chip c).state = 4 → 2 ≤ (s.chip c).modules → ∃ t : State, exec (.moduleLeavesActive c) s = .next t.settle ∧ portEnds s t c 6 ∧ (t.chip c).lastErr = 0x300D) ∧
    ((s.chip c).state = 4 → (s.chip c).modules ≤ 1 → ∃ t : State, exec (.moduleLeavesActive c) s = .next t.settle ∧ portEnds s t c 0) ∧
    ((s.chip c).state ≠ 0 → (s.chip c).state ≠ 4 → (s.chip c).state ≠ 6 → ∃ t : State, exec (.moduleLeavesActive c) s = .next t.settle ∧ portEnds s t c 0)) ∧
  (∀ (s : State) (c : Nat), hasChip s c →
    let fresh := (s.chip c).state = 4 ∧ (s.chip c).withhold = true ∧ (s.chip c).session.stage = 0
    (s.bring.gate = true → s.fw.fw = 0 → (s.chip c).state = 1 ∨ fresh → ∃ t : State, exec (.chipletAdmissionStart c) s = .next t ∧
      (t.chip c).state = (if (s.chip c).state = 1 then 2 else 4) ∧
      (t.chip c).boundRunning = true ∧ (t.chip c).session = { requester := true } ∧ t.out = s.out ++ [.spdmRequest (.chip c) 0x84 [0x13#8, 0x12#8]]) ∧
    (s.bring.gate = false ∨ s.fw.fw ≠ 0 ∨ (s.chip c).state ≠ 1 ∧ ¬ fresh → exec (.chipletAdmissionStart c) s = .next s)) ∧
  (∀ (s : State) (c : Nat) (b : Bytes), serves s (.chip c) →
    let u := heardOf s (.chip c)
    (s.life.state = .blank ∨ s.life.state = .endOfLife → exec (.admission c b) s = .next (u.spdmError (.chip c) errUnexpected)) ∧
    (s.life.state ≠ .blank → s.life.state ≠ .endOfLife → s.fw.fw = 1 → (s.chip c).session.stage ≠ 4 →
      exec (.admission c b) s = .next ((u.bump 0x4100 6).spdmError (.chip c) errBusy))) ∧
  (∀ (s : State) (c : Nat) (b : Bytes), servesAll s (.chip c) →
    let v := leNat b
    let up := (s.chip c).state = 2 ∧ (s.chip c).session.stage = 5
    let good := b.length = 16 ∧ bits v 43 40 ≠ 0 ∧ bits v 43 40 ≤ s.cfg.chipModules.getD c 0 ∧ bits v 43 40 ≤ (s.chip c).modules ∧ 256 ≤ bits v 63 48
    let p := s.evalPalette c { pref := bits v 23 16, result := bits v 31 24, round := bits v 33 32, sat := v.testBit 34, accept := bits v 15 0 }
    (¬ up → exec (.admission c b) s = .next ((heardOf s (.chip c)).spdmError (.chip c) errUnexpected)) ∧
    (up → ¬ good → ∃ t : State, exec (.admission c b) s = .next t.settle ∧ portEnds s t c 5 ∧ (t.chip c).lastErr = 0x3003 ∧ (t.chip c).holdoff = true ∧ (t.chip c).bound = none) ∧
    (up → good → (s.chip c).bound = none → ∃ t : State, exec (.admission c b) s = .next t ∧ (t.chip c).state = 3 ∧ (t.chip c).boundRunning = false ∧
      (t.chip c).cfgCredits = (s.chip c).cfgCredits + 1 ∧ (t.chip c).used = bits v 43 40 ∧ (t.chip c).credits = bits v 63 48 ∧ (t.chip c).palette = p ∧
      t.out = s.out ++ [.spdm (.chip c) 0x7E (vendorHeader ++ leBytes 8 (paletteWord p) ++ leBytes 2 14336 ++ leBytes 2 8192 ++ leBytes 4 0)])) ∧
  (∀ (s : State) (c : Nat), hasChip s c →
    ((s.chip c).boundRunning = true → ∃ t : State, exec (.admissionBoundExpiry c) s = .next t.settle ∧ portEnds s t c 5 ∧ (t.chip c).lastErr = 0x3003 ∧ (t.chip c).holdoff = true) ∧
    ((s.chip c).boundRunning = false → exec (.admissionBoundExpiry c) s = .next s) ∧
    ((s.chip c).state = 5 → ∃ t : State, exec (.refusalHoldoffExpiry c) s = .next t ∧ (t.chip c).state = 1 ∧ (t.chip c).holdoff = false) ∧
    ((s.chip c).state ≠ 5 → exec (.refusalHoldoffExpiry c) s = .next s)) ∧
  (∀ (s : State) (m : Mgmt) (c p : Nat), c < s.cfg.chipPorts → granted s m 0x3301 (c + 1) (leBytes 1 p) →
    let refused := fun a => exec (.partitionBind m c p) s = .next (turnedAway s m 0x3301 (c + 1) (leBytes 1 p) a)
    (s.cfg.partitions ≤ p → p ≠ 0xFF → refused 0x0609) ∧
    (p < s.cfg.partitions ∨ p = 0xFF → (s.chip c).state = 4 → refused 0x0801) ∧
    (p = 0xFF → (s.chip c).state ≠ 4 → exec (.partitionBind m c p) s = .next (accepted s (s.modChip c fun k => { k with bound := none }) m 0x3301 (c + 1) (leBytes 1 p))) ∧
    (p < s.cfg.partitions → p ≠ 0xFF → (s.chip c).state ≠ 4 → (s.chip c).state ≠ 3 →
      exec (.partitionBind m c p) s = .next (accepted s (s.modChip c fun k => { k with bound := some p }) m 0x3301 (c + 1) (leBytes 1 p))) ∧
    (p < s.cfg.partitions → (s.chip c).state = 3 → (s.partn p).live = true → s.freeLeaf = none →
      exec (.partitionBind m c p) s = .next (accepted s ((s.modChip c fun k => { k with bound := some p }).error 8 0 (some p) 0x8003 0) m 0x3301 (c + 1) (leBytes 1 p))) ∧
    (∀ i, s.cfg.legal = true → p < s.cfg.partitions → (s.chip c).state = 3 → (s.partn p).live = true → s.freeLeaf = some i → (s.slot i).state = 0 → s.usable (partSlot p) = true → s.fertile (partSlot p) = true →
      s.drawMaster 8 ≠ none → ∃ t : State, exec (.partitionBind m c p) s = .next (accepted s t m 0x3301 (c + 1) (leBytes 1 p)) ∧ (t.chip c).state = 4 ∧
        (t.chip c).bound = some p ∧ (t.chip c).slot = some i ∧ (t.chip c).fs = {} ∧ (t.slot i).state = 1 ∧ (t.slot i).kind = 3 ∧ (t.slot i).parent = p ∧
        t.out = s.out ++ [.spdm (.chip c) 0x7E (vendorHeader ++ leBytes 8 (paletteWord (s.chip c).palette) ++ leBytes 2 14336 ++ leBytes 2 8192 ++ leBytes 4 p)])) ∧
  (∀ (s : State) (m : Mgmt) (i j v : Nat), (i = 0x2020 ∨ i = 0x2030) → granted s m i j (leBytes (if i = 0x2020 then 2 else 1) v) →
    let b := leBytes (if i = 0x2020 then 2 else 1) v
    let bad := i = 0x2020 ∧ s.cfg.chipPorts < j ∨ i = 0x2030 ∧ 2 ≤ v
    (bad → exec (.formatPermitWrite m i j v) s = .next (turnedAway s m i j b 0x0609)) ∧
    (¬ bad → ∃ t : State, exec (.formatPermitWrite m i j v) s = .next (accepted s t m i j b) ∧ t.setting i j = v % 2 ^ 16 ∧
      (∀ c, (s.chip c).palette.state ≠ 0 → (t.chip c).palette = t.evalPalette c (s.chip c).palette) ∧ t = { s with settings := t.settings, chips := t.chips }))

/-- Frames of a chiplet port, and standby (R69, R255, R256, R299, R301, R302, R303). -/
def Obligations.ChipletFramesAndStandby : Prop :=
  (∀ (s : State) (c : Nat) (b : Bytes), hasChip s c → s.sealing = false → exec (.chipletFrame c b) s = .next s.beginExit ∧
    exec (.chipletFrameTransmit c) s = .next (if (s.chip c).state = 4 ∧ (s.chip c).hasWork = true then s.beginExit else s)) ∧
  (∀ (s : State) (c : Nat) (b : Bytes), hasChip s c → (s.chip c).state ≠ 4 → (s.sealing = true → exec (.chipletFrame c b) s = .next (if (s.chip c).state = 1 then s.modChip c fun k => { k with discarded := k.discarded + 1 } else s)) ∧
    exec (.chipletFrameTransmit c) s = .next s ∧ exec (.keepalive (.chip c)) s = .next s ∧ exec (.chipletWakeFrame c) s = .next s) ∧
  (∀ (s : State) (c : Nat) (b : Bytes), hasChip s c → s.sealing = true → (s.chip c).state = 4 → s.alarms.point ≠ 6 → s.alarms.point ≠ 0x13 →
    (s.chip c).fs.hunting = false → (s.chip c).fs.refusals < 7 → (s.chip c).standby ≠ 2 →
    let h := leNat (b.take 16)
    let w := padTo (256 * (bits h 4 2 + 1)) b
    let seq := bits h 103 40
    let data := bits h 1 0 = 1 ∨ bits h 1 0 = 2
    let refused := fun (x : Host.Outcome State Fault Refusal) (e : Nat) => ∃ t : State, x = .next t ∧ (t.chip c).fs = (s.chip c).fs.refuse ∧
      (t.chip c).rx = (s.chip c).rx ∧ (t.chip c).lastErr = e ∧ (t.chip c).state = 4
    (hcrcOk w = false → hcrcOk b = false ∨ bits h 1 0 ≠ 3 → refused (exec (.chipletFrame c b) s) 0x3004) ∧
    (hcrcOk b = true → bits h 1 0 = 3 → exec (.chipletFrame c b) s = .next s) ∧
    (hcrcOk w = true → data → s.chipRxGen (s.chip c) (bits h 15 8) (h.testBit 5) = none → ∃ t : State, exec (.chipletFrame c b) s = .next t ∧
      (t.chip c).fs = (s.chip c).fs ∧ (t.chip c).rx = (s.chip c).rx ∧ (t.chip c).lastErr = 0x3008) ∧
    (∀ g, hcrcOk w = true → data → s.chipRxGen (s.chip c) (bits h 15 8) (h.testBit 5) = some g →
      ((s.chip c).fs.rxSeq < seq → refused (exec (.chipletFrame c b) s) 0x3006) ∧
      (seq < (s.chip c).fs.rxSeq → ∃ t : State, exec (.chipletFrame c b) s = .next t ∧ (t.chip c).fs = (s.chip c).fs ∧ (t.chip c).rx = (s.chip c).rx ∧ (t.chip c).lastErr = 0x3007) ∧
      ∀ (ks : Bytes × Bytes) (u : State), seq = (s.chip c).fs.rxSeq → s.chipKey c g false = .ok (ks, u) →
        (openFrame ks.1 ks.2 seq w = none → refused (exec (.chipletFrame c b) s) 0x3005) ∧
        (∀ text, openFrame ks.1 ks.2 seq w = some text → exec (.chipletFrame c b) s = .next (u.chipAccept c h g text).settle ∧
          (bits h 1 0 = 2 → ∃ t : State, exec (.chipletFrame c b) s = .next t ∧ (t.chip c).fs.rxSeq = seq + 1 ∧ (t.chip c).rx = (s.chip c).rx ∧
            (t.chip c).fs.acked = ackUpTo 12 (s.chip c).fs.acked (s.chip c).fs.txSeq (bits h 35 24))))) ∧
  (∀ (s : State) (c : Nat) (b : Bytes), hasChip s c → s.sealing = true → (s.chip c).state = 4 → (s.chip c).standby = 2 →
    (b ≠ chipWakeBeat → exec (.chipletFrame c b) s = .next s) ∧ exec (.chipletFrame c chipWakeBeat) s = exec (.chipletWakeFrame c) s) ∧
  (∀ (s : State) (c : Nat) (ks : Bytes × Bytes), hasChip s c → canIdle s c ks →
    ((s.chip c).standby = 0 → ∃ t : State, exec (.chipletFrameTransmit c) s = .next t ∧ exec (.keepalive (.chip c)) s = .next t ∧ idleOut s t c ks) ∧
    ((s.chip c).standby = 2 → s.power.state = 0 → s.power.exiting = none → ∃ t : State, exec (.chipletWakeFrame c) s = .next t ∧ idleOut s t c ks ∧ (t.chip c).standby = 3)) ∧
  (∀ (s : State) (c : Nat) (x : ChipMsg) (rest : List ChipMsg), hasChip s c → (s.chip c).state = 4 → (s.chip c).standby = 1 → (s.chip c).rx = x :: rest →
    x.mtype = 0x07 → ∃ t : State, exec (.standbyAck c) s = .next t ∧ (t.chip c).standby = 2 ∧ (t.chip c).rx = rest ∧ t = { s with chips := t.chips, power := t.power, records := t.records, ctr := t.ctr }) ∧
  (∀ (s : State) (c : Nat), hasChip s c →
    ((s.chip c).standby ≠ 1 → exec (.standbyAck c) s = .next s ∧ exec (.standbyAckTimeout c) s = .next s) ∧
    ((s.chip c).standby = 1 → exec (.standbyAckTimeout c) s =
      .next (({ s with power := { s.power with entering := none } } : State).modChip c fun k => { k with standby := 0, retryDue := true })) ∧
    ((s.chip c).retryDue = true → (s.chip c).state = 4 → (s.chip c).standby = 0 → ∃ t : State, exec (.standbyRetry c) s = .next t ∧ (t.chip c).standby = 1 ∧
      (t.chip c).retryDue = false ∧ (t.chip c).fs = (s.chip c).fs.push 0 (startUnits (chipMsgBytes { mtype := 0x1A }))) ∧
    ((s.chip c).retryDue = false → exec (.standbyRetry c) s = .next s) ∧
    ((s.chip c).state = 4 → (s.chip c).standby = 2 → s.power.state ≠ 0 → exec (.chipletWakeFrame c) s = .next s.beginExit) ∧
    ((s.chip c).state = 4 → (s.chip c).standby = 3 → ∃ t : State, exec (.chipletWakeTimeout c) s = .next t.settle ∧ portEnds s t c 6 ∧ (t.chip c).lastErr = 0x300F) ∧
    ((s.chip c).standby ≠ 3 → exec (.chipletWakeTimeout c) s = .next s))

/-- IDE keys and streams of a host session, and the configuration window (R48, R309, R310, R311, R314). -/
def Obligations.HostSessionsAndStreams : Prop :=
  (∀ (s : State) (h i : Nat), hasHost s h →
    let k := s.hslot i
    (s.slotUp h i = false → ∀ x y z rx key, exec (.keyProg h i x y z rx key) s = .next s ∧ exec (.kSetGo h i x y) s = .next s ∧
      exec (.kSetStop h i x) s = .next s ∧ exec (.query h i) s = .next s) ∧
    (s.slotUp h i = true → exec (.query h i) s = .next (s.emit (.ideKm h i kmQueryResp (Config.standardBody 0x100 [leBytes 1 h])))) ∧
    (∀ stream sub set rx key, s.slotUp h i = true →
      let good := s.boundLeaf k = true ∧ sub < 3 ∧ set < 2 ∧ stream < 256 ∧ (k.stream = none ∨ k.stream = some stream) ∧ key.length = 32 ∧
        ∀ kv ∈ s.slots, kv.1 ≠ i → kv.2.held = true → kv.2.port = h → kv.2.stream ≠ some stream
      let serves := s.usable k.leaf = true ∧ (s.slot k.leaf).use.testBit 5 = true
      (good → serves → ∃ t : State, exec (.keyProg h i stream sub set rx key) s = .next ((t.modSlot i fun k => { k with stream := some stream, cells := tblPut k.cells (ideCell sub rx set) (s.masked key) }).emit (.ideKm h i kmKeyAck [0#8])) ∧
        t = { s with keys := { s.keys with caches := t.keys.caches } }) ∧
      (good → ¬ serves → exec (.keyProg h i stream sub set rx key) s = .next ((s.refuseUse (if s.usable k.leaf then 0x8002 else 0x8001)).emit (.ideKm h i kmKeyAck [3#8]))) ∧
      (¬ good → exec (.keyProg h i stream sub set rx key) s = .next (s.emit (.ideKm h i kmKeyAck [3#8])))) ∧
    (∀ stream set, s.slotUp h i = true → k.stream = some stream →
      let whole := ∀ sub rx, sub < 3 → tblFind k.cells (ideCell sub rx set) ≠ none
      (whole → exec (.kSetGo h i stream set) s = .next ((s.modSlot i fun k => { k with activeSet := some set, secure := true, txCount := [], rxCount := [] }).emit (.ideKm h i kmGoStopAck []))) ∧
      (¬ whole → exec (.kSetGo h i stream set) s = .next s) ∧
      let run := (s.tdisOf i).any fun j => (s.tdi j).state = 2
      ∃ t : State, exec (.kSetStop h i stream) s = .next t ∧
        t.hslot i = { k with secure := false, activeSet := none, cells := [], keyGen := if run then none else k.keyGen, binding := if run then [] else k.binding } ∧
        t.out = s.out ++ [.ideKm h i kmGoStopAck []] ∧
        ∀ j, ((s.tdi j).state = 1 ∨ (s.tdi j).state = 2) → (s.tdi j).slot = i → (t.tdi j).state = 3)) ∧
  (∀ (s : State) (h fn a d be : Nat), hasHost s h →
    let inside := 0x200 ≤ a ∧ a < 0x300 ∧ fn ≤ 256
    let old := tblGet (s.host h).cfg (fn * 1024 + a) 0
    let special := fn = 0 ∧ (doeControl ≤ a ∧ a ≤ doeReadMailbox ∨ a = ideCap ∨ a = ideCap + 1 ∨ ∃ b, b < ideBlocks ∧ (a = ideBlock b ∨ a = ideBlock b + 2))
    let did := fun (u : State) => Host.Outcome.next (φ := Fault) (ρ := Refusal) (u.emit (.cfgDone h none))
    let v := enableBytes 4 be 0 d % 2 ^ 32
    (inside → ¬ special → exec (.hpCfgAccess h fn a false d be) s = .next (s.emit (.cfgDone h (some old))) ∧
      exec (.hpCfgAccess h fn a true d be) s = did (s.modHost h fun p => { p with cfg := tblSet p.cfg (fn * 1024 + a) (enableBytes 4 be old d % 2 ^ 32) 0 })) ∧
    exec (.hpCfgAccess h 0 doeWrite true d be) s = did (s.modHost h fun p => { p with doeIn := p.doeIn ++ [v] }) ∧
    (v.testBit 0 = true → exec (.hpCfgAccess h 0 doeControl true d be) s = did (s.modHost h fun p => { p with doeIn := [], doeObject := [], doeAt := none, doeRead := 0 })) ∧
    (v.testBit 0 = false → v.testBit 31 = true → (s.host h).doeIn ≠ [] →
      exec (.hpCfgAccess h 0 doeControl true d be) s = did (s.modHost h fun p => { p with doeIn := [], doeObject := p.doeIn, doeAt := some s.out.length, doeRead := 0 })) ∧
    (∀ b, b < ideBlocks → let c := s.ideControl h b
      exec (.hpCfgAccess h 0 (ideBlock b + 2) true d be) s = did s ∧ exec (.hpCfgAccess h 0 (ideBlock b + 2) false d be) s =
        .next (s.emit (.cfgDone h (some (if c.testBit 0 = true ∧ s.streamSlot h (bits c 31 24) ≠ none then 2 else 0))))) ∧
    exec (.hpCfgAccess h 0 doeReadMailbox false d be) s = .next (s.emit (.cfgDone h (some ((s.doeWords h).headD 0)))) ∧
    exec (.hpCfgAccess h 0 doeReadMailbox true d be) s = did (s.modHost h fun p => { p with doeRead := p.doeRead + bn (!(s.doeWords h).isEmpty) }) ∧
    (¬ inside → ∀ w, exec (.hpCfgAccess h fn a w d be) s = .next s))

/-- TDISP, TDI records, host TLPs and DMA completions (R72, R292, R308, R312, R313, R314, R319). -/
def Obligations.TdisAndHostTlps : Prop :=
  (∀ (s : State) (h i n : Nat), hasHost s h → mine s h i n →
    let k := tdiKey h n
    let t := s.tdi k
    let lockable := 1 ≤ t.ctxCount ∧ (s.hslot i).secure = true ∧ ∀ c, t.ctxBase ≤ c → c < t.ctxBase + t.ctxCount →
      (s.ctx c).state ≠ 0 ∧ (s.ctx c).part = t.part ∧ ∀ kv ∈ s.tdis, kv.1 ≠ k → kv.2.state ≠ 0 → kv.2.names c = false
    (t.state = 0 → t.stopping = false → lockable → exec (.lockInterface h i n) s =
      .next ((s.modTdi k fun t => { t with state := 1, slot := i, stream := (s.hslot i).stream.getD 0 }).emit (.tdisp h i 0x02 (Config.standardBody 0x202 [leBytes 4 (n + 1)])))) ∧
    (t.state = 0 → t.stopping = false → ¬ lockable → tdispRefused s (exec (.lockInterface h i n) s) h i tdispBadConfig 0x400A) ∧
    (t.state = 1 → t.stopping = false → exec (.startInterface h i n) s =
      .next ((s.modTdi k fun t => { t with state := 2 }).emit (.tdisp h i 0x06 (Config.standardBody 0x206 [leBytes 4 (n + 1)])))) ∧
    (t.state = 1 ∨ t.state = 2 → t.stopping = false → exec (.getDeviceInterfaceReport h i n) s =
      .next (s.emit (.tdisp h i 0x04 (Config.standardBody 0x204 (s.reportParts t))))) ∧
    (t.state = 1 ∨ t.state = 2 ∨ t.state = 3 → t.stopping = false → tblRising s.tdis = true →
      ∃ u : State, exec (.stopInterface h i n) s = .next u ∧
        ((∀ kv ∈ s.ctxs, t.names kv.1 = true → kv.2.state ≠ 1 ∧ kv.2.state ≠ 2) → (u.tdi k).state = 0 ∧ (u.tdi k).slot = 0) ∧
        ((∃ kv ∈ s.ctxs, t.names kv.1 = true ∧ (kv.2.state = 1 ∨ kv.2.state = 2)) → (u.tdi k).state = t.state ∧ (u.tdi k).stopping = true) ∧
        (t.state = 2 → (u.hslot i).secure = false ∧ (u.hslot i).cells = [] ∧
          ((s.hslot i).leaf < 65536 → (s.slot (s.hslot i).leaf).state = 1 → (s.hslot i).keyGen = some (s.slot (s.hslot i).leaf).gen → (u.slot (s.hslot i).leaf).state = 3)) ∧
        ∀ c, t.names c = true → (s.ctx c).state = 1 → (u.ctx c).resetDue = true) ∧
    (exec (.getDeviceInterfaceState h i n) s = .next (s.emit (.tdisp h i 0x05 (leBytes 1 t.state)))) ∧
    (exec (.getTdispVersion h i n) s = .next (s.emit (.tdisp h i 0x01 (Config.standardBody 0x201 [leBytes 1 0x10])))) ∧
    (exec (.getTdispCapabilities h i n) s = .next (s.emit (.tdisp h i 0x03 (Config.standardBody 0x203 [leBytes 1 0x10])))) ∧
    (t.state ≠ 0 ∨ t.stopping = true → tdispRefused s (exec (.lockInterface h i n) s) h i tdispBadState 0x4004) ∧
    (t.state ≠ 1 ∨ t.stopping = true → tdispRefused s (exec (.startInterface h i n) s) h i tdispBadState 0x4004) ∧
    (t.state = 0 ∨ t.stopping = true → tdispRefused s (exec (.stopInterface h i n) s) h i tdispBadState 0x4004)) ∧
  (∀ (s : State) (h i n : Nat), hasHost s h → n < 256 → ¬ mine s h i n →
    ∀ c ∈ [Instr.lockInterface h i n, .startInterface h i n, .stopInterface h i n, .getDeviceInterfaceReport h i n, .getDeviceInterfaceState h i n],
      tdispRefused s (exec c s) h i tdispBadRequest 0x4009) ∧
  (∀ (s : State) (m : Mgmt) (i j : Nat) (b : Bytes), granted s m i j b → 0x3330 ≤ i → i ≤ 0x3337 → (i - 0x3330) / 2 < s.cfg.hostPorts →
    let v := leNat b
    let k := tdiKey ((i - 0x3330) / 2) (128 * ((i - 0x3330) % 2) + j - 1)
    let good := bits v 44 38 ≤ 64 ∧ bits v 37 24 + bits v 44 38 ≤ s.cfg.contexts ∧ bits v 21 16 < s.cfg.partitions
    ((s.tdi k).state ≠ 0 → exec (.tdiRecordWrite m i j b) s = .next (turnedAway s m i j b 0x0801)) ∧
    ((s.tdi k).state = 0 → ¬ good → exec (.tdiRecordWrite m i j b) s = .next (turnedAway s m i j b 0x0609)) ∧
    ((s.tdi k).state = 0 → good → exec (.tdiRecordWrite m i j b) s =
      .next (accepted s (s.modTdi k fun t => { t with part := bits v 21 16, ctxBase := bits v 37 24, ctxCount := bits v 44 38 }) m i j b))) ∧
  (∀ (s : State) (h : Nat) (t : Tlp), s.cfg.legal = true → hasHost s h →
    let run := 1 ≤ t.fn ∧ t.fn ≤ 256 ∧ (s.tdi (tdiKey h (t.fn - 1))).state = 2
    let own := t.stream = some (s.tdi (tdiKey h (t.fn - 1))).stream ∧ t.tbit = true
    let sub := if t.posted then subPr else subNpr
    (t.malformed = true → exec (.hostTlp h t) s = .next (s.hostError h none 0x4006 t.addr)) ∧
    (∀ x i k key, t.malformed = false → t.stream = some x →
      (s.slots.find? fun kv => kv.2.held && kv.2.port = h && kv.2.stream = some x) = some (i, k) → s.hslot i = k → k.secure = true → s.ideKey k sub true = some key →
      ideMac key (tblGet k.rxCount sub 0) (ideHeader (bn t.write) t.fn t.addr t.be t.tag x t.data.length t.tbit) t.data ≠ t.mac →
      ∃ w, exec (.hostTlp h t) s = .next w ∧ (w.hslot i).secure = false ∧ (w.hslot i).cells = [] ∧ w.count 0x6206 2 = capTo 64 (s.count 0x6206 2 + 1) ∧
        (run → (w.tdi (tdiKey h (t.fn - 1))).state = 3 ∧ w.count 0x3340 (h + 1) = capTo 64 (s.count 0x3340 (h + 1) + 1)) ∧ ∀ j, ((s.tdi j).state = 1 ∨ (s.tdi j).state = 2) → (s.tdi j).slot = i → (w.tdi j).state = 3) ∧
    (∀ x, t.malformed = false → t.stream = some x → s.streamSlot h x = none → ¬ run →
      exec (.hostTlp h t) s = .next (if t.posted then s else s.emit (.tlpCompletion h t.tag 1 [] none []))) ∧
    (∀ text u, t.malformed = false → (t.stream = none → text = t.data ∧ u = s) → (∀ x, t.stream = some x → s.ideCheck h t = (.passed text, u)) →
      (run → ¬ own → ∃ w, exec (.hostTlp h t) s = .next w ∧ (w.tdi (tdiKey h (t.fn - 1))).state = 3 ∧ w.queues = s.queues ∧
        w.count 0x3340 (h + 1) = capTo 64 (s.count 0x3340 (h + 1) + 1)) ∧
      ∀ q, (run → own) → t.addr = 8 * q → q < 2 ^ 18 → t.be = 0xFF →
        (∀ n, t.write = true → leNat text < 2 ^ 64 → q < s.cfg.queues → s.ownerOf q = some n → s.reaches h t.fn n = true →
          exec (.hostTlp h t) s = .next (u.doorbell (.host h t.fn) q 0xFF (leNat text)).settle) ∧
        (∀ n, t.write = false → q < s.cfg.queues → s.ownerOf q = some n → s.reaches h t.fn n = true →
          exec (.hostTlp h t) s = .next (u.sendCompletion h t 0 (leBytes 8 ((s.queue q).tail + (s.queue q).chead * 2 ^ 32)))) ∧
        (s.cfg.queues ≤ q ∨ (∀ n, s.ownerOf q = some n → s.reaches h t.fn n = false) → ∃ w, exec (.hostTlp h t) s = .next w ∧
          (t.stream = none → w.out = s.out ++ (if t.write then [] else [.tlpCompletion h t.tag 0 (List.replicate 8 0xFF#8) none []])) ∧ w.queues = s.queues ∧
          (w.host h).lastErr = 0x4003 ∧ w.count 0x3340 (h + 1) = capTo 64 (s.count 0x3340 (h + 1) + 1)))) ∧
  (∀ (s : State) (h : Nat) (c : Instr), h < s.cfg.hostPorts → calm s → s.fclk = false →
    (∃ tag code data, c = .hostDmaCompletion h tag code data) ∨ s.faults.phase = 0 ∧ (∃ t, c = .hostTlp h t) → exec c s = .next s.beginExit) ∧
  (∀ (s : State) (h tag code : Nat) (data : Bytes), h < s.cfg.hostPorts → calm s → inS0 s →
    let body := data.take (data.length - 12)
    let mac := data.drop (data.length - 12)
    let ones := List.replicate 128 0xFF#8
    (tblFind (s.host h).dma tag = none → exec (.hostDmaCompletion h tag code data) s = .next s) ∧
    (∀ d, tblFind (s.host h).dma tag = some d → (s.host h).dmaWaiting = [] → d.lost = true →
      ∃ w e, exec (.hostDmaCompletion h tag code data) s = .next (State.settle (State.reply w d.reply .timeout e ones)) ∧ tblFind (w.host h).dma tag = none) ∧
    (∀ d, tblFind (s.host h).dma tag = some d → (s.host h).dmaWaiting = [] → d.lost = false →
      let s1 := (s.modHost h fun p => { p with dma := tblDel p.dma tag }).touch 7 h
      (s.tdiOf d.ctx = none → exec (.hostDmaCompletion h tag code data) s = .next (s1.reply d.reply .access 0x4008 ones).settle) ∧
      ∀ k t, s.tdiOf d.ctx = some (k, t) →
        let checked := s1.ideOpen h t.stream subCpl (ideHeader 2 (k % 256 + 1) 0 code tag t.stream body.length true) body mac
        (t.state ≠ 2 ∨ checked.1 = .unknown → exec (.hostDmaCompletion h tag code data) s = .next (s1.reply d.reply .access 0x4008 ones).settle) ∧
        (t.state = 2 → checked.1 = .failed → ∃ w, exec (.hostDmaCompletion h tag code data) s = .next (State.settle w) ∧ w.count 0x6206 2 = capTo 64 (s.count 0x6206 2 + 1) ∧
          w.due = if d.reply = .none then [] else [(d.reply, ⟨.integrity, 0x4001, ones⟩)]) ∧
        (∀ text, t.state = 2 → checked.1 = .passed text →
          (codeOf code = .ok → exec (.hostDmaCompletion h tag code data) s = .next (checked.2.reply d.reply .ok 0 (padTo 128 text)).settle) ∧
          (codeOf code ≠ .ok → ∃ w e, exec (.hostDmaCompletion h tag code data) s = .next (State.settle (State.reply w d.reply (codeOf code) e ones)) ∧
            tblFind (w.host h).dma tag = none))))

/-- The SPDM responder: negotiation, certificates, challenges, measurements (R353, R354, R355, R358, R359, R360, R361, R364, R366). -/
def Obligations.SpdmNegotiationAndEvidence : Prop :=
  (∀ (s : State) (p : Peer), serves s p → s.peerSession p = none → s.asks p = false →
    let u := heardOf s p
    exec (.getVersion p) s = .next ((u.modConn p fun _ => { stage := 1 }).spdmAnswer p (u.requestBytes p 0x84 []) rspVersion [[0x12#8, 0x13#8]]) ∧
    ((s.conn p).stage = 1 → ∃ parts, exec (.getCapabilities p) s = .next ((u.modConn p fun k => { k with stage := 2 }).spdmAnswer p (u.requestBytes p 0xE1 []) rspCapabilities parts)) ∧
    ((s.conn p).stage ≠ 1 → exec (.getCapabilities p) s = .next (u.spdmError p errUnexpected)) ∧
    ((s.conn p).stage = 2 → ∃ parts, exec (.negotiateAlgorithms p true) s = .next ((u.modConn p fun k => { k with stage := 3 }).spdmAnswer p (u.requestBytes p 0xE3 [[1#8]]) rspAlgorithms parts)) ∧
    ((s.conn p).stage = 2 → exec (.negotiateAlgorithms p false) s = .next (u.spdmError p errUnsupported)) ∧
    ((s.conn p).stage ≠ 2 → ∀ b, exec (.negotiateAlgorithms p b) s = .next (u.spdmError p errUnexpected))) ∧
  (∀ (s : State) (p : Peer) (a b : Nat) (n : Bytes) (w : Bool), s.hasPeer p = true → calm s →
    let u := heardOf s p
    (s.bring.ready = false ∨ s.reachable p = false ∨ s.fw.fw = 2 → exec (.getVersion p) s = .next s ∧ exec (.getCertificate p a b b) s = .next s ∧
      exec (.getMeasurements p a w n) s = .next s ∧ exec (.keyExchange p n) s = .next s ∧ exec (.finish p w) s = .next s ∧ exec (.heartbeat p) s = .next s) ∧
    (serves s p → s.life.state = .blank ∨ s.life.state = .endOfLife → ∀ c ∈ [Instr.getCertificate p a b b, .challenge p a n, .getMeasurements p a w n,
      .keyExchange p n, .finish p w, .heartbeat p, .endSession p, .getPqSignature p, .getPqChain p a b], exec c s = .next (u.spdmError p errUnexpected)) ∧
    (serves s p → s.life.state ≠ .blank → s.life.state ≠ .endOfLife → s.fw.fw = 1 → (∀ k, s.peerSession p = some k → k.stage ≠ 4) →
      ∀ c ∈ [Instr.getCertificate p a b b, .challenge p a n, .getMeasurements p a w n, .keyExchange p n, .getPqSignature p, .getPqChain p a b],
        exec c s = .next ((u.bump 0x4100 6).spdmError p errBusy))) ∧
  (∀ (s : State) (p : Peer), servesAll s p → agreed s p →
    let u := heardOf s p
    (∀ off len, off < (s.servedChain false).length → let part := ((s.servedChain false).drop off).take len
      exec (.getCertificate p 0 off len) s = .next (u.spdmAnswer p (u.requestBytes p 0x82 [leBytes 1 0, leBytes 2 off, leBytes 2 len]) rspCertificate [part, leBytes 2 ((s.servedChain false).length - off - part.length)])) ∧
    (∀ off len, (s.servedChain false).length ≤ off → exec (.getCertificate p 0 off len) s = .next (u.spdmError p errInvalid)) ∧
    (∀ slot off len n, slot ≠ 0 → exec (.getCertificate p slot off len) s = .next (u.spdmError p errUnsupported) ∧
      exec (.challenge p slot n) s = .next (u.spdmError p errUnsupported)) ∧
    (∀ nonce, draws s → ∃ t : State, exec (.challenge p 0 nonce) s = .next t ∧ 
      signedAnswer s t p 0x83 rspChallengeAuth "responder-challenge_auth signing" (s.messages p) (s.requestBytes p 0x83 [leBytes 1 0, nonce]) fun n => [sha384 (s.servedChain false), n, nonce]) ∧
    (∀ i nonce, let all := measIndices s.cfg ++ [0x60]
      let one := fun (i : Nat) => leBytes 1 i ++ leBytes 1 (measType i) ++ s.measBlock i
      let ask := fun (signed : Nat) => s.requestBytes p 0xE0 [leBytes 1 i, leBytes 1 signed, nonce]
      ∀ blocks, (i = 0 ∧ blocks = [leBytes 1 all.length] ∨ i = 0xFF ∧ blocks = all.map one ∨ i ≠ 0 ∧ i ≠ 0xFF ∧ i ∈ all ∧ blocks = [one i]) →
        exec (.getMeasurements p i false nonce) s = .next (({ u with fw := { s.fw with composite := s.composite } } : State).spdmAnswer p (ask 0) rspMeasurements blocks) ∧
        (draws s → ∃ t : State, exec (.getMeasurements p i true nonce) s = .next t ∧ 
          signedAnswer s t p 0xE0 rspMeasurements "responder-measurements signing" (s.messages p) (ask 1) (fun n => blocks ++ [n, nonce]) ∧
          t.fw.composite = s.composite)) ∧
    (∀ i nonce b, i ≠ 0 → i ≠ 0xFF → ¬ i ∈ measIndices s.cfg ++ [0x60] → exec (.getMeasurements p i b nonce) s = .next (u.spdmError p errInvalid)) ∧
    (∀ held, held = (match s.peerSession p with | some k => k.heldPq | none => (s.conn p).heldPq) →
      (∀ r sig, held = some (r, sig) → exec (.getPqSignature p) s = .next (u.spdmAnswer p (u.requestBytes p 0xFE [vendorHeader, leBytes 1 vdPqSignature]) rspVendor [vendorHeader, leBytes 1 r ++ sig])) ∧
      (held = none → exec (.getPqSignature p) s = .next (u.spdmError p errUnexpected))) ∧
    (∀ off len, let chain := s.servedChain true
      (len ≤ 4096 → off < chain.length → exec (.getPqChain p off len) s = 
        .next (u.spdmAnswer p (u.requestBytes p 0xFE [vendorHeader, leBytes 1 vdPqChain, leBytes 4 off, leBytes 2 len]) rspVendor [vendorHeader, (chain.drop off).take len])) ∧
      (4096 < len ∨ chain.length ≤ off → exec (.getPqChain p off len) s = .next (u.spdmError p errInvalid)))) ∧
  (∀ (s : State) (p : Peer) (a b : Nat) (n : Bytes), servesAll s p → ¬ agreed s p →
    let u := heardOf s p
    ∀ c ∈ [Instr.getCertificate p a b b, .challenge p a n, .getMeasurements p a true n, .keyExchange p n, .getPqSignature p, .getPqChain p a b],
      exec c s = .next (u.spdmError p errUnexpected))

/-- SPDM sessions: key exchange, finish, updates and ends, and the requester side (R258, R296, R310, R350, R351, R352, R353, R354). -/
def Obligations.SpdmSessions : Prop :=
  (∀ (s : State) (n : Nat) (x : Bytes), servesAll s (.mgmt none) → (s.conn (.mgmt none)).stage = 3 →
    (n < 4 → (s.session n).spdm.stage = 0 → (∀ j, j < n → (s.session j).spdm.stage ≠ 0) → draws s → ∃ t m, exec (.keyExchange (.mgmt none) x) s = .next t ∧
      (t.session n).spdm.stage = 4 ∧ (t.session n).spdm.exportMaster = m ∧ m = Config.exportMaster s.freeCount x ∧
      (∀ j, j ≠ n → t.session j = s.session j) ∧ 
      signedAnswer s t (.mgmt (some n)) 0xE4 rspKeyExchange "responder-key_exchange_rsp signing" (s.messages (.mgmt none)) (s.requestBytes (.mgmt none) 0xE4 [x])
        fun r => [leBytes 2 n, r, x, leBytes 1 10]) ∧
    ((∀ j, j < 4 → (s.session j).spdm.stage ≠ 0) → exec (.keyExchange (.mgmt none) x) s = .next (s.spdmError (.mgmt none) errBusy))) ∧
  (∀ (s : State) (h i : Nat) (x : Bytes), servesAll s (.host h none) → (s.conn (.host h none)).stage = 3 →
    (i < 64 → s.slotFree i = true → (∀ j, j < i → s.slotFree j = false) → draws s → ∃ t : State, exec (.keyExchange (.host h none) x) s = .next t ∧
      (t.hslot i).held = true ∧ (t.hslot i).port = h ∧ (t.hslot i).session.stage = 4 ∧ (∀ j, j ≠ i → t.hslot j = s.hslot j)) ∧
    ((∀ j, j < 64 → s.slotFree j = false) → ∃ t : State, exec (.keyExchange (.host h none) x) s = .next t ∧ (t.host h).lastErr = 0x4005 ∧
      t.count 0x3321 1 = capTo 64 (s.count 0x3321 1 + 1) ∧ t.slots = s.slots ∧ t.out = s.out ++ [.spdm (.host h none) 0x7F [0x03#8]])) ∧
  (∀ (s : State) (n : Nat), servesAll s (.mgmt (some n)) → n < 4 →
    let p := Peer.mgmt (some n)
    let stage := (s.session n).spdm.stage
    (stage = 4 → ∃ t : State, exec (.finish p true) s = .next t ∧ (t.session n).spdm = { (s.session n).spdm with stage := 5 } ∧ ∀ j, j ≠ n → t.session j = s.session j) ∧
    (stage = 4 → ∃ t : State, exec (.finish p false) s = .next t ∧ t.session n = {} ∧ .spdm p 0x7F [0x06#8] ∈ t.out) ∧
    (stage ≠ 4 → ∀ v, exec (.finish p v) s = .next (s.spdmError p errUnexpected)) ∧
    (stage = 5 → exec (.heartbeat p) s = .next (s.spdmOut p rspHeartbeat []) ∧ exec (.keyUpdate p) s = .next (s.spdmOut p rspKeyUpdate []) ∧ exec (.endSession p) s = .next ((s.spdmOut p rspEndSession []).endMgmt n) ∧
      exec (.heartbeatTimeout p) s = .next (s.endMgmt n) ∧ (s.endMgmt n).session n = {}) ∧
    (stage ≠ 5 → exec (.heartbeat p) s = .next (s.spdmError p errUnexpected) ∧ exec (.keyUpdate p) s = .next (s.spdmError p errUnexpected) ∧ exec (.endSession p) s = .next (s.spdmError p errUnexpected) ∧
      exec (.heartbeatTimeout p) s = .next s)) ∧
  (∀ (s : State) (h i : Nat), servesAll s (.host h (some i)) → (s.hslot i).held = true → (s.hslot i).port = h →
    let p := Peer.host h (some i)
    (∀ leaf, (s.hslot i).session.stage = 4 → s.freeLeaf = some leaf → (s.slot leaf).state = 0 → s.usable rootSlot = true → s.fertile rootSlot = true → draws s →
      ∃ (t : State) (b : Bytes), exec (.finish p true) s = .next t ∧ t.hslot i =
          { s.hslot i with leaf := leaf, keyGen := some (t.slot leaf).gen, binding := b, session := { (s.hslot i).session with stage := 5 } } ∧ t.boundLeaf (t.hslot i) = true ∧
        (t.slot leaf).state = 1 ∧ (t.slot leaf).kind = 5 ∧ (t.slot leaf).parent = 0x41) ∧
    ((s.hslot i).session.stage = 4 → ∃ t : State, exec (.finish p false) s = .next t ∧ (t.hslot i).held = false ∧ .spdm p 0x7F [0x06#8] ∈ t.out) ∧
    ((s.hslot i).session.stage = 5 → exec (.keyUpdate p) s = .next (s.spdmOut p rspKeyUpdate []) ∧ ∃ t u, exec (.endSession p) s = .next t ∧ exec (.heartbeatTimeout p) s = .next u ∧ (State.hslot t i).held = false ∧ (State.hslot u i).held = false)) ∧
  (∀ (s : State) (l : Nat), servesAll s (.link l) → (s.link l).session.stage = 5 →
    ((s.link l).session.requester = false → exec (.keyUpdate (.link l)) s =
      .next ((((heardOf s (.link l)).modLink l fun k => { k with session := { k.session with updateAsked := false } }).spdmOut (.link l) rspKeyUpdate []).linkUpdate l).settle) ∧
    ((s.link l).session.requester = true → exec (.keyUpdate (.link l)) s = .next ((heardOf s (.link l)).spdmError (.link l) errUnexpected)) ∧
    (∀ i, (s.link l).slot = some i → (s.link l).update = false → i < 65536 → s.usable i = true → s.fertile i = true → (s.slot i).kind = 4 → (s.slot i).next = false →
      (s.slot i).gen < 0xFFFFFFFE → ((s.linkUpdate l).slot i).next = true ∧ ((s.linkUpdate l).link l).update = true ∧
        ((s.linkUpdate l).link l).updateX = some (s.link l).fs.txSeq)) ∧
  (∀ (s : State) (c : Nat), servesAll s (.chip c) → exec (.keyUpdate (.chip c)) s = .next ((heardOf s (.chip c)).spdmError (.chip c) errUnexpected)) ∧
  (∀ (s : State) (c : Nat), serves s (.chip c) → (s.chip c).session.requester = true →
    let k := (s.chip c).session
    let u := heardOf s (.chip c)
    let asks := fun (r : SpdmMsg) (k' : Session) (x : Nat) (parts : List Bytes) => exec (.spdmResponse (.chip c) r) s =
      .next ((u.modChip c fun y => { y with session := { k' with messages := k'.messages ++ [Config.standardBody x parts] } }).emit (.spdmRequest (.chip c) x (Config.standardBody x parts)))
    let refused := fun (r : SpdmMsg) (e : Nat) => ∃ t : State, exec (.spdmResponse (.chip c) r) s = .next t.settle ∧ portEnds s t c 5 ∧ (t.chip c).lastErr = e ∧ (t.chip c).holdoff = true
    (k.stage = 0 → asks (.versionCaps true) { k with stage := 1 } 0x82 [] ∧ refused (.versionCaps false) 0x3003) ∧
    (∀ ec pq leaf ok, k.stage = 1 →
      (ok = true → s.listed 0x3303 16 (sha384 ec) = true → 
        asks (.certificate ec pq leaf ok) { k with stage := 2, anchor := sha384 ec, messages := k.messages ++ [Config.standardBody rspCertificate [ec, pq, leaf]] } 0xE0 []) ∧
      (ok = false ∨ s.listed 0x3303 16 (sha384 ec) = false → refused (.certificate ec pq leaf ok) 0x3001)) ∧
    (∀ record index2 life a b, k.stage = 2 →
      (a = true → s.listed 0x3304 64 (sha384 record) = true → 
        asks (.measurements record index2 life a b) { k with stage := 3, measured := sha384 record, messages := k.messages ++ [Config.standardBody rspMeasurements [record]] } 0xE4 [[0#8]]) ∧
      (a = false ∨ s.listed 0x3304 64 (sha384 record) = false → refused (.measurements record index2 life a b) 0x3002)) ∧
    (∀ x, k.stage = 3 → let heard := k.messages ++ [Config.standardBody rspKeyExchange [x]]
      let after := fun (t : State) => if (s.chip c).state = 4 then t.chipNext c else t
      (∀ auth, refused (.keyExchangeRsp x false auth) 0x3003) ∧
      (∃ t : State, exec (.spdmResponse (.chip c) (.keyExchangeRsp x true false)) s = .next (after t).settle ∧ (t.chip c).session =
          { k with stage := 4, exportMaster := Config.exportMaster s.freeCount x, messages := heard ++ [Config.standardBody 0xE5 []] } ∧
        t.out = s.out ++ [.spdmRequest (.chip c) 0xE5 (Config.standardBody 0xE5 [])]) ∧
      (draws s → ∃ (t : State) (r : Bytes), exec (.spdmResponse (.chip c) (.keyExchangeRsp x true true)) s = .next (after t).settle ∧
        let m := signedText "requester-finish signing" 0xE5 (heard ++ [Config.standardBody 0xE5 []])
        t.out = s.out ++ [.spdmRequest (.chip c) 0xE5 (Config.standardBody 0xE5 [Config.ecdsaSign s.fw.aliasEc m r])] ∧
        (t.chip c).session.stage = 4 ∧ (t.chip c).session.heldPq = some (0xE5, Config.mldsaSign s.fw.aliasPq m r))) ∧
    (k.stage = 4 → refused (.finishRsp false) 0x3003 ∧ ((s.chip c).state ≠ 4 → exec (.spdmResponse (.chip c) (.finishRsp true)) s =
      .next (u.modChip c fun y => { y with session := { k with stage := 5 } }))) ∧
    (k.stage ≠ 0 → ∀ ok, exec (.spdmResponse (.chip c) (.versionCaps ok)) s = .next u))

/-- Every command completes wherever the unit it names is there (R15, R35). -/
def Obligations.EveryCommandCompletes : Prop :=
  ∀ (c : Instr) (s : State), if unitThere s c then ∃ t : State, exec c s = .next t else exec c s = .fault .absentUnit

/-- No command changes a parameter, and the almanac reports the values chosen (R34). -/
def Obligations.ConfigurationIsFixed : Prop :=
  (∀ (c : Instr) (s t : State), exec c s = .next t → t.cfg = s.cfg) ∧
  (∀ s : State, s.cfg.legal = true → let c := s.cfg
    let reads := fun (j : Nat) => leNat (s.entryValue 0x1000 j)
    reads 2 = c.memPorts ∧ reads 3 = c.chipPorts ∧ reads 4 = c.links ∧ reads 5 = c.hostPorts ∧ reads 6 = c.aus ∧ reads 7 = c.samplers ∧
    reads 8 = c.partitions ∧ reads 9 = c.contexts ∧ reads 10 = c.queues ∧ reads 11 = c.tlb2 ∧ reads 12 = c.comb ∧ reads 13 = c.memCxl.toNat ∧
    reads 14 = c.tagPermit.toNat ∧ (∀ k, k < 8 → bits (reads 15) (8 * k + 7) (8 * k) = c.chipModules.getD k 0) ∧ reads 16 = c.lineBoundUs ∧
    reads 17 = (if c.meshSensor then 1 else 0) + (if c.tracePort then 2 else 0))

/-- While power-on reset holds the block, every step but its release keeps it held, and nothing leaves it (R53, R65, R68, R529). -/
def Obligations.HeldInReset : Prop :=
  held State.reset ∧
  ∀ (s t : State), held s → (∀ e i rest, s.pending ≠ .powerOnReset e i :: rest) → step s = .next t →
    held t ∧ t.fuses = s.fuses ∧ t.cfg = s.cfg ∧ t.out = s.out
end

