-- ==== Sys2Proof/Laws/State.lean ====
section
/-! SUPPORT. Sys2Proof/Laws/State.lean: what each named update of the state changes, and that it changes nothing else:
one lemma per field per update, each true by unfolding. -/
namespace Sys2Proof.Machine

variable (s : State)

/-! ## bumpBy -/

@[simp] theorem State.bumpBy_cfg (i j n : Nat) : (s.bumpBy i j n).cfg = s.cfg := rfl
@[simp] theorem State.bumpBy_pending (i j n : Nat) : (s.bumpBy i j n).pending = s.pending := rfl
@[simp] theorem State.bumpBy_out (i j n : Nat) : (s.bumpBy i j n).out = s.out := rfl
@[simp] theorem State.bumpBy_due (i j n : Nat) : (s.bumpBy i j n).due = s.due := rfl
@[simp] theorem State.bumpBy_freeCount (i j n : Nat) : (s.bumpBy i j n).freeCount = s.freeCount := rfl
@[simp] theorem State.bumpBy_loc (i j n : Nat) : (s.bumpBy i j n).loc = s.loc := rfl
@[simp] theorem State.bumpBy_ctr (i j n : Nat) : (s.bumpBy i j n).ctr = if s.countsNow i then tblMod s.ctr (ekey i j) (fun v => capTo 64 (v + n)) 0 else s.ctr := rfl
@[simp] theorem State.bumpBy_settings (i j n : Nat) : (s.bumpBy i j n).settings = s.settings := rfl
@[simp] theorem State.bumpBy_fuses (i j n : Nat) : (s.bumpBy i j n).fuses = s.fuses := rfl
@[simp] theorem State.bumpBy_bring (i j n : Nat) : (s.bumpBy i j n).bring = s.bring := rfl
@[simp] theorem State.bumpBy_power (i j n : Nat) : (s.bumpBy i j n).power = s.power := rfl
@[simp] theorem State.bumpBy_agent (i j n : Nat) : (s.bumpBy i j n).agent = s.agent := rfl
@[simp] theorem State.bumpBy_fw (i j n : Nat) : (s.bumpBy i j n).fw = s.fw := rfl
@[simp] theorem State.bumpBy_life (i j n : Nat) : (s.bumpBy i j n).life = s.life := rfl
@[simp] theorem State.bumpBy_alarms (i j n : Nat) : (s.bumpBy i j n).alarms = s.alarms := rfl
@[simp] theorem State.bumpBy_faults (i j n : Nat) : (s.bumpBy i j n).faults = s.faults := rfl
@[simp] theorem State.bumpBy_records (i j n : Nat) : (s.bumpBy i j n).records = s.records := rfl
@[simp] theorem State.bumpBy_keys (i j n : Nat) : (s.bumpBy i j n).keys = s.keys := rfl
@[simp] theorem State.bumpBy_gce (i j n : Nat) : (s.bumpBy i j n).gce = s.gce := rfl
@[simp] theorem State.bumpBy_random (i j n : Nat) : (s.bumpBy i j n).random = s.random := rfl
@[simp] theorem State.bumpBy_mem (i j n : Nat) : (s.bumpBy i j n).mem = s.mem := rfl
@[simp] theorem State.bumpBy_links (i j n : Nat) : (s.bumpBy i j n).links = s.links := rfl
@[simp] theorem State.bumpBy_chips (i j n : Nat) : (s.bumpBy i j n).chips = s.chips := rfl
@[simp] theorem State.bumpBy_hosts (i j n : Nat) : (s.bumpBy i j n).hosts = s.hosts := rfl
@[simp] theorem State.bumpBy_slots (i j n : Nat) : (s.bumpBy i j n).slots = s.slots := rfl
@[simp] theorem State.bumpBy_tdis (i j n : Nat) : (s.bumpBy i j n).tdis = s.tdis := rfl
@[simp] theorem State.bumpBy_stagingRoutes (i j n : Nat) : (s.bumpBy i j n).stagingRoutes = s.stagingRoutes := rfl
@[simp] theorem State.bumpBy_liveRoutes (i j n : Nat) : (s.bumpBy i j n).liveRoutes = s.liveRoutes := rfl
@[simp] theorem State.bumpBy_routeHold (i j n : Nat) : (s.bumpBy i j n).routeHold = s.routeHold := rfl
@[simp] theorem State.bumpBy_routeHeld (i j n : Nat) : (s.bumpBy i j n).routeHeld = s.routeHeld := rfl
@[simp] theorem State.bumpBy_otags (i j n : Nat) : (s.bumpBy i j n).otags = s.otags := rfl
@[simp] theorem State.bumpBy_otagNext (i j n : Nat) : (s.bumpBy i j n).otagNext = s.otagNext := rfl
@[simp] theorem State.bumpBy_heldOps (i j n : Nat) : (s.bumpBy i j n).heldOps = s.heldOps := rfl
@[simp] theorem State.bumpBy_rcache (i j n : Nat) : (s.bumpBy i j n).rcache = s.rcache := rfl
@[simp] theorem State.bumpBy_comb (i j n : Nat) : (s.bumpBy i j n).comb = s.comb := rfl
@[simp] theorem State.bumpBy_rslots (i j n : Nat) : (s.bumpBy i j n).rslots = s.rslots := rfl
@[simp] theorem State.bumpBy_early (i j n : Nat) : (s.bumpBy i j n).early = s.early := rfl
@[simp] theorem State.bumpBy_chunkRecs (i j n : Nat) : (s.bumpBy i j n).chunkRecs = s.chunkRecs := rfl
@[simp] theorem State.bumpBy_parts (i j n : Nat) : (s.bumpBy i j n).parts = s.parts := rfl
@[simp] theorem State.bumpBy_ctxs (i j n : Nat) : (s.bumpBy i j n).ctxs = s.ctxs := rfl
@[simp] theorem State.bumpBy_queues (i j n : Nat) : (s.bumpBy i j n).queues = s.queues := rfl
@[simp] theorem State.bumpBy_cmds (i j n : Nat) : (s.bumpBy i j n).cmds = s.cmds := rfl
@[simp] theorem State.bumpBy_cmdNext (i j n : Nat) : (s.bumpBy i j n).cmdNext = s.cmdNext := rfl
@[simp] theorem State.bumpBy_objs (i j n : Nat) : (s.bumpBy i j n).objs = s.objs := rfl
@[simp] theorem State.bumpBy_objLive (i j n : Nat) : (s.bumpBy i j n).objLive = s.objLive := rfl
@[simp] theorem State.bumpBy_watch (i j n : Nat) : (s.bumpBy i j n).watch = s.watch := rfl
@[simp] theorem State.bumpBy_trans (i j n : Nat) : (s.bumpBy i j n).trans = s.trans := rfl
@[simp] theorem State.bumpBy_tlb1 (i j n : Nat) : (s.bumpBy i j n).tlb1 = s.tlb1 := rfl
@[simp] theorem State.bumpBy_tlb2 (i j n : Nat) : (s.bumpBy i j n).tlb2 = s.tlb2 := rfl
@[simp] theorem State.bumpBy_walks (i j n : Nat) : (s.bumpBy i j n).walks = s.walks := rfl
@[simp] theorem State.bumpBy_walkTurn (i j n : Nat) : (s.bumpBy i j n).walkTurn = s.walkTurn := rfl
@[simp] theorem State.bumpBy_clock (i j n : Nat) : (s.bumpBy i j n).clock = s.clock := rfl
@[simp] theorem State.bumpBy_mapJob (i j n : Nat) : (s.bumpBy i j n).mapJob = s.mapJob := rfl
@[simp] theorem State.bumpBy_auOwner (i j n : Nat) : (s.bumpBy i j n).auOwner = s.auOwner := rfl
@[simp] theorem State.bumpBy_auQueue (i j n : Nat) : (s.bumpBy i j n).auQueue = s.auQueue := rfl
@[simp] theorem State.bumpBy_auLastCtx (i j n : Nat) : (s.bumpBy i j n).auLastCtx = s.auLastCtx := rfl
@[simp] theorem State.bumpBy_samplerPart (i j n : Nat) : (s.bumpBy i j n).samplerPart = s.samplerPart := rfl
@[simp] theorem State.bumpBy_samplerFifo (i j n : Nat) : (s.bumpBy i j n).samplerFifo = s.samplerFifo := rfl
@[simp] theorem State.bumpBy_samplerTurn (i j n : Nat) : (s.bumpBy i j n).samplerTurn = s.samplerTurn := rfl
@[simp] theorem State.bumpBy_samplerCmd (i j n : Nat) : (s.bumpBy i j n).samplerCmd = s.samplerCmd := rfl
@[simp] theorem State.bumpBy_samplers (i j n : Nat) : (s.bumpBy i j n).samplers = s.samplers := rfl
@[simp] theorem State.bumpBy_lanesTurn (i j n : Nat) : (s.bumpBy i j n).lanesTurn = s.lanesTurn := rfl

/-! ## bump -/

@[simp] theorem State.bump_cfg (i j : Nat) : (s.bump i j).cfg = s.cfg := rfl
@[simp] theorem State.bump_pending (i j : Nat) : (s.bump i j).pending = s.pending := rfl
@[simp] theorem State.bump_out (i j : Nat) : (s.bump i j).out = s.out := rfl
@[simp] theorem State.bump_due (i j : Nat) : (s.bump i j).due = s.due := rfl
@[simp] theorem State.bump_freeCount (i j : Nat) : (s.bump i j).freeCount = s.freeCount := rfl
@[simp] theorem State.bump_loc (i j : Nat) : (s.bump i j).loc = s.loc := rfl
@[simp] theorem State.bump_ctr (i j : Nat) : (s.bump i j).ctr = if s.countsNow i then tblMod s.ctr (ekey i j) (fun v => capTo 64 (v + 1)) 0 else s.ctr := rfl
@[simp] theorem State.bump_settings (i j : Nat) : (s.bump i j).settings = s.settings := rfl
@[simp] theorem State.bump_fuses (i j : Nat) : (s.bump i j).fuses = s.fuses := rfl
@[simp] theorem State.bump_bring (i j : Nat) : (s.bump i j).bring = s.bring := rfl
@[simp] theorem State.bump_power (i j : Nat) : (s.bump i j).power = s.power := rfl
@[simp] theorem State.bump_agent (i j : Nat) : (s.bump i j).agent = s.agent := rfl
@[simp] theorem State.bump_fw (i j : Nat) : (s.bump i j).fw = s.fw := rfl
@[simp] theorem State.bump_life (i j : Nat) : (s.bump i j).life = s.life := rfl
@[simp] theorem State.bump_alarms (i j : Nat) : (s.bump i j).alarms = s.alarms := rfl
@[simp] theorem State.bump_faults (i j : Nat) : (s.bump i j).faults = s.faults := rfl
@[simp] theorem State.bump_records (i j : Nat) : (s.bump i j).records = s.records := rfl
@[simp] theorem State.bump_keys (i j : Nat) : (s.bump i j).keys = s.keys := rfl
@[simp] theorem State.bump_gce (i j : Nat) : (s.bump i j).gce = s.gce := rfl
@[simp] theorem State.bump_random (i j : Nat) : (s.bump i j).random = s.random := rfl
@[simp] theorem State.bump_mem (i j : Nat) : (s.bump i j).mem = s.mem := rfl
@[simp] theorem State.bump_links (i j : Nat) : (s.bump i j).links = s.links := rfl
@[simp] theorem State.bump_chips (i j : Nat) : (s.bump i j).chips = s.chips := rfl
@[simp] theorem State.bump_hosts (i j : Nat) : (s.bump i j).hosts = s.hosts := rfl
@[simp] theorem State.bump_slots (i j : Nat) : (s.bump i j).slots = s.slots := rfl
@[simp] theorem State.bump_tdis (i j : Nat) : (s.bump i j).tdis = s.tdis := rfl
@[simp] theorem State.bump_stagingRoutes (i j : Nat) : (s.bump i j).stagingRoutes = s.stagingRoutes := rfl
@[simp] theorem State.bump_liveRoutes (i j : Nat) : (s.bump i j).liveRoutes = s.liveRoutes := rfl
@[simp] theorem State.bump_routeHold (i j : Nat) : (s.bump i j).routeHold = s.routeHold := rfl
@[simp] theorem State.bump_routeHeld (i j : Nat) : (s.bump i j).routeHeld = s.routeHeld := rfl
@[simp] theorem State.bump_otags (i j : Nat) : (s.bump i j).otags = s.otags := rfl
@[simp] theorem State.bump_otagNext (i j : Nat) : (s.bump i j).otagNext = s.otagNext := rfl
@[simp] theorem State.bump_heldOps (i j : Nat) : (s.bump i j).heldOps = s.heldOps := rfl
@[simp] theorem State.bump_rcache (i j : Nat) : (s.bump i j).rcache = s.rcache := rfl
@[simp] theorem State.bump_comb (i j : Nat) : (s.bump i j).comb = s.comb := rfl
@[simp] theorem State.bump_rslots (i j : Nat) : (s.bump i j).rslots = s.rslots := rfl
@[simp] theorem State.bump_early (i j : Nat) : (s.bump i j).early = s.early := rfl
@[simp] theorem State.bump_chunkRecs (i j : Nat) : (s.bump i j).chunkRecs = s.chunkRecs := rfl
@[simp] theorem State.bump_parts (i j : Nat) : (s.bump i j).parts = s.parts := rfl
@[simp] theorem State.bump_ctxs (i j : Nat) : (s.bump i j).ctxs = s.ctxs := rfl
@[simp] theorem State.bump_queues (i j : Nat) : (s.bump i j).queues = s.queues := rfl
@[simp] theorem State.bump_cmds (i j : Nat) : (s.bump i j).cmds = s.cmds := rfl
@[simp] theorem State.bump_cmdNext (i j : Nat) : (s.bump i j).cmdNext = s.cmdNext := rfl
@[simp] theorem State.bump_objs (i j : Nat) : (s.bump i j).objs = s.objs := rfl
@[simp] theorem State.bump_objLive (i j : Nat) : (s.bump i j).objLive = s.objLive := rfl
@[simp] theorem State.bump_watch (i j : Nat) : (s.bump i j).watch = s.watch := rfl
@[simp] theorem State.bump_trans (i j : Nat) : (s.bump i j).trans = s.trans := rfl
@[simp] theorem State.bump_tlb1 (i j : Nat) : (s.bump i j).tlb1 = s.tlb1 := rfl
@[simp] theorem State.bump_tlb2 (i j : Nat) : (s.bump i j).tlb2 = s.tlb2 := rfl
@[simp] theorem State.bump_walks (i j : Nat) : (s.bump i j).walks = s.walks := rfl
@[simp] theorem State.bump_walkTurn (i j : Nat) : (s.bump i j).walkTurn = s.walkTurn := rfl
@[simp] theorem State.bump_clock (i j : Nat) : (s.bump i j).clock = s.clock := rfl
@[simp] theorem State.bump_mapJob (i j : Nat) : (s.bump i j).mapJob = s.mapJob := rfl
@[simp] theorem State.bump_auOwner (i j : Nat) : (s.bump i j).auOwner = s.auOwner := rfl
@[simp] theorem State.bump_auQueue (i j : Nat) : (s.bump i j).auQueue = s.auQueue := rfl
@[simp] theorem State.bump_auLastCtx (i j : Nat) : (s.bump i j).auLastCtx = s.auLastCtx := rfl
@[simp] theorem State.bump_samplerPart (i j : Nat) : (s.bump i j).samplerPart = s.samplerPart := rfl
@[simp] theorem State.bump_samplerFifo (i j : Nat) : (s.bump i j).samplerFifo = s.samplerFifo := rfl
@[simp] theorem State.bump_samplerTurn (i j : Nat) : (s.bump i j).samplerTurn = s.samplerTurn := rfl
@[simp] theorem State.bump_samplerCmd (i j : Nat) : (s.bump i j).samplerCmd = s.samplerCmd := rfl
@[simp] theorem State.bump_samplers (i j : Nat) : (s.bump i j).samplers = s.samplers := rfl
@[simp] theorem State.bump_lanesTurn (i j : Nat) : (s.bump i j).lanesTurn = s.lanesTurn := rfl

/-! ## setCount -/

@[simp] theorem State.setCount_cfg (i j v : Nat) : (s.setCount i j v).cfg = s.cfg := rfl
@[simp] theorem State.setCount_pending (i j v : Nat) : (s.setCount i j v).pending = s.pending := rfl
@[simp] theorem State.setCount_out (i j v : Nat) : (s.setCount i j v).out = s.out := rfl
@[simp] theorem State.setCount_due (i j v : Nat) : (s.setCount i j v).due = s.due := rfl
@[simp] theorem State.setCount_freeCount (i j v : Nat) : (s.setCount i j v).freeCount = s.freeCount := rfl
@[simp] theorem State.setCount_loc (i j v : Nat) : (s.setCount i j v).loc = s.loc := rfl
@[simp] theorem State.setCount_ctr (i j v : Nat) : (s.setCount i j v).ctr = tblSet s.ctr (ekey i j) v 0 := rfl
@[simp] theorem State.setCount_settings (i j v : Nat) : (s.setCount i j v).settings = s.settings := rfl
@[simp] theorem State.setCount_fuses (i j v : Nat) : (s.setCount i j v).fuses = s.fuses := rfl
@[simp] theorem State.setCount_bring (i j v : Nat) : (s.setCount i j v).bring = s.bring := rfl
@[simp] theorem State.setCount_power (i j v : Nat) : (s.setCount i j v).power = s.power := rfl
@[simp] theorem State.setCount_agent (i j v : Nat) : (s.setCount i j v).agent = s.agent := rfl
@[simp] theorem State.setCount_fw (i j v : Nat) : (s.setCount i j v).fw = s.fw := rfl
@[simp] theorem State.setCount_life (i j v : Nat) : (s.setCount i j v).life = s.life := rfl
@[simp] theorem State.setCount_alarms (i j v : Nat) : (s.setCount i j v).alarms = s.alarms := rfl
@[simp] theorem State.setCount_faults (i j v : Nat) : (s.setCount i j v).faults = s.faults := rfl
@[simp] theorem State.setCount_records (i j v : Nat) : (s.setCount i j v).records = s.records := rfl
@[simp] theorem State.setCount_keys (i j v : Nat) : (s.setCount i j v).keys = s.keys := rfl
@[simp] theorem State.setCount_gce (i j v : Nat) : (s.setCount i j v).gce = s.gce := rfl
@[simp] theorem State.setCount_random (i j v : Nat) : (s.setCount i j v).random = s.random := rfl
@[simp] theorem State.setCount_mem (i j v : Nat) : (s.setCount i j v).mem = s.mem := rfl
@[simp] theorem State.setCount_links (i j v : Nat) : (s.setCount i j v).links = s.links := rfl
@[simp] theorem State.setCount_chips (i j v : Nat) : (s.setCount i j v).chips = s.chips := rfl
@[simp] theorem State.setCount_hosts (i j v : Nat) : (s.setCount i j v).hosts = s.hosts := rfl
@[simp] theorem State.setCount_slots (i j v : Nat) : (s.setCount i j v).slots = s.slots := rfl
@[simp] theorem State.setCount_tdis (i j v : Nat) : (s.setCount i j v).tdis = s.tdis := rfl
@[simp] theorem State.setCount_stagingRoutes (i j v : Nat) : (s.setCount i j v).stagingRoutes = s.stagingRoutes := rfl
@[simp] theorem State.setCount_liveRoutes (i j v : Nat) : (s.setCount i j v).liveRoutes = s.liveRoutes := rfl
@[simp] theorem State.setCount_routeHold (i j v : Nat) : (s.setCount i j v).routeHold = s.routeHold := rfl
@[simp] theorem State.setCount_routeHeld (i j v : Nat) : (s.setCount i j v).routeHeld = s.routeHeld := rfl
@[simp] theorem State.setCount_otags (i j v : Nat) : (s.setCount i j v).otags = s.otags := rfl
@[simp] theorem State.setCount_otagNext (i j v : Nat) : (s.setCount i j v).otagNext = s.otagNext := rfl
@[simp] theorem State.setCount_heldOps (i j v : Nat) : (s.setCount i j v).heldOps = s.heldOps := rfl
@[simp] theorem State.setCount_rcache (i j v : Nat) : (s.setCount i j v).rcache = s.rcache := rfl
@[simp] theorem State.setCount_comb (i j v : Nat) : (s.setCount i j v).comb = s.comb := rfl
@[simp] theorem State.setCount_rslots (i j v : Nat) : (s.setCount i j v).rslots = s.rslots := rfl
@[simp] theorem State.setCount_early (i j v : Nat) : (s.setCount i j v).early = s.early := rfl
@[simp] theorem State.setCount_chunkRecs (i j v : Nat) : (s.setCount i j v).chunkRecs = s.chunkRecs := rfl
@[simp] theorem State.setCount_parts (i j v : Nat) : (s.setCount i j v).parts = s.parts := rfl
@[simp] theorem State.setCount_ctxs (i j v : Nat) : (s.setCount i j v).ctxs = s.ctxs := rfl
@[simp] theorem State.setCount_queues (i j v : Nat) : (s.setCount i j v).queues = s.queues := rfl
@[simp] theorem State.setCount_cmds (i j v : Nat) : (s.setCount i j v).cmds = s.cmds := rfl
@[simp] theorem State.setCount_cmdNext (i j v : Nat) : (s.setCount i j v).cmdNext = s.cmdNext := rfl
@[simp] theorem State.setCount_objs (i j v : Nat) : (s.setCount i j v).objs = s.objs := rfl
@[simp] theorem State.setCount_objLive (i j v : Nat) : (s.setCount i j v).objLive = s.objLive := rfl
@[simp] theorem State.setCount_watch (i j v : Nat) : (s.setCount i j v).watch = s.watch := rfl
@[simp] theorem State.setCount_trans (i j v : Nat) : (s.setCount i j v).trans = s.trans := rfl
@[simp] theorem State.setCount_tlb1 (i j v : Nat) : (s.setCount i j v).tlb1 = s.tlb1 := rfl
@[simp] theorem State.setCount_tlb2 (i j v : Nat) : (s.setCount i j v).tlb2 = s.tlb2 := rfl
@[simp] theorem State.setCount_walks (i j v : Nat) : (s.setCount i j v).walks = s.walks := rfl
@[simp] theorem State.setCount_walkTurn (i j v : Nat) : (s.setCount i j v).walkTurn = s.walkTurn := rfl
@[simp] theorem State.setCount_clock (i j v : Nat) : (s.setCount i j v).clock = s.clock := rfl
@[simp] theorem State.setCount_mapJob (i j v : Nat) : (s.setCount i j v).mapJob = s.mapJob := rfl
@[simp] theorem State.setCount_auOwner (i j v : Nat) : (s.setCount i j v).auOwner = s.auOwner := rfl
@[simp] theorem State.setCount_auQueue (i j v : Nat) : (s.setCount i j v).auQueue = s.auQueue := rfl
@[simp] theorem State.setCount_auLastCtx (i j v : Nat) : (s.setCount i j v).auLastCtx = s.auLastCtx := rfl
@[simp] theorem State.setCount_samplerPart (i j v : Nat) : (s.setCount i j v).samplerPart = s.samplerPart := rfl
@[simp] theorem State.setCount_samplerFifo (i j v : Nat) : (s.setCount i j v).samplerFifo = s.samplerFifo := rfl
@[simp] theorem State.setCount_samplerTurn (i j v : Nat) : (s.setCount i j v).samplerTurn = s.samplerTurn := rfl
@[simp] theorem State.setCount_samplerCmd (i j v : Nat) : (s.setCount i j v).samplerCmd = s.samplerCmd := rfl
@[simp] theorem State.setCount_samplers (i j v : Nat) : (s.setCount i j v).samplers = s.samplers := rfl
@[simp] theorem State.setCount_lanesTurn (i j v : Nat) : (s.setCount i j v).lanesTurn = s.lanesTurn := rfl

/-! ## setSetting -/

@[simp] theorem State.setSetting_cfg (i j v : Nat) : (s.setSetting i j v).cfg = s.cfg := rfl
@[simp] theorem State.setSetting_pending (i j v : Nat) : (s.setSetting i j v).pending = s.pending := rfl
@[simp] theorem State.setSetting_out (i j v : Nat) : (s.setSetting i j v).out = s.out := rfl
@[simp] theorem State.setSetting_due (i j v : Nat) : (s.setSetting i j v).due = s.due := rfl
@[simp] theorem State.setSetting_freeCount (i j v : Nat) : (s.setSetting i j v).freeCount = s.freeCount := rfl
@[simp] theorem State.setSetting_loc (i j v : Nat) : (s.setSetting i j v).loc = s.loc := rfl
@[simp] theorem State.setSetting_ctr (i j v : Nat) : (s.setSetting i j v).ctr = s.ctr := rfl
@[simp] theorem State.setSetting_settings (i j v : Nat) : (s.setSetting i j v).settings = tblSet s.settings (ekey i j) v (entryDefault s.cfg i j) := rfl
@[simp] theorem State.setSetting_fuses (i j v : Nat) : (s.setSetting i j v).fuses = s.fuses := rfl
@[simp] theorem State.setSetting_bring (i j v : Nat) : (s.setSetting i j v).bring = s.bring := rfl
@[simp] theorem State.setSetting_power (i j v : Nat) : (s.setSetting i j v).power = s.power := rfl
@[simp] theorem State.setSetting_agent (i j v : Nat) : (s.setSetting i j v).agent = s.agent := rfl
@[simp] theorem State.setSetting_fw (i j v : Nat) : (s.setSetting i j v).fw = s.fw := rfl
@[simp] theorem State.setSetting_life (i j v : Nat) : (s.setSetting i j v).life = s.life := rfl
@[simp] theorem State.setSetting_alarms (i j v : Nat) : (s.setSetting i j v).alarms = s.alarms := rfl
@[simp] theorem State.setSetting_faults (i j v : Nat) : (s.setSetting i j v).faults = s.faults := rfl
@[simp] theorem State.setSetting_records (i j v : Nat) : (s.setSetting i j v).records = s.records := rfl
@[simp] theorem State.setSetting_keys (i j v : Nat) : (s.setSetting i j v).keys = s.keys := rfl
@[simp] theorem State.setSetting_gce (i j v : Nat) : (s.setSetting i j v).gce = s.gce := rfl
@[simp] theorem State.setSetting_random (i j v : Nat) : (s.setSetting i j v).random = s.random := rfl
@[simp] theorem State.setSetting_mem (i j v : Nat) : (s.setSetting i j v).mem = s.mem := rfl
@[simp] theorem State.setSetting_links (i j v : Nat) : (s.setSetting i j v).links = s.links := rfl
@[simp] theorem State.setSetting_chips (i j v : Nat) : (s.setSetting i j v).chips = s.chips := rfl
@[simp] theorem State.setSetting_hosts (i j v : Nat) : (s.setSetting i j v).hosts = s.hosts := rfl
@[simp] theorem State.setSetting_slots (i j v : Nat) : (s.setSetting i j v).slots = s.slots := rfl
@[simp] theorem State.setSetting_tdis (i j v : Nat) : (s.setSetting i j v).tdis = s.tdis := rfl
@[simp] theorem State.setSetting_stagingRoutes (i j v : Nat) : (s.setSetting i j v).stagingRoutes = s.stagingRoutes := rfl
@[simp] theorem State.setSetting_liveRoutes (i j v : Nat) : (s.setSetting i j v).liveRoutes = s.liveRoutes := rfl
@[simp] theorem State.setSetting_routeHold (i j v : Nat) : (s.setSetting i j v).routeHold = s.routeHold := rfl
@[simp] theorem State.setSetting_routeHeld (i j v : Nat) : (s.setSetting i j v).routeHeld = s.routeHeld := rfl
@[simp] theorem State.setSetting_otags (i j v : Nat) : (s.setSetting i j v).otags = s.otags := rfl
@[simp] theorem State.setSetting_otagNext (i j v : Nat) : (s.setSetting i j v).otagNext = s.otagNext := rfl
@[simp] theorem State.setSetting_heldOps (i j v : Nat) : (s.setSetting i j v).heldOps = s.heldOps := rfl
@[simp] theorem State.setSetting_rcache (i j v : Nat) : (s.setSetting i j v).rcache = s.rcache := rfl
@[simp] theorem State.setSetting_comb (i j v : Nat) : (s.setSetting i j v).comb = s.comb := rfl
@[simp] theorem State.setSetting_rslots (i j v : Nat) : (s.setSetting i j v).rslots = s.rslots := rfl
@[simp] theorem State.setSetting_early (i j v : Nat) : (s.setSetting i j v).early = s.early := rfl
@[simp] theorem State.setSetting_chunkRecs (i j v : Nat) : (s.setSetting i j v).chunkRecs = s.chunkRecs := rfl
@[simp] theorem State.setSetting_parts (i j v : Nat) : (s.setSetting i j v).parts = s.parts := rfl
@[simp] theorem State.setSetting_ctxs (i j v : Nat) : (s.setSetting i j v).ctxs = s.ctxs := rfl
@[simp] theorem State.setSetting_queues (i j v : Nat) : (s.setSetting i j v).queues = s.queues := rfl
@[simp] theorem State.setSetting_cmds (i j v : Nat) : (s.setSetting i j v).cmds = s.cmds := rfl
@[simp] theorem State.setSetting_cmdNext (i j v : Nat) : (s.setSetting i j v).cmdNext = s.cmdNext := rfl
@[simp] theorem State.setSetting_objs (i j v : Nat) : (s.setSetting i j v).objs = s.objs := rfl
@[simp] theorem State.setSetting_objLive (i j v : Nat) : (s.setSetting i j v).objLive = s.objLive := rfl
@[simp] theorem State.setSetting_watch (i j v : Nat) : (s.setSetting i j v).watch = s.watch := rfl
@[simp] theorem State.setSetting_trans (i j v : Nat) : (s.setSetting i j v).trans = s.trans := rfl
@[simp] theorem State.setSetting_tlb1 (i j v : Nat) : (s.setSetting i j v).tlb1 = s.tlb1 := rfl
@[simp] theorem State.setSetting_tlb2 (i j v : Nat) : (s.setSetting i j v).tlb2 = s.tlb2 := rfl
@[simp] theorem State.setSetting_walks (i j v : Nat) : (s.setSetting i j v).walks = s.walks := rfl
@[simp] theorem State.setSetting_walkTurn (i j v : Nat) : (s.setSetting i j v).walkTurn = s.walkTurn := rfl
@[simp] theorem State.setSetting_clock (i j v : Nat) : (s.setSetting i j v).clock = s.clock := rfl
@[simp] theorem State.setSetting_mapJob (i j v : Nat) : (s.setSetting i j v).mapJob = s.mapJob := rfl
@[simp] theorem State.setSetting_auOwner (i j v : Nat) : (s.setSetting i j v).auOwner = s.auOwner := rfl
@[simp] theorem State.setSetting_auQueue (i j v : Nat) : (s.setSetting i j v).auQueue = s.auQueue := rfl
@[simp] theorem State.setSetting_auLastCtx (i j v : Nat) : (s.setSetting i j v).auLastCtx = s.auLastCtx := rfl
@[simp] theorem State.setSetting_samplerPart (i j v : Nat) : (s.setSetting i j v).samplerPart = s.samplerPart := rfl
@[simp] theorem State.setSetting_samplerFifo (i j v : Nat) : (s.setSetting i j v).samplerFifo = s.samplerFifo := rfl
@[simp] theorem State.setSetting_samplerTurn (i j v : Nat) : (s.setSetting i j v).samplerTurn = s.samplerTurn := rfl
@[simp] theorem State.setSetting_samplerCmd (i j v : Nat) : (s.setSetting i j v).samplerCmd = s.samplerCmd := rfl
@[simp] theorem State.setSetting_samplers (i j v : Nat) : (s.setSetting i j v).samplers = s.samplers := rfl
@[simp] theorem State.setSetting_lanesTurn (i j v : Nat) : (s.setSetting i j v).lanesTurn = s.lanesTurn := rfl

/-! ## emit -/

@[simp] theorem State.emit_cfg (o : Out) : (s.emit o).cfg = s.cfg := rfl
@[simp] theorem State.emit_pending (o : Out) : (s.emit o).pending = s.pending := rfl
@[simp] theorem State.emit_out (o : Out) : (s.emit o).out = s.out ++ [o] := rfl
@[simp] theorem State.emit_due (o : Out) : (s.emit o).due = s.due := rfl
@[simp] theorem State.emit_freeCount (o : Out) : (s.emit o).freeCount = s.freeCount := rfl
@[simp] theorem State.emit_loc (o : Out) : (s.emit o).loc = s.loc := rfl
@[simp] theorem State.emit_ctr (o : Out) : (s.emit o).ctr = s.ctr := rfl
@[simp] theorem State.emit_settings (o : Out) : (s.emit o).settings = s.settings := rfl
@[simp] theorem State.emit_fuses (o : Out) : (s.emit o).fuses = s.fuses := rfl
@[simp] theorem State.emit_bring (o : Out) : (s.emit o).bring = s.bring := rfl
@[simp] theorem State.emit_power (o : Out) : (s.emit o).power = s.power := rfl
@[simp] theorem State.emit_agent (o : Out) : (s.emit o).agent = s.agent := rfl
@[simp] theorem State.emit_fw (o : Out) : (s.emit o).fw = s.fw := rfl
@[simp] theorem State.emit_life (o : Out) : (s.emit o).life = s.life := rfl
@[simp] theorem State.emit_alarms (o : Out) : (s.emit o).alarms = s.alarms := rfl
@[simp] theorem State.emit_faults (o : Out) : (s.emit o).faults = s.faults := rfl
@[simp] theorem State.emit_records (o : Out) : (s.emit o).records = s.records := rfl
@[simp] theorem State.emit_keys (o : Out) : (s.emit o).keys = s.keys := rfl
@[simp] theorem State.emit_gce (o : Out) : (s.emit o).gce = s.gce := rfl
@[simp] theorem State.emit_random (o : Out) : (s.emit o).random = s.random := rfl
@[simp] theorem State.emit_mem (o : Out) : (s.emit o).mem = s.mem := rfl
@[simp] theorem State.emit_links (o : Out) : (s.emit o).links = s.links := rfl
@[simp] theorem State.emit_chips (o : Out) : (s.emit o).chips = s.chips := rfl
@[simp] theorem State.emit_hosts (o : Out) : (s.emit o).hosts = s.hosts := rfl
@[simp] theorem State.emit_slots (o : Out) : (s.emit o).slots = s.slots := rfl
@[simp] theorem State.emit_tdis (o : Out) : (s.emit o).tdis = s.tdis := rfl
@[simp] theorem State.emit_stagingRoutes (o : Out) : (s.emit o).stagingRoutes = s.stagingRoutes := rfl
@[simp] theorem State.emit_liveRoutes (o : Out) : (s.emit o).liveRoutes = s.liveRoutes := rfl
@[simp] theorem State.emit_routeHold (o : Out) : (s.emit o).routeHold = s.routeHold := rfl
@[simp] theorem State.emit_routeHeld (o : Out) : (s.emit o).routeHeld = s.routeHeld := rfl
@[simp] theorem State.emit_otags (o : Out) : (s.emit o).otags = s.otags := rfl
@[simp] theorem State.emit_otagNext (o : Out) : (s.emit o).otagNext = s.otagNext := rfl
@[simp] theorem State.emit_heldOps (o : Out) : (s.emit o).heldOps = s.heldOps := rfl
@[simp] theorem State.emit_rcache (o : Out) : (s.emit o).rcache = s.rcache := rfl
@[simp] theorem State.emit_comb (o : Out) : (s.emit o).comb = s.comb := rfl
@[simp] theorem State.emit_rslots (o : Out) : (s.emit o).rslots = s.rslots := rfl
@[simp] theorem State.emit_early (o : Out) : (s.emit o).early = s.early := rfl
@[simp] theorem State.emit_chunkRecs (o : Out) : (s.emit o).chunkRecs = s.chunkRecs := rfl
@[simp] theorem State.emit_parts (o : Out) : (s.emit o).parts = s.parts := rfl
@[simp] theorem State.emit_ctxs (o : Out) : (s.emit o).ctxs = s.ctxs := rfl
@[simp] theorem State.emit_queues (o : Out) : (s.emit o).queues = s.queues := rfl
@[simp] theorem State.emit_cmds (o : Out) : (s.emit o).cmds = s.cmds := rfl
@[simp] theorem State.emit_cmdNext (o : Out) : (s.emit o).cmdNext = s.cmdNext := rfl
@[simp] theorem State.emit_objs (o : Out) : (s.emit o).objs = s.objs := rfl
@[simp] theorem State.emit_objLive (o : Out) : (s.emit o).objLive = s.objLive := rfl
@[simp] theorem State.emit_watch (o : Out) : (s.emit o).watch = s.watch := rfl
@[simp] theorem State.emit_trans (o : Out) : (s.emit o).trans = s.trans := rfl
@[simp] theorem State.emit_tlb1 (o : Out) : (s.emit o).tlb1 = s.tlb1 := rfl
@[simp] theorem State.emit_tlb2 (o : Out) : (s.emit o).tlb2 = s.tlb2 := rfl
@[simp] theorem State.emit_walks (o : Out) : (s.emit o).walks = s.walks := rfl
@[simp] theorem State.emit_walkTurn (o : Out) : (s.emit o).walkTurn = s.walkTurn := rfl
@[simp] theorem State.emit_clock (o : Out) : (s.emit o).clock = s.clock := rfl
@[simp] theorem State.emit_mapJob (o : Out) : (s.emit o).mapJob = s.mapJob := rfl
@[simp] theorem State.emit_auOwner (o : Out) : (s.emit o).auOwner = s.auOwner := rfl
@[simp] theorem State.emit_auQueue (o : Out) : (s.emit o).auQueue = s.auQueue := rfl
@[simp] theorem State.emit_auLastCtx (o : Out) : (s.emit o).auLastCtx = s.auLastCtx := rfl
@[simp] theorem State.emit_samplerPart (o : Out) : (s.emit o).samplerPart = s.samplerPart := rfl
@[simp] theorem State.emit_samplerFifo (o : Out) : (s.emit o).samplerFifo = s.samplerFifo := rfl
@[simp] theorem State.emit_samplerTurn (o : Out) : (s.emit o).samplerTurn = s.samplerTurn := rfl
@[simp] theorem State.emit_samplerCmd (o : Out) : (s.emit o).samplerCmd = s.samplerCmd := rfl
@[simp] theorem State.emit_samplers (o : Out) : (s.emit o).samplers = s.samplers := rfl
@[simp] theorem State.emit_lanesTurn (o : Out) : (s.emit o).lanesTurn = s.lanesTurn := rfl

/-! ## alarm -/

@[simp] theorem State.alarm_cfg (a : Nat) (p : Option Nat) (u e : Nat) : (s.alarm a p u e).cfg = s.cfg := rfl
@[simp] theorem State.alarm_pending (a : Nat) (p : Option Nat) (u e : Nat) : (s.alarm a p u e).pending = s.pending := rfl
@[simp] theorem State.alarm_out (a : Nat) (p : Option Nat) (u e : Nat) : (s.alarm a p u e).out = s.out := rfl
@[simp] theorem State.alarm_due (a : Nat) (p : Option Nat) (u e : Nat) : (s.alarm a p u e).due = s.due := rfl
@[simp] theorem State.alarm_freeCount (a : Nat) (p : Option Nat) (u e : Nat) : (s.alarm a p u e).freeCount = s.freeCount := rfl
@[simp] theorem State.alarm_loc (a : Nat) (p : Option Nat) (u e : Nat) : (s.alarm a p u e).loc = s.loc := rfl
@[simp] theorem State.alarm_ctr (a : Nat) (p : Option Nat) (u e : Nat) : (s.alarm a p u e).ctr = s.ctr := rfl
@[simp] theorem State.alarm_settings (a : Nat) (p : Option Nat) (u e : Nat) : (s.alarm a p u e).settings = s.settings := rfl
@[simp] theorem State.alarm_fuses (a : Nat) (p : Option Nat) (u e : Nat) : (s.alarm a p u e).fuses = s.fuses := rfl
@[simp] theorem State.alarm_bring (a : Nat) (p : Option Nat) (u e : Nat) : (s.alarm a p u e).bring = s.bring := rfl
@[simp] theorem State.alarm_power (a : Nat) (p : Option Nat) (u e : Nat) : (s.alarm a p u e).power = s.power := rfl
@[simp] theorem State.alarm_agent (a : Nat) (p : Option Nat) (u e : Nat) : (s.alarm a p u e).agent = s.agent := rfl
@[simp] theorem State.alarm_fw (a : Nat) (p : Option Nat) (u e : Nat) : (s.alarm a p u e).fw = s.fw := rfl
@[simp] theorem State.alarm_life (a : Nat) (p : Option Nat) (u e : Nat) : (s.alarm a p u e).life = s.life := rfl
@[simp] theorem State.alarm_alarms (a : Nat) (p : Option Nat) (u e : Nat) : (s.alarm a p u e).alarms = { s.alarms with pending := s.alarms.pending ++ [⟨a, p, u, e⟩] } := rfl
@[simp] theorem State.alarm_faults (a : Nat) (p : Option Nat) (u e : Nat) : (s.alarm a p u e).faults = s.faults := rfl
@[simp] theorem State.alarm_records (a : Nat) (p : Option Nat) (u e : Nat) : (s.alarm a p u e).records = s.records := rfl
@[simp] theorem State.alarm_keys (a : Nat) (p : Option Nat) (u e : Nat) : (s.alarm a p u e).keys = s.keys := rfl
@[simp] theorem State.alarm_gce (a : Nat) (p : Option Nat) (u e : Nat) : (s.alarm a p u e).gce = s.gce := rfl
@[simp] theorem State.alarm_random (a : Nat) (p : Option Nat) (u e : Nat) : (s.alarm a p u e).random = s.random := rfl
@[simp] theorem State.alarm_mem (a : Nat) (p : Option Nat) (u e : Nat) : (s.alarm a p u e).mem = s.mem := rfl
@[simp] theorem State.alarm_links (a : Nat) (p : Option Nat) (u e : Nat) : (s.alarm a p u e).links = s.links := rfl
@[simp] theorem State.alarm_chips (a : Nat) (p : Option Nat) (u e : Nat) : (s.alarm a p u e).chips = s.chips := rfl
@[simp] theorem State.alarm_hosts (a : Nat) (p : Option Nat) (u e : Nat) : (s.alarm a p u e).hosts = s.hosts := rfl
@[simp] theorem State.alarm_slots (a : Nat) (p : Option Nat) (u e : Nat) : (s.alarm a p u e).slots = s.slots := rfl
@[simp] theorem State.alarm_tdis (a : Nat) (p : Option Nat) (u e : Nat) : (s.alarm a p u e).tdis = s.tdis := rfl
@[simp] theorem State.alarm_stagingRoutes (a : Nat) (p : Option Nat) (u e : Nat) : (s.alarm a p u e).stagingRoutes = s.stagingRoutes := rfl
@[simp] theorem State.alarm_liveRoutes (a : Nat) (p : Option Nat) (u e : Nat) : (s.alarm a p u e).liveRoutes = s.liveRoutes := rfl
@[simp] theorem State.alarm_routeHold (a : Nat) (p : Option Nat) (u e : Nat) : (s.alarm a p u e).routeHold = s.routeHold := rfl
@[simp] theorem State.alarm_routeHeld (a : Nat) (p : Option Nat) (u e : Nat) : (s.alarm a p u e).routeHeld = s.routeHeld := rfl
@[simp] theorem State.alarm_otags (a : Nat) (p : Option Nat) (u e : Nat) : (s.alarm a p u e).otags = s.otags := rfl
@[simp] theorem State.alarm_otagNext (a : Nat) (p : Option Nat) (u e : Nat) : (s.alarm a p u e).otagNext = s.otagNext := rfl
@[simp] theorem State.alarm_heldOps (a : Nat) (p : Option Nat) (u e : Nat) : (s.alarm a p u e).heldOps = s.heldOps := rfl
@[simp] theorem State.alarm_rcache (a : Nat) (p : Option Nat) (u e : Nat) : (s.alarm a p u e).rcache = s.rcache := rfl
@[simp] theorem State.alarm_comb (a : Nat) (p : Option Nat) (u e : Nat) : (s.alarm a p u e).comb = s.comb := rfl
@[simp] theorem State.alarm_rslots (a : Nat) (p : Option Nat) (u e : Nat) : (s.alarm a p u e).rslots = s.rslots := rfl
@[simp] theorem State.alarm_early (a : Nat) (p : Option Nat) (u e : Nat) : (s.alarm a p u e).early = s.early := rfl
@[simp] theorem State.alarm_chunkRecs (a : Nat) (p : Option Nat) (u e : Nat) : (s.alarm a p u e).chunkRecs = s.chunkRecs := rfl
@[simp] theorem State.alarm_parts (a : Nat) (p : Option Nat) (u e : Nat) : (s.alarm a p u e).parts = s.parts := rfl
@[simp] theorem State.alarm_ctxs (a : Nat) (p : Option Nat) (u e : Nat) : (s.alarm a p u e).ctxs = s.ctxs := rfl
@[simp] theorem State.alarm_queues (a : Nat) (p : Option Nat) (u e : Nat) : (s.alarm a p u e).queues = s.queues := rfl
@[simp] theorem State.alarm_cmds (a : Nat) (p : Option Nat) (u e : Nat) : (s.alarm a p u e).cmds = s.cmds := rfl
@[simp] theorem State.alarm_cmdNext (a : Nat) (p : Option Nat) (u e : Nat) : (s.alarm a p u e).cmdNext = s.cmdNext := rfl
@[simp] theorem State.alarm_objs (a : Nat) (p : Option Nat) (u e : Nat) : (s.alarm a p u e).objs = s.objs := rfl
@[simp] theorem State.alarm_objLive (a : Nat) (p : Option Nat) (u e : Nat) : (s.alarm a p u e).objLive = s.objLive := rfl
@[simp] theorem State.alarm_watch (a : Nat) (p : Option Nat) (u e : Nat) : (s.alarm a p u e).watch = s.watch := rfl
@[simp] theorem State.alarm_trans (a : Nat) (p : Option Nat) (u e : Nat) : (s.alarm a p u e).trans = s.trans := rfl
@[simp] theorem State.alarm_tlb1 (a : Nat) (p : Option Nat) (u e : Nat) : (s.alarm a p u e).tlb1 = s.tlb1 := rfl
@[simp] theorem State.alarm_tlb2 (a : Nat) (p : Option Nat) (u e : Nat) : (s.alarm a p u e).tlb2 = s.tlb2 := rfl
@[simp] theorem State.alarm_walks (a : Nat) (p : Option Nat) (u e : Nat) : (s.alarm a p u e).walks = s.walks := rfl
@[simp] theorem State.alarm_walkTurn (a : Nat) (p : Option Nat) (u e : Nat) : (s.alarm a p u e).walkTurn = s.walkTurn := rfl
@[simp] theorem State.alarm_clock (a : Nat) (p : Option Nat) (u e : Nat) : (s.alarm a p u e).clock = s.clock := rfl
@[simp] theorem State.alarm_mapJob (a : Nat) (p : Option Nat) (u e : Nat) : (s.alarm a p u e).mapJob = s.mapJob := rfl
@[simp] theorem State.alarm_auOwner (a : Nat) (p : Option Nat) (u e : Nat) : (s.alarm a p u e).auOwner = s.auOwner := rfl
@[simp] theorem State.alarm_auQueue (a : Nat) (p : Option Nat) (u e : Nat) : (s.alarm a p u e).auQueue = s.auQueue := rfl
@[simp] theorem State.alarm_auLastCtx (a : Nat) (p : Option Nat) (u e : Nat) : (s.alarm a p u e).auLastCtx = s.auLastCtx := rfl
@[simp] theorem State.alarm_samplerPart (a : Nat) (p : Option Nat) (u e : Nat) : (s.alarm a p u e).samplerPart = s.samplerPart := rfl
@[simp] theorem State.alarm_samplerFifo (a : Nat) (p : Option Nat) (u e : Nat) : (s.alarm a p u e).samplerFifo = s.samplerFifo := rfl
@[simp] theorem State.alarm_samplerTurn (a : Nat) (p : Option Nat) (u e : Nat) : (s.alarm a p u e).samplerTurn = s.samplerTurn := rfl
@[simp] theorem State.alarm_samplerCmd (a : Nat) (p : Option Nat) (u e : Nat) : (s.alarm a p u e).samplerCmd = s.samplerCmd := rfl
@[simp] theorem State.alarm_samplers (a : Nat) (p : Option Nat) (u e : Nat) : (s.alarm a p u e).samplers = s.samplers := rfl
@[simp] theorem State.alarm_lanesTurn (a : Nat) (p : Option Nat) (u e : Nat) : (s.alarm a p u e).lanesTurn = s.lanesTurn := rfl

/-! ## touch -/

@[simp] theorem State.touch_cfg (k i : Nat) : (s.touch k i).cfg = s.cfg := rfl
@[simp] theorem State.touch_pending (k i : Nat) : (s.touch k i).pending = s.pending := rfl
@[simp] theorem State.touch_out (k i : Nat) : (s.touch k i).out = s.out := rfl
@[simp] theorem State.touch_due (k i : Nat) : (s.touch k i).due = s.due := rfl
@[simp] theorem State.touch_freeCount (k i : Nat) : (s.touch k i).freeCount = s.freeCount := rfl
@[simp] theorem State.touch_loc (k i : Nat) : (s.touch k i).loc = s.loc := rfl
@[simp] theorem State.touch_ctr (k i : Nat) : (s.touch k i).ctr = s.ctr := rfl
@[simp] theorem State.touch_settings (k i : Nat) : (s.touch k i).settings = s.settings := rfl
@[simp] theorem State.touch_fuses (k i : Nat) : (s.touch k i).fuses = s.fuses := rfl
@[simp] theorem State.touch_bring (k i : Nat) : (s.touch k i).bring = s.bring := rfl
@[simp] theorem State.touch_power (k i : Nat) : (s.touch k i).power = s.power := rfl
@[simp] theorem State.touch_agent (k i : Nat) : (s.touch k i).agent = s.agent := rfl
@[simp] theorem State.touch_fw (k i : Nat) : (s.touch k i).fw = s.fw := rfl
@[simp] theorem State.touch_life (k i : Nat) : (s.touch k i).life = s.life := rfl
@[simp] theorem State.touch_alarms (k i : Nat) : (s.touch k i).alarms = s.alarms := rfl
@[simp] theorem State.touch_faults (k i : Nat) : (s.touch k i).faults = { s.faults with last := tblPut s.faults.last (nodeKey k i) s.loc } := rfl
@[simp] theorem State.touch_records (k i : Nat) : (s.touch k i).records = s.records := rfl
@[simp] theorem State.touch_keys (k i : Nat) : (s.touch k i).keys = s.keys := rfl
@[simp] theorem State.touch_gce (k i : Nat) : (s.touch k i).gce = s.gce := rfl
@[simp] theorem State.touch_random (k i : Nat) : (s.touch k i).random = s.random := rfl
@[simp] theorem State.touch_mem (k i : Nat) : (s.touch k i).mem = s.mem := rfl
@[simp] theorem State.touch_links (k i : Nat) : (s.touch k i).links = s.links := rfl
@[simp] theorem State.touch_chips (k i : Nat) : (s.touch k i).chips = s.chips := rfl
@[simp] theorem State.touch_hosts (k i : Nat) : (s.touch k i).hosts = s.hosts := rfl
@[simp] theorem State.touch_slots (k i : Nat) : (s.touch k i).slots = s.slots := rfl
@[simp] theorem State.touch_tdis (k i : Nat) : (s.touch k i).tdis = s.tdis := rfl
@[simp] theorem State.touch_stagingRoutes (k i : Nat) : (s.touch k i).stagingRoutes = s.stagingRoutes := rfl
@[simp] theorem State.touch_liveRoutes (k i : Nat) : (s.touch k i).liveRoutes = s.liveRoutes := rfl
@[simp] theorem State.touch_routeHold (k i : Nat) : (s.touch k i).routeHold = s.routeHold := rfl
@[simp] theorem State.touch_routeHeld (k i : Nat) : (s.touch k i).routeHeld = s.routeHeld := rfl
@[simp] theorem State.touch_otags (k i : Nat) : (s.touch k i).otags = s.otags := rfl
@[simp] theorem State.touch_otagNext (k i : Nat) : (s.touch k i).otagNext = s.otagNext := rfl
@[simp] theorem State.touch_heldOps (k i : Nat) : (s.touch k i).heldOps = s.heldOps := rfl
@[simp] theorem State.touch_rcache (k i : Nat) : (s.touch k i).rcache = s.rcache := rfl
@[simp] theorem State.touch_comb (k i : Nat) : (s.touch k i).comb = s.comb := rfl
@[simp] theorem State.touch_rslots (k i : Nat) : (s.touch k i).rslots = s.rslots := rfl
@[simp] theorem State.touch_early (k i : Nat) : (s.touch k i).early = s.early := rfl
@[simp] theorem State.touch_chunkRecs (k i : Nat) : (s.touch k i).chunkRecs = s.chunkRecs := rfl
@[simp] theorem State.touch_parts (k i : Nat) : (s.touch k i).parts = s.parts := rfl
@[simp] theorem State.touch_ctxs (k i : Nat) : (s.touch k i).ctxs = s.ctxs := rfl
@[simp] theorem State.touch_queues (k i : Nat) : (s.touch k i).queues = s.queues := rfl
@[simp] theorem State.touch_cmds (k i : Nat) : (s.touch k i).cmds = s.cmds := rfl
@[simp] theorem State.touch_cmdNext (k i : Nat) : (s.touch k i).cmdNext = s.cmdNext := rfl
@[simp] theorem State.touch_objs (k i : Nat) : (s.touch k i).objs = s.objs := rfl
@[simp] theorem State.touch_objLive (k i : Nat) : (s.touch k i).objLive = s.objLive := rfl
@[simp] theorem State.touch_watch (k i : Nat) : (s.touch k i).watch = s.watch := rfl
@[simp] theorem State.touch_trans (k i : Nat) : (s.touch k i).trans = s.trans := rfl
@[simp] theorem State.touch_tlb1 (k i : Nat) : (s.touch k i).tlb1 = s.tlb1 := rfl
@[simp] theorem State.touch_tlb2 (k i : Nat) : (s.touch k i).tlb2 = s.tlb2 := rfl
@[simp] theorem State.touch_walks (k i : Nat) : (s.touch k i).walks = s.walks := rfl
@[simp] theorem State.touch_walkTurn (k i : Nat) : (s.touch k i).walkTurn = s.walkTurn := rfl
@[simp] theorem State.touch_clock (k i : Nat) : (s.touch k i).clock = s.clock := rfl
@[simp] theorem State.touch_mapJob (k i : Nat) : (s.touch k i).mapJob = s.mapJob := rfl
@[simp] theorem State.touch_auOwner (k i : Nat) : (s.touch k i).auOwner = s.auOwner := rfl
@[simp] theorem State.touch_auQueue (k i : Nat) : (s.touch k i).auQueue = s.auQueue := rfl
@[simp] theorem State.touch_auLastCtx (k i : Nat) : (s.touch k i).auLastCtx = s.auLastCtx := rfl
@[simp] theorem State.touch_samplerPart (k i : Nat) : (s.touch k i).samplerPart = s.samplerPart := rfl
@[simp] theorem State.touch_samplerFifo (k i : Nat) : (s.touch k i).samplerFifo = s.samplerFifo := rfl
@[simp] theorem State.touch_samplerTurn (k i : Nat) : (s.touch k i).samplerTurn = s.samplerTurn := rfl
@[simp] theorem State.touch_samplerCmd (k i : Nat) : (s.touch k i).samplerCmd = s.samplerCmd := rfl
@[simp] theorem State.touch_samplers (k i : Nat) : (s.touch k i).samplers = s.samplers := rfl
@[simp] theorem State.touch_lanesTurn (k i : Nat) : (s.touch k i).lanesTurn = s.lanesTurn := rfl

/-! ## charge -/

@[simp] theorem State.charge_cfg (q p n : Nat) : (s.charge q p n).cfg = s.cfg := rfl
@[simp] theorem State.charge_pending (q p n : Nat) : (s.charge q p n).pending = s.pending := rfl
@[simp] theorem State.charge_out (q p n : Nat) : (s.charge q p n).out = s.out := rfl
@[simp] theorem State.charge_due (q p n : Nat) : (s.charge q p n).due = s.due := rfl
@[simp] theorem State.charge_freeCount (q p n : Nat) : (s.charge q p n).freeCount = s.freeCount := rfl
@[simp] theorem State.charge_loc (q p n : Nat) : (s.charge q p n).loc = s.loc := rfl
@[simp] theorem State.charge_ctr (q p n : Nat) : (s.charge q p n).ctr = s.ctr := rfl
@[simp] theorem State.charge_settings (q p n : Nat) : (s.charge q p n).settings = s.settings := rfl
@[simp] theorem State.charge_fuses (q p n : Nat) : (s.charge q p n).fuses = s.fuses := rfl
@[simp] theorem State.charge_bring (q p n : Nat) : (s.charge q p n).bring = s.bring := rfl
@[simp] theorem State.charge_power (q p n : Nat) : (s.charge q p n).power = { s.power with used := tblMod s.power.used (usedKey q p) (· + n) 0 } := rfl
@[simp] theorem State.charge_agent (q p n : Nat) : (s.charge q p n).agent = s.agent := rfl
@[simp] theorem State.charge_fw (q p n : Nat) : (s.charge q p n).fw = s.fw := rfl
@[simp] theorem State.charge_life (q p n : Nat) : (s.charge q p n).life = s.life := rfl
@[simp] theorem State.charge_alarms (q p n : Nat) : (s.charge q p n).alarms = s.alarms := rfl
@[simp] theorem State.charge_faults (q p n : Nat) : (s.charge q p n).faults = s.faults := rfl
@[simp] theorem State.charge_records (q p n : Nat) : (s.charge q p n).records = s.records := rfl
@[simp] theorem State.charge_keys (q p n : Nat) : (s.charge q p n).keys = s.keys := rfl
@[simp] theorem State.charge_gce (q p n : Nat) : (s.charge q p n).gce = s.gce := rfl
@[simp] theorem State.charge_random (q p n : Nat) : (s.charge q p n).random = s.random := rfl
@[simp] theorem State.charge_mem (q p n : Nat) : (s.charge q p n).mem = s.mem := rfl
@[simp] theorem State.charge_links (q p n : Nat) : (s.charge q p n).links = s.links := rfl
@[simp] theorem State.charge_chips (q p n : Nat) : (s.charge q p n).chips = s.chips := rfl
@[simp] theorem State.charge_hosts (q p n : Nat) : (s.charge q p n).hosts = s.hosts := rfl
@[simp] theorem State.charge_slots (q p n : Nat) : (s.charge q p n).slots = s.slots := rfl
@[simp] theorem State.charge_tdis (q p n : Nat) : (s.charge q p n).tdis = s.tdis := rfl
@[simp] theorem State.charge_stagingRoutes (q p n : Nat) : (s.charge q p n).stagingRoutes = s.stagingRoutes := rfl
@[simp] theorem State.charge_liveRoutes (q p n : Nat) : (s.charge q p n).liveRoutes = s.liveRoutes := rfl
@[simp] theorem State.charge_routeHold (q p n : Nat) : (s.charge q p n).routeHold = s.routeHold := rfl
@[simp] theorem State.charge_routeHeld (q p n : Nat) : (s.charge q p n).routeHeld = s.routeHeld := rfl
@[simp] theorem State.charge_otags (q p n : Nat) : (s.charge q p n).otags = s.otags := rfl
@[simp] theorem State.charge_otagNext (q p n : Nat) : (s.charge q p n).otagNext = s.otagNext := rfl
@[simp] theorem State.charge_heldOps (q p n : Nat) : (s.charge q p n).heldOps = s.heldOps := rfl
@[simp] theorem State.charge_rcache (q p n : Nat) : (s.charge q p n).rcache = s.rcache := rfl
@[simp] theorem State.charge_comb (q p n : Nat) : (s.charge q p n).comb = s.comb := rfl
@[simp] theorem State.charge_rslots (q p n : Nat) : (s.charge q p n).rslots = s.rslots := rfl
@[simp] theorem State.charge_early (q p n : Nat) : (s.charge q p n).early = s.early := rfl
@[simp] theorem State.charge_chunkRecs (q p n : Nat) : (s.charge q p n).chunkRecs = s.chunkRecs := rfl
@[simp] theorem State.charge_parts (q p n : Nat) : (s.charge q p n).parts = s.parts := rfl
@[simp] theorem State.charge_ctxs (q p n : Nat) : (s.charge q p n).ctxs = s.ctxs := rfl
@[simp] theorem State.charge_queues (q p n : Nat) : (s.charge q p n).queues = s.queues := rfl
@[simp] theorem State.charge_cmds (q p n : Nat) : (s.charge q p n).cmds = s.cmds := rfl
@[simp] theorem State.charge_cmdNext (q p n : Nat) : (s.charge q p n).cmdNext = s.cmdNext := rfl
@[simp] theorem State.charge_objs (q p n : Nat) : (s.charge q p n).objs = s.objs := rfl
@[simp] theorem State.charge_objLive (q p n : Nat) : (s.charge q p n).objLive = s.objLive := rfl
@[simp] theorem State.charge_watch (q p n : Nat) : (s.charge q p n).watch = s.watch := rfl
@[simp] theorem State.charge_trans (q p n : Nat) : (s.charge q p n).trans = s.trans := rfl
@[simp] theorem State.charge_tlb1 (q p n : Nat) : (s.charge q p n).tlb1 = s.tlb1 := rfl
@[simp] theorem State.charge_tlb2 (q p n : Nat) : (s.charge q p n).tlb2 = s.tlb2 := rfl
@[simp] theorem State.charge_walks (q p n : Nat) : (s.charge q p n).walks = s.walks := rfl
@[simp] theorem State.charge_walkTurn (q p n : Nat) : (s.charge q p n).walkTurn = s.walkTurn := rfl
@[simp] theorem State.charge_clock (q p n : Nat) : (s.charge q p n).clock = s.clock := rfl
@[simp] theorem State.charge_mapJob (q p n : Nat) : (s.charge q p n).mapJob = s.mapJob := rfl
@[simp] theorem State.charge_auOwner (q p n : Nat) : (s.charge q p n).auOwner = s.auOwner := rfl
@[simp] theorem State.charge_auQueue (q p n : Nat) : (s.charge q p n).auQueue = s.auQueue := rfl
@[simp] theorem State.charge_auLastCtx (q p n : Nat) : (s.charge q p n).auLastCtx = s.auLastCtx := rfl
@[simp] theorem State.charge_samplerPart (q p n : Nat) : (s.charge q p n).samplerPart = s.samplerPart := rfl
@[simp] theorem State.charge_samplerFifo (q p n : Nat) : (s.charge q p n).samplerFifo = s.samplerFifo := rfl
@[simp] theorem State.charge_samplerTurn (q p n : Nat) : (s.charge q p n).samplerTurn = s.samplerTurn := rfl
@[simp] theorem State.charge_samplerCmd (q p n : Nat) : (s.charge q p n).samplerCmd = s.samplerCmd := rfl
@[simp] theorem State.charge_samplers (q p n : Nat) : (s.charge q p n).samplers = s.samplers := rfl
@[simp] theorem State.charge_lanesTurn (q p n : Nat) : (s.charge q p n).lanesTurn = s.lanesTurn := rfl

/-! ## modSession -/

@[simp] theorem State.modSession_cfg (n : Nat) (f : MgmtSession → MgmtSession) : (s.modSession n f).cfg = s.cfg := rfl
@[simp] theorem State.modSession_pending (n : Nat) (f : MgmtSession → MgmtSession) : (s.modSession n f).pending = s.pending := rfl
@[simp] theorem State.modSession_out (n : Nat) (f : MgmtSession → MgmtSession) : (s.modSession n f).out = s.out := rfl
@[simp] theorem State.modSession_due (n : Nat) (f : MgmtSession → MgmtSession) : (s.modSession n f).due = s.due := rfl
@[simp] theorem State.modSession_freeCount (n : Nat) (f : MgmtSession → MgmtSession) : (s.modSession n f).freeCount = s.freeCount := rfl
@[simp] theorem State.modSession_loc (n : Nat) (f : MgmtSession → MgmtSession) : (s.modSession n f).loc = s.loc := rfl
@[simp] theorem State.modSession_ctr (n : Nat) (f : MgmtSession → MgmtSession) : (s.modSession n f).ctr = s.ctr := rfl
@[simp] theorem State.modSession_settings (n : Nat) (f : MgmtSession → MgmtSession) : (s.modSession n f).settings = s.settings := rfl
@[simp] theorem State.modSession_fuses (n : Nat) (f : MgmtSession → MgmtSession) : (s.modSession n f).fuses = s.fuses := rfl
@[simp] theorem State.modSession_bring (n : Nat) (f : MgmtSession → MgmtSession) : (s.modSession n f).bring = s.bring := rfl
@[simp] theorem State.modSession_power (n : Nat) (f : MgmtSession → MgmtSession) : (s.modSession n f).power = s.power := rfl
@[simp] theorem State.modSession_agent (n : Nat) (f : MgmtSession → MgmtSession) : (s.modSession n f).agent = { s.agent with sessions := tblMod s.agent.sessions n f {} } := rfl
@[simp] theorem State.modSession_fw (n : Nat) (f : MgmtSession → MgmtSession) : (s.modSession n f).fw = s.fw := rfl
@[simp] theorem State.modSession_life (n : Nat) (f : MgmtSession → MgmtSession) : (s.modSession n f).life = s.life := rfl
@[simp] theorem State.modSession_alarms (n : Nat) (f : MgmtSession → MgmtSession) : (s.modSession n f).alarms = s.alarms := rfl
@[simp] theorem State.modSession_faults (n : Nat) (f : MgmtSession → MgmtSession) : (s.modSession n f).faults = s.faults := rfl
@[simp] theorem State.modSession_records (n : Nat) (f : MgmtSession → MgmtSession) : (s.modSession n f).records = s.records := rfl
@[simp] theorem State.modSession_keys (n : Nat) (f : MgmtSession → MgmtSession) : (s.modSession n f).keys = s.keys := rfl
@[simp] theorem State.modSession_gce (n : Nat) (f : MgmtSession → MgmtSession) : (s.modSession n f).gce = s.gce := rfl
@[simp] theorem State.modSession_random (n : Nat) (f : MgmtSession → MgmtSession) : (s.modSession n f).random = s.random := rfl
@[simp] theorem State.modSession_mem (n : Nat) (f : MgmtSession → MgmtSession) : (s.modSession n f).mem = s.mem := rfl
@[simp] theorem State.modSession_links (n : Nat) (f : MgmtSession → MgmtSession) : (s.modSession n f).links = s.links := rfl
@[simp] theorem State.modSession_chips (n : Nat) (f : MgmtSession → MgmtSession) : (s.modSession n f).chips = s.chips := rfl
@[simp] theorem State.modSession_hosts (n : Nat) (f : MgmtSession → MgmtSession) : (s.modSession n f).hosts = s.hosts := rfl
@[simp] theorem State.modSession_slots (n : Nat) (f : MgmtSession → MgmtSession) : (s.modSession n f).slots = s.slots := rfl
@[simp] theorem State.modSession_tdis (n : Nat) (f : MgmtSession → MgmtSession) : (s.modSession n f).tdis = s.tdis := rfl
@[simp] theorem State.modSession_stagingRoutes (n : Nat) (f : MgmtSession → MgmtSession) : (s.modSession n f).stagingRoutes = s.stagingRoutes := rfl
@[simp] theorem State.modSession_liveRoutes (n : Nat) (f : MgmtSession → MgmtSession) : (s.modSession n f).liveRoutes = s.liveRoutes := rfl
@[simp] theorem State.modSession_routeHold (n : Nat) (f : MgmtSession → MgmtSession) : (s.modSession n f).routeHold = s.routeHold := rfl
@[simp] theorem State.modSession_routeHeld (n : Nat) (f : MgmtSession → MgmtSession) : (s.modSession n f).routeHeld = s.routeHeld := rfl
@[simp] theorem State.modSession_otags (n : Nat) (f : MgmtSession → MgmtSession) : (s.modSession n f).otags = s.otags := rfl
@[simp] theorem State.modSession_otagNext (n : Nat) (f : MgmtSession → MgmtSession) : (s.modSession n f).otagNext = s.otagNext := rfl
@[simp] theorem State.modSession_heldOps (n : Nat) (f : MgmtSession → MgmtSession) : (s.modSession n f).heldOps = s.heldOps := rfl
@[simp] theorem State.modSession_rcache (n : Nat) (f : MgmtSession → MgmtSession) : (s.modSession n f).rcache = s.rcache := rfl
@[simp] theorem State.modSession_comb (n : Nat) (f : MgmtSession → MgmtSession) : (s.modSession n f).comb = s.comb := rfl
@[simp] theorem State.modSession_rslots (n : Nat) (f : MgmtSession → MgmtSession) : (s.modSession n f).rslots = s.rslots := rfl
@[simp] theorem State.modSession_early (n : Nat) (f : MgmtSession → MgmtSession) : (s.modSession n f).early = s.early := rfl
@[simp] theorem State.modSession_chunkRecs (n : Nat) (f : MgmtSession → MgmtSession) : (s.modSession n f).chunkRecs = s.chunkRecs := rfl
@[simp] theorem State.modSession_parts (n : Nat) (f : MgmtSession → MgmtSession) : (s.modSession n f).parts = s.parts := rfl
@[simp] theorem State.modSession_ctxs (n : Nat) (f : MgmtSession → MgmtSession) : (s.modSession n f).ctxs = s.ctxs := rfl
@[simp] theorem State.modSession_queues (n : Nat) (f : MgmtSession → MgmtSession) : (s.modSession n f).queues = s.queues := rfl
@[simp] theorem State.modSession_cmds (n : Nat) (f : MgmtSession → MgmtSession) : (s.modSession n f).cmds = s.cmds := rfl
@[simp] theorem State.modSession_cmdNext (n : Nat) (f : MgmtSession → MgmtSession) : (s.modSession n f).cmdNext = s.cmdNext := rfl
@[simp] theorem State.modSession_objs (n : Nat) (f : MgmtSession → MgmtSession) : (s.modSession n f).objs = s.objs := rfl
@[simp] theorem State.modSession_objLive (n : Nat) (f : MgmtSession → MgmtSession) : (s.modSession n f).objLive = s.objLive := rfl
@[simp] theorem State.modSession_watch (n : Nat) (f : MgmtSession → MgmtSession) : (s.modSession n f).watch = s.watch := rfl
@[simp] theorem State.modSession_trans (n : Nat) (f : MgmtSession → MgmtSession) : (s.modSession n f).trans = s.trans := rfl
@[simp] theorem State.modSession_tlb1 (n : Nat) (f : MgmtSession → MgmtSession) : (s.modSession n f).tlb1 = s.tlb1 := rfl
@[simp] theorem State.modSession_tlb2 (n : Nat) (f : MgmtSession → MgmtSession) : (s.modSession n f).tlb2 = s.tlb2 := rfl
@[simp] theorem State.modSession_walks (n : Nat) (f : MgmtSession → MgmtSession) : (s.modSession n f).walks = s.walks := rfl
@[simp] theorem State.modSession_walkTurn (n : Nat) (f : MgmtSession → MgmtSession) : (s.modSession n f).walkTurn = s.walkTurn := rfl
@[simp] theorem State.modSession_clock (n : Nat) (f : MgmtSession → MgmtSession) : (s.modSession n f).clock = s.clock := rfl
@[simp] theorem State.modSession_mapJob (n : Nat) (f : MgmtSession → MgmtSession) : (s.modSession n f).mapJob = s.mapJob := rfl
@[simp] theorem State.modSession_auOwner (n : Nat) (f : MgmtSession → MgmtSession) : (s.modSession n f).auOwner = s.auOwner := rfl
@[simp] theorem State.modSession_auQueue (n : Nat) (f : MgmtSession → MgmtSession) : (s.modSession n f).auQueue = s.auQueue := rfl
@[simp] theorem State.modSession_auLastCtx (n : Nat) (f : MgmtSession → MgmtSession) : (s.modSession n f).auLastCtx = s.auLastCtx := rfl
@[simp] theorem State.modSession_samplerPart (n : Nat) (f : MgmtSession → MgmtSession) : (s.modSession n f).samplerPart = s.samplerPart := rfl
@[simp] theorem State.modSession_samplerFifo (n : Nat) (f : MgmtSession → MgmtSession) : (s.modSession n f).samplerFifo = s.samplerFifo := rfl
@[simp] theorem State.modSession_samplerTurn (n : Nat) (f : MgmtSession → MgmtSession) : (s.modSession n f).samplerTurn = s.samplerTurn := rfl
@[simp] theorem State.modSession_samplerCmd (n : Nat) (f : MgmtSession → MgmtSession) : (s.modSession n f).samplerCmd = s.samplerCmd := rfl
@[simp] theorem State.modSession_samplers (n : Nat) (f : MgmtSession → MgmtSession) : (s.modSession n f).samplers = s.samplers := rfl
@[simp] theorem State.modSession_lanesTurn (n : Nat) (f : MgmtSession → MgmtSession) : (s.modSession n f).lanesTurn = s.lanesTurn := rfl

/-! ## modPort -/

@[simp] theorem State.modPort_cfg (m : Nat) (f : MemPort → MemPort) : (s.modPort m f).cfg = s.cfg := rfl
@[simp] theorem State.modPort_pending (m : Nat) (f : MemPort → MemPort) : (s.modPort m f).pending = s.pending := rfl
@[simp] theorem State.modPort_out (m : Nat) (f : MemPort → MemPort) : (s.modPort m f).out = s.out := rfl
@[simp] theorem State.modPort_due (m : Nat) (f : MemPort → MemPort) : (s.modPort m f).due = s.due := rfl
@[simp] theorem State.modPort_freeCount (m : Nat) (f : MemPort → MemPort) : (s.modPort m f).freeCount = s.freeCount := rfl
@[simp] theorem State.modPort_loc (m : Nat) (f : MemPort → MemPort) : (s.modPort m f).loc = s.loc := rfl
@[simp] theorem State.modPort_ctr (m : Nat) (f : MemPort → MemPort) : (s.modPort m f).ctr = s.ctr := rfl
@[simp] theorem State.modPort_settings (m : Nat) (f : MemPort → MemPort) : (s.modPort m f).settings = s.settings := rfl
@[simp] theorem State.modPort_fuses (m : Nat) (f : MemPort → MemPort) : (s.modPort m f).fuses = s.fuses := rfl
@[simp] theorem State.modPort_bring (m : Nat) (f : MemPort → MemPort) : (s.modPort m f).bring = s.bring := rfl
@[simp] theorem State.modPort_power (m : Nat) (f : MemPort → MemPort) : (s.modPort m f).power = s.power := rfl
@[simp] theorem State.modPort_agent (m : Nat) (f : MemPort → MemPort) : (s.modPort m f).agent = s.agent := rfl
@[simp] theorem State.modPort_fw (m : Nat) (f : MemPort → MemPort) : (s.modPort m f).fw = s.fw := rfl
@[simp] theorem State.modPort_life (m : Nat) (f : MemPort → MemPort) : (s.modPort m f).life = s.life := rfl
@[simp] theorem State.modPort_alarms (m : Nat) (f : MemPort → MemPort) : (s.modPort m f).alarms = s.alarms := rfl
@[simp] theorem State.modPort_faults (m : Nat) (f : MemPort → MemPort) : (s.modPort m f).faults = s.faults := rfl
@[simp] theorem State.modPort_records (m : Nat) (f : MemPort → MemPort) : (s.modPort m f).records = s.records := rfl
@[simp] theorem State.modPort_keys (m : Nat) (f : MemPort → MemPort) : (s.modPort m f).keys = s.keys := rfl
@[simp] theorem State.modPort_gce (m : Nat) (f : MemPort → MemPort) : (s.modPort m f).gce = s.gce := rfl
@[simp] theorem State.modPort_random (m : Nat) (f : MemPort → MemPort) : (s.modPort m f).random = s.random := rfl
@[simp] theorem State.modPort_mem (m : Nat) (f : MemPort → MemPort) : (s.modPort m f).mem = tblMod s.mem m f {} := rfl
@[simp] theorem State.modPort_links (m : Nat) (f : MemPort → MemPort) : (s.modPort m f).links = s.links := rfl
@[simp] theorem State.modPort_chips (m : Nat) (f : MemPort → MemPort) : (s.modPort m f).chips = s.chips := rfl
@[simp] theorem State.modPort_hosts (m : Nat) (f : MemPort → MemPort) : (s.modPort m f).hosts = s.hosts := rfl
@[simp] theorem State.modPort_slots (m : Nat) (f : MemPort → MemPort) : (s.modPort m f).slots = s.slots := rfl
@[simp] theorem State.modPort_tdis (m : Nat) (f : MemPort → MemPort) : (s.modPort m f).tdis = s.tdis := rfl
@[simp] theorem State.modPort_stagingRoutes (m : Nat) (f : MemPort → MemPort) : (s.modPort m f).stagingRoutes = s.stagingRoutes := rfl
@[simp] theorem State.modPort_liveRoutes (m : Nat) (f : MemPort → MemPort) : (s.modPort m f).liveRoutes = s.liveRoutes := rfl
@[simp] theorem State.modPort_routeHold (m : Nat) (f : MemPort → MemPort) : (s.modPort m f).routeHold = s.routeHold := rfl
@[simp] theorem State.modPort_routeHeld (m : Nat) (f : MemPort → MemPort) : (s.modPort m f).routeHeld = s.routeHeld := rfl
@[simp] theorem State.modPort_otags (m : Nat) (f : MemPort → MemPort) : (s.modPort m f).otags = s.otags := rfl
@[simp] theorem State.modPort_otagNext (m : Nat) (f : MemPort → MemPort) : (s.modPort m f).otagNext = s.otagNext := rfl
@[simp] theorem State.modPort_heldOps (m : Nat) (f : MemPort → MemPort) : (s.modPort m f).heldOps = s.heldOps := rfl
@[simp] theorem State.modPort_rcache (m : Nat) (f : MemPort → MemPort) : (s.modPort m f).rcache = s.rcache := rfl
@[simp] theorem State.modPort_comb (m : Nat) (f : MemPort → MemPort) : (s.modPort m f).comb = s.comb := rfl
@[simp] theorem State.modPort_rslots (m : Nat) (f : MemPort → MemPort) : (s.modPort m f).rslots = s.rslots := rfl
@[simp] theorem State.modPort_early (m : Nat) (f : MemPort → MemPort) : (s.modPort m f).early = s.early := rfl
@[simp] theorem State.modPort_chunkRecs (m : Nat) (f : MemPort → MemPort) : (s.modPort m f).chunkRecs = s.chunkRecs := rfl
@[simp] theorem State.modPort_parts (m : Nat) (f : MemPort → MemPort) : (s.modPort m f).parts = s.parts := rfl
@[simp] theorem State.modPort_ctxs (m : Nat) (f : MemPort → MemPort) : (s.modPort m f).ctxs = s.ctxs := rfl
@[simp] theorem State.modPort_queues (m : Nat) (f : MemPort → MemPort) : (s.modPort m f).queues = s.queues := rfl
@[simp] theorem State.modPort_cmds (m : Nat) (f : MemPort → MemPort) : (s.modPort m f).cmds = s.cmds := rfl
@[simp] theorem State.modPort_cmdNext (m : Nat) (f : MemPort → MemPort) : (s.modPort m f).cmdNext = s.cmdNext := rfl
@[simp] theorem State.modPort_objs (m : Nat) (f : MemPort → MemPort) : (s.modPort m f).objs = s.objs := rfl
@[simp] theorem State.modPort_objLive (m : Nat) (f : MemPort → MemPort) : (s.modPort m f).objLive = s.objLive := rfl
@[simp] theorem State.modPort_watch (m : Nat) (f : MemPort → MemPort) : (s.modPort m f).watch = s.watch := rfl
@[simp] theorem State.modPort_trans (m : Nat) (f : MemPort → MemPort) : (s.modPort m f).trans = s.trans := rfl
@[simp] theorem State.modPort_tlb1 (m : Nat) (f : MemPort → MemPort) : (s.modPort m f).tlb1 = s.tlb1 := rfl
@[simp] theorem State.modPort_tlb2 (m : Nat) (f : MemPort → MemPort) : (s.modPort m f).tlb2 = s.tlb2 := rfl
@[simp] theorem State.modPort_walks (m : Nat) (f : MemPort → MemPort) : (s.modPort m f).walks = s.walks := rfl
@[simp] theorem State.modPort_walkTurn (m : Nat) (f : MemPort → MemPort) : (s.modPort m f).walkTurn = s.walkTurn := rfl
@[simp] theorem State.modPort_clock (m : Nat) (f : MemPort → MemPort) : (s.modPort m f).clock = s.clock := rfl
@[simp] theorem State.modPort_mapJob (m : Nat) (f : MemPort → MemPort) : (s.modPort m f).mapJob = s.mapJob := rfl
@[simp] theorem State.modPort_auOwner (m : Nat) (f : MemPort → MemPort) : (s.modPort m f).auOwner = s.auOwner := rfl
@[simp] theorem State.modPort_auQueue (m : Nat) (f : MemPort → MemPort) : (s.modPort m f).auQueue = s.auQueue := rfl
@[simp] theorem State.modPort_auLastCtx (m : Nat) (f : MemPort → MemPort) : (s.modPort m f).auLastCtx = s.auLastCtx := rfl
@[simp] theorem State.modPort_samplerPart (m : Nat) (f : MemPort → MemPort) : (s.modPort m f).samplerPart = s.samplerPart := rfl
@[simp] theorem State.modPort_samplerFifo (m : Nat) (f : MemPort → MemPort) : (s.modPort m f).samplerFifo = s.samplerFifo := rfl
@[simp] theorem State.modPort_samplerTurn (m : Nat) (f : MemPort → MemPort) : (s.modPort m f).samplerTurn = s.samplerTurn := rfl
@[simp] theorem State.modPort_samplerCmd (m : Nat) (f : MemPort → MemPort) : (s.modPort m f).samplerCmd = s.samplerCmd := rfl
@[simp] theorem State.modPort_samplers (m : Nat) (f : MemPort → MemPort) : (s.modPort m f).samplers = s.samplers := rfl
@[simp] theorem State.modPort_lanesTurn (m : Nat) (f : MemPort → MemPort) : (s.modPort m f).lanesTurn = s.lanesTurn := rfl

/-! ## modLink -/

@[simp] theorem State.modLink_cfg (l : Nat) (f : Link → Link) : (s.modLink l f).cfg = s.cfg := rfl
@[simp] theorem State.modLink_pending (l : Nat) (f : Link → Link) : (s.modLink l f).pending = s.pending := rfl
@[simp] theorem State.modLink_out (l : Nat) (f : Link → Link) : (s.modLink l f).out = s.out := rfl
@[simp] theorem State.modLink_due (l : Nat) (f : Link → Link) : (s.modLink l f).due = s.due := rfl
@[simp] theorem State.modLink_freeCount (l : Nat) (f : Link → Link) : (s.modLink l f).freeCount = s.freeCount := rfl
@[simp] theorem State.modLink_loc (l : Nat) (f : Link → Link) : (s.modLink l f).loc = s.loc := rfl
@[simp] theorem State.modLink_ctr (l : Nat) (f : Link → Link) : (s.modLink l f).ctr = s.ctr := rfl
@[simp] theorem State.modLink_settings (l : Nat) (f : Link → Link) : (s.modLink l f).settings = s.settings := rfl
@[simp] theorem State.modLink_fuses (l : Nat) (f : Link → Link) : (s.modLink l f).fuses = s.fuses := rfl
@[simp] theorem State.modLink_bring (l : Nat) (f : Link → Link) : (s.modLink l f).bring = s.bring := rfl
@[simp] theorem State.modLink_power (l : Nat) (f : Link → Link) : (s.modLink l f).power = s.power := rfl
@[simp] theorem State.modLink_agent (l : Nat) (f : Link → Link) : (s.modLink l f).agent = s.agent := rfl
@[simp] theorem State.modLink_fw (l : Nat) (f : Link → Link) : (s.modLink l f).fw = s.fw := rfl
@[simp] theorem State.modLink_life (l : Nat) (f : Link → Link) : (s.modLink l f).life = s.life := rfl
@[simp] theorem State.modLink_alarms (l : Nat) (f : Link → Link) : (s.modLink l f).alarms = s.alarms := rfl
@[simp] theorem State.modLink_faults (l : Nat) (f : Link → Link) : (s.modLink l f).faults = s.faults := rfl
@[simp] theorem State.modLink_records (l : Nat) (f : Link → Link) : (s.modLink l f).records = s.records := rfl
@[simp] theorem State.modLink_keys (l : Nat) (f : Link → Link) : (s.modLink l f).keys = s.keys := rfl
@[simp] theorem State.modLink_gce (l : Nat) (f : Link → Link) : (s.modLink l f).gce = s.gce := rfl
@[simp] theorem State.modLink_random (l : Nat) (f : Link → Link) : (s.modLink l f).random = s.random := rfl
@[simp] theorem State.modLink_mem (l : Nat) (f : Link → Link) : (s.modLink l f).mem = s.mem := rfl
@[simp] theorem State.modLink_links (l : Nat) (f : Link → Link) : (s.modLink l f).links = tblMod s.links l f {} := rfl
@[simp] theorem State.modLink_chips (l : Nat) (f : Link → Link) : (s.modLink l f).chips = s.chips := rfl
@[simp] theorem State.modLink_hosts (l : Nat) (f : Link → Link) : (s.modLink l f).hosts = s.hosts := rfl
@[simp] theorem State.modLink_slots (l : Nat) (f : Link → Link) : (s.modLink l f).slots = s.slots := rfl
@[simp] theorem State.modLink_tdis (l : Nat) (f : Link → Link) : (s.modLink l f).tdis = s.tdis := rfl
@[simp] theorem State.modLink_stagingRoutes (l : Nat) (f : Link → Link) : (s.modLink l f).stagingRoutes = s.stagingRoutes := rfl
@[simp] theorem State.modLink_liveRoutes (l : Nat) (f : Link → Link) : (s.modLink l f).liveRoutes = s.liveRoutes := rfl
@[simp] theorem State.modLink_routeHold (l : Nat) (f : Link → Link) : (s.modLink l f).routeHold = s.routeHold := rfl
@[simp] theorem State.modLink_routeHeld (l : Nat) (f : Link → Link) : (s.modLink l f).routeHeld = s.routeHeld := rfl
@[simp] theorem State.modLink_otags (l : Nat) (f : Link → Link) : (s.modLink l f).otags = s.otags := rfl
@[simp] theorem State.modLink_otagNext (l : Nat) (f : Link → Link) : (s.modLink l f).otagNext = s.otagNext := rfl
@[simp] theorem State.modLink_heldOps (l : Nat) (f : Link → Link) : (s.modLink l f).heldOps = s.heldOps := rfl
@[simp] theorem State.modLink_rcache (l : Nat) (f : Link → Link) : (s.modLink l f).rcache = s.rcache := rfl
@[simp] theorem State.modLink_comb (l : Nat) (f : Link → Link) : (s.modLink l f).comb = s.comb := rfl
@[simp] theorem State.modLink_rslots (l : Nat) (f : Link → Link) : (s.modLink l f).rslots = s.rslots := rfl
@[simp] theorem State.modLink_early (l : Nat) (f : Link → Link) : (s.modLink l f).early = s.early := rfl
@[simp] theorem State.modLink_chunkRecs (l : Nat) (f : Link → Link) : (s.modLink l f).chunkRecs = s.chunkRecs := rfl
@[simp] theorem State.modLink_parts (l : Nat) (f : Link → Link) : (s.modLink l f).parts = s.parts := rfl
@[simp] theorem State.modLink_ctxs (l : Nat) (f : Link → Link) : (s.modLink l f).ctxs = s.ctxs := rfl
@[simp] theorem State.modLink_queues (l : Nat) (f : Link → Link) : (s.modLink l f).queues = s.queues := rfl
@[simp] theorem State.modLink_cmds (l : Nat) (f : Link → Link) : (s.modLink l f).cmds = s.cmds := rfl
@[simp] theorem State.modLink_cmdNext (l : Nat) (f : Link → Link) : (s.modLink l f).cmdNext = s.cmdNext := rfl
@[simp] theorem State.modLink_objs (l : Nat) (f : Link → Link) : (s.modLink l f).objs = s.objs := rfl
@[simp] theorem State.modLink_objLive (l : Nat) (f : Link → Link) : (s.modLink l f).objLive = s.objLive := rfl
@[simp] theorem State.modLink_watch (l : Nat) (f : Link → Link) : (s.modLink l f).watch = s.watch := rfl
@[simp] theorem State.modLink_trans (l : Nat) (f : Link → Link) : (s.modLink l f).trans = s.trans := rfl
@[simp] theorem State.modLink_tlb1 (l : Nat) (f : Link → Link) : (s.modLink l f).tlb1 = s.tlb1 := rfl
@[simp] theorem State.modLink_tlb2 (l : Nat) (f : Link → Link) : (s.modLink l f).tlb2 = s.tlb2 := rfl
@[simp] theorem State.modLink_walks (l : Nat) (f : Link → Link) : (s.modLink l f).walks = s.walks := rfl
@[simp] theorem State.modLink_walkTurn (l : Nat) (f : Link → Link) : (s.modLink l f).walkTurn = s.walkTurn := rfl
@[simp] theorem State.modLink_clock (l : Nat) (f : Link → Link) : (s.modLink l f).clock = s.clock := rfl
@[simp] theorem State.modLink_mapJob (l : Nat) (f : Link → Link) : (s.modLink l f).mapJob = s.mapJob := rfl
@[simp] theorem State.modLink_auOwner (l : Nat) (f : Link → Link) : (s.modLink l f).auOwner = s.auOwner := rfl
@[simp] theorem State.modLink_auQueue (l : Nat) (f : Link → Link) : (s.modLink l f).auQueue = s.auQueue := rfl
@[simp] theorem State.modLink_auLastCtx (l : Nat) (f : Link → Link) : (s.modLink l f).auLastCtx = s.auLastCtx := rfl
@[simp] theorem State.modLink_samplerPart (l : Nat) (f : Link → Link) : (s.modLink l f).samplerPart = s.samplerPart := rfl
@[simp] theorem State.modLink_samplerFifo (l : Nat) (f : Link → Link) : (s.modLink l f).samplerFifo = s.samplerFifo := rfl
@[simp] theorem State.modLink_samplerTurn (l : Nat) (f : Link → Link) : (s.modLink l f).samplerTurn = s.samplerTurn := rfl
@[simp] theorem State.modLink_samplerCmd (l : Nat) (f : Link → Link) : (s.modLink l f).samplerCmd = s.samplerCmd := rfl
@[simp] theorem State.modLink_samplers (l : Nat) (f : Link → Link) : (s.modLink l f).samplers = s.samplers := rfl
@[simp] theorem State.modLink_lanesTurn (l : Nat) (f : Link → Link) : (s.modLink l f).lanesTurn = s.lanesTurn := rfl

/-! ## modChip -/

@[simp] theorem State.modChip_cfg (c : Nat) (f : Chip → Chip) : (s.modChip c f).cfg = s.cfg := rfl
@[simp] theorem State.modChip_pending (c : Nat) (f : Chip → Chip) : (s.modChip c f).pending = s.pending := rfl
@[simp] theorem State.modChip_out (c : Nat) (f : Chip → Chip) : (s.modChip c f).out = s.out := rfl
@[simp] theorem State.modChip_due (c : Nat) (f : Chip → Chip) : (s.modChip c f).due = s.due := rfl
@[simp] theorem State.modChip_freeCount (c : Nat) (f : Chip → Chip) : (s.modChip c f).freeCount = s.freeCount := rfl
@[simp] theorem State.modChip_loc (c : Nat) (f : Chip → Chip) : (s.modChip c f).loc = s.loc := rfl
@[simp] theorem State.modChip_ctr (c : Nat) (f : Chip → Chip) : (s.modChip c f).ctr = s.ctr := rfl
@[simp] theorem State.modChip_settings (c : Nat) (f : Chip → Chip) : (s.modChip c f).settings = s.settings := rfl
@[simp] theorem State.modChip_fuses (c : Nat) (f : Chip → Chip) : (s.modChip c f).fuses = s.fuses := rfl
@[simp] theorem State.modChip_bring (c : Nat) (f : Chip → Chip) : (s.modChip c f).bring = s.bring := rfl
@[simp] theorem State.modChip_power (c : Nat) (f : Chip → Chip) : (s.modChip c f).power = s.power := rfl
@[simp] theorem State.modChip_agent (c : Nat) (f : Chip → Chip) : (s.modChip c f).agent = s.agent := rfl
@[simp] theorem State.modChip_fw (c : Nat) (f : Chip → Chip) : (s.modChip c f).fw = s.fw := rfl
@[simp] theorem State.modChip_life (c : Nat) (f : Chip → Chip) : (s.modChip c f).life = s.life := rfl
@[simp] theorem State.modChip_alarms (c : Nat) (f : Chip → Chip) : (s.modChip c f).alarms = s.alarms := rfl
@[simp] theorem State.modChip_faults (c : Nat) (f : Chip → Chip) : (s.modChip c f).faults = s.faults := rfl
@[simp] theorem State.modChip_records (c : Nat) (f : Chip → Chip) : (s.modChip c f).records = s.records := rfl
@[simp] theorem State.modChip_keys (c : Nat) (f : Chip → Chip) : (s.modChip c f).keys = s.keys := rfl
@[simp] theorem State.modChip_gce (c : Nat) (f : Chip → Chip) : (s.modChip c f).gce = s.gce := rfl
@[simp] theorem State.modChip_random (c : Nat) (f : Chip → Chip) : (s.modChip c f).random = s.random := rfl
@[simp] theorem State.modChip_mem (c : Nat) (f : Chip → Chip) : (s.modChip c f).mem = s.mem := rfl
@[simp] theorem State.modChip_links (c : Nat) (f : Chip → Chip) : (s.modChip c f).links = s.links := rfl
@[simp] theorem State.modChip_chips (c : Nat) (f : Chip → Chip) : (s.modChip c f).chips = tblMod s.chips c f {} := rfl
@[simp] theorem State.modChip_hosts (c : Nat) (f : Chip → Chip) : (s.modChip c f).hosts = s.hosts := rfl
@[simp] theorem State.modChip_slots (c : Nat) (f : Chip → Chip) : (s.modChip c f).slots = s.slots := rfl
@[simp] theorem State.modChip_tdis (c : Nat) (f : Chip → Chip) : (s.modChip c f).tdis = s.tdis := rfl
@[simp] theorem State.modChip_stagingRoutes (c : Nat) (f : Chip → Chip) : (s.modChip c f).stagingRoutes = s.stagingRoutes := rfl
@[simp] theorem State.modChip_liveRoutes (c : Nat) (f : Chip → Chip) : (s.modChip c f).liveRoutes = s.liveRoutes := rfl
@[simp] theorem State.modChip_routeHold (c : Nat) (f : Chip → Chip) : (s.modChip c f).routeHold = s.routeHold := rfl
@[simp] theorem State.modChip_routeHeld (c : Nat) (f : Chip → Chip) : (s.modChip c f).routeHeld = s.routeHeld := rfl
@[simp] theorem State.modChip_otags (c : Nat) (f : Chip → Chip) : (s.modChip c f).otags = s.otags := rfl
@[simp] theorem State.modChip_otagNext (c : Nat) (f : Chip → Chip) : (s.modChip c f).otagNext = s.otagNext := rfl
@[simp] theorem State.modChip_heldOps (c : Nat) (f : Chip → Chip) : (s.modChip c f).heldOps = s.heldOps := rfl
@[simp] theorem State.modChip_rcache (c : Nat) (f : Chip → Chip) : (s.modChip c f).rcache = s.rcache := rfl
@[simp] theorem State.modChip_comb (c : Nat) (f : Chip → Chip) : (s.modChip c f).comb = s.comb := rfl
@[simp] theorem State.modChip_rslots (c : Nat) (f : Chip → Chip) : (s.modChip c f).rslots = s.rslots := rfl
@[simp] theorem State.modChip_early (c : Nat) (f : Chip → Chip) : (s.modChip c f).early = s.early := rfl
@[simp] theorem State.modChip_chunkRecs (c : Nat) (f : Chip → Chip) : (s.modChip c f).chunkRecs = s.chunkRecs := rfl
@[simp] theorem State.modChip_parts (c : Nat) (f : Chip → Chip) : (s.modChip c f).parts = s.parts := rfl
@[simp] theorem State.modChip_ctxs (c : Nat) (f : Chip → Chip) : (s.modChip c f).ctxs = s.ctxs := rfl
@[simp] theorem State.modChip_queues (c : Nat) (f : Chip → Chip) : (s.modChip c f).queues = s.queues := rfl
@[simp] theorem State.modChip_cmds (c : Nat) (f : Chip → Chip) : (s.modChip c f).cmds = s.cmds := rfl
@[simp] theorem State.modChip_cmdNext (c : Nat) (f : Chip → Chip) : (s.modChip c f).cmdNext = s.cmdNext := rfl
@[simp] theorem State.modChip_objs (c : Nat) (f : Chip → Chip) : (s.modChip c f).objs = s.objs := rfl
@[simp] theorem State.modChip_objLive (c : Nat) (f : Chip → Chip) : (s.modChip c f).objLive = s.objLive := rfl
@[simp] theorem State.modChip_watch (c : Nat) (f : Chip → Chip) : (s.modChip c f).watch = s.watch := rfl
@[simp] theorem State.modChip_trans (c : Nat) (f : Chip → Chip) : (s.modChip c f).trans = s.trans := rfl
@[simp] theorem State.modChip_tlb1 (c : Nat) (f : Chip → Chip) : (s.modChip c f).tlb1 = s.tlb1 := rfl
@[simp] theorem State.modChip_tlb2 (c : Nat) (f : Chip → Chip) : (s.modChip c f).tlb2 = s.tlb2 := rfl
@[simp] theorem State.modChip_walks (c : Nat) (f : Chip → Chip) : (s.modChip c f).walks = s.walks := rfl
@[simp] theorem State.modChip_walkTurn (c : Nat) (f : Chip → Chip) : (s.modChip c f).walkTurn = s.walkTurn := rfl
@[simp] theorem State.modChip_clock (c : Nat) (f : Chip → Chip) : (s.modChip c f).clock = s.clock := rfl
@[simp] theorem State.modChip_mapJob (c : Nat) (f : Chip → Chip) : (s.modChip c f).mapJob = s.mapJob := rfl
@[simp] theorem State.modChip_auOwner (c : Nat) (f : Chip → Chip) : (s.modChip c f).auOwner = s.auOwner := rfl
@[simp] theorem State.modChip_auQueue (c : Nat) (f : Chip → Chip) : (s.modChip c f).auQueue = s.auQueue := rfl
@[simp] theorem State.modChip_auLastCtx (c : Nat) (f : Chip → Chip) : (s.modChip c f).auLastCtx = s.auLastCtx := rfl
@[simp] theorem State.modChip_samplerPart (c : Nat) (f : Chip → Chip) : (s.modChip c f).samplerPart = s.samplerPart := rfl
@[simp] theorem State.modChip_samplerFifo (c : Nat) (f : Chip → Chip) : (s.modChip c f).samplerFifo = s.samplerFifo := rfl
@[simp] theorem State.modChip_samplerTurn (c : Nat) (f : Chip → Chip) : (s.modChip c f).samplerTurn = s.samplerTurn := rfl
@[simp] theorem State.modChip_samplerCmd (c : Nat) (f : Chip → Chip) : (s.modChip c f).samplerCmd = s.samplerCmd := rfl
@[simp] theorem State.modChip_samplers (c : Nat) (f : Chip → Chip) : (s.modChip c f).samplers = s.samplers := rfl
@[simp] theorem State.modChip_lanesTurn (c : Nat) (f : Chip → Chip) : (s.modChip c f).lanesTurn = s.lanesTurn := rfl

/-! ## modHost -/

@[simp] theorem State.modHost_cfg (h : Nat) (f : HostPort → HostPort) : (s.modHost h f).cfg = s.cfg := rfl
@[simp] theorem State.modHost_pending (h : Nat) (f : HostPort → HostPort) : (s.modHost h f).pending = s.pending := rfl
@[simp] theorem State.modHost_out (h : Nat) (f : HostPort → HostPort) : (s.modHost h f).out = s.out := rfl
@[simp] theorem State.modHost_due (h : Nat) (f : HostPort → HostPort) : (s.modHost h f).due = s.due := rfl
@[simp] theorem State.modHost_freeCount (h : Nat) (f : HostPort → HostPort) : (s.modHost h f).freeCount = s.freeCount := rfl
@[simp] theorem State.modHost_loc (h : Nat) (f : HostPort → HostPort) : (s.modHost h f).loc = s.loc := rfl
@[simp] theorem State.modHost_ctr (h : Nat) (f : HostPort → HostPort) : (s.modHost h f).ctr = s.ctr := rfl
@[simp] theorem State.modHost_settings (h : Nat) (f : HostPort → HostPort) : (s.modHost h f).settings = s.settings := rfl
@[simp] theorem State.modHost_fuses (h : Nat) (f : HostPort → HostPort) : (s.modHost h f).fuses = s.fuses := rfl
@[simp] theorem State.modHost_bring (h : Nat) (f : HostPort → HostPort) : (s.modHost h f).bring = s.bring := rfl
@[simp] theorem State.modHost_power (h : Nat) (f : HostPort → HostPort) : (s.modHost h f).power = s.power := rfl
@[simp] theorem State.modHost_agent (h : Nat) (f : HostPort → HostPort) : (s.modHost h f).agent = s.agent := rfl
@[simp] theorem State.modHost_fw (h : Nat) (f : HostPort → HostPort) : (s.modHost h f).fw = s.fw := rfl
@[simp] theorem State.modHost_life (h : Nat) (f : HostPort → HostPort) : (s.modHost h f).life = s.life := rfl
@[simp] theorem State.modHost_alarms (h : Nat) (f : HostPort → HostPort) : (s.modHost h f).alarms = s.alarms := rfl
@[simp] theorem State.modHost_faults (h : Nat) (f : HostPort → HostPort) : (s.modHost h f).faults = s.faults := rfl
@[simp] theorem State.modHost_records (h : Nat) (f : HostPort → HostPort) : (s.modHost h f).records = s.records := rfl
@[simp] theorem State.modHost_keys (h : Nat) (f : HostPort → HostPort) : (s.modHost h f).keys = s.keys := rfl
@[simp] theorem State.modHost_gce (h : Nat) (f : HostPort → HostPort) : (s.modHost h f).gce = s.gce := rfl
@[simp] theorem State.modHost_random (h : Nat) (f : HostPort → HostPort) : (s.modHost h f).random = s.random := rfl
@[simp] theorem State.modHost_mem (h : Nat) (f : HostPort → HostPort) : (s.modHost h f).mem = s.mem := rfl
@[simp] theorem State.modHost_links (h : Nat) (f : HostPort → HostPort) : (s.modHost h f).links = s.links := rfl
@[simp] theorem State.modHost_chips (h : Nat) (f : HostPort → HostPort) : (s.modHost h f).chips = s.chips := rfl
@[simp] theorem State.modHost_hosts (h : Nat) (f : HostPort → HostPort) : (s.modHost h f).hosts = tblMod s.hosts h f {} := rfl
@[simp] theorem State.modHost_slots (h : Nat) (f : HostPort → HostPort) : (s.modHost h f).slots = s.slots := rfl
@[simp] theorem State.modHost_tdis (h : Nat) (f : HostPort → HostPort) : (s.modHost h f).tdis = s.tdis := rfl
@[simp] theorem State.modHost_stagingRoutes (h : Nat) (f : HostPort → HostPort) : (s.modHost h f).stagingRoutes = s.stagingRoutes := rfl
@[simp] theorem State.modHost_liveRoutes (h : Nat) (f : HostPort → HostPort) : (s.modHost h f).liveRoutes = s.liveRoutes := rfl
@[simp] theorem State.modHost_routeHold (h : Nat) (f : HostPort → HostPort) : (s.modHost h f).routeHold = s.routeHold := rfl
@[simp] theorem State.modHost_routeHeld (h : Nat) (f : HostPort → HostPort) : (s.modHost h f).routeHeld = s.routeHeld := rfl
@[simp] theorem State.modHost_otags (h : Nat) (f : HostPort → HostPort) : (s.modHost h f).otags = s.otags := rfl
@[simp] theorem State.modHost_otagNext (h : Nat) (f : HostPort → HostPort) : (s.modHost h f).otagNext = s.otagNext := rfl
@[simp] theorem State.modHost_heldOps (h : Nat) (f : HostPort → HostPort) : (s.modHost h f).heldOps = s.heldOps := rfl
@[simp] theorem State.modHost_rcache (h : Nat) (f : HostPort → HostPort) : (s.modHost h f).rcache = s.rcache := rfl
@[simp] theorem State.modHost_comb (h : Nat) (f : HostPort → HostPort) : (s.modHost h f).comb = s.comb := rfl
@[simp] theorem State.modHost_rslots (h : Nat) (f : HostPort → HostPort) : (s.modHost h f).rslots = s.rslots := rfl
@[simp] theorem State.modHost_early (h : Nat) (f : HostPort → HostPort) : (s.modHost h f).early = s.early := rfl
@[simp] theorem State.modHost_chunkRecs (h : Nat) (f : HostPort → HostPort) : (s.modHost h f).chunkRecs = s.chunkRecs := rfl
@[simp] theorem State.modHost_parts (h : Nat) (f : HostPort → HostPort) : (s.modHost h f).parts = s.parts := rfl
@[simp] theorem State.modHost_ctxs (h : Nat) (f : HostPort → HostPort) : (s.modHost h f).ctxs = s.ctxs := rfl
@[simp] theorem State.modHost_queues (h : Nat) (f : HostPort → HostPort) : (s.modHost h f).queues = s.queues := rfl
@[simp] theorem State.modHost_cmds (h : Nat) (f : HostPort → HostPort) : (s.modHost h f).cmds = s.cmds := rfl
@[simp] theorem State.modHost_cmdNext (h : Nat) (f : HostPort → HostPort) : (s.modHost h f).cmdNext = s.cmdNext := rfl
@[simp] theorem State.modHost_objs (h : Nat) (f : HostPort → HostPort) : (s.modHost h f).objs = s.objs := rfl
@[simp] theorem State.modHost_objLive (h : Nat) (f : HostPort → HostPort) : (s.modHost h f).objLive = s.objLive := rfl
@[simp] theorem State.modHost_watch (h : Nat) (f : HostPort → HostPort) : (s.modHost h f).watch = s.watch := rfl
@[simp] theorem State.modHost_trans (h : Nat) (f : HostPort → HostPort) : (s.modHost h f).trans = s.trans := rfl
@[simp] theorem State.modHost_tlb1 (h : Nat) (f : HostPort → HostPort) : (s.modHost h f).tlb1 = s.tlb1 := rfl
@[simp] theorem State.modHost_tlb2 (h : Nat) (f : HostPort → HostPort) : (s.modHost h f).tlb2 = s.tlb2 := rfl
@[simp] theorem State.modHost_walks (h : Nat) (f : HostPort → HostPort) : (s.modHost h f).walks = s.walks := rfl
@[simp] theorem State.modHost_walkTurn (h : Nat) (f : HostPort → HostPort) : (s.modHost h f).walkTurn = s.walkTurn := rfl
@[simp] theorem State.modHost_clock (h : Nat) (f : HostPort → HostPort) : (s.modHost h f).clock = s.clock := rfl
@[simp] theorem State.modHost_mapJob (h : Nat) (f : HostPort → HostPort) : (s.modHost h f).mapJob = s.mapJob := rfl
@[simp] theorem State.modHost_auOwner (h : Nat) (f : HostPort → HostPort) : (s.modHost h f).auOwner = s.auOwner := rfl
@[simp] theorem State.modHost_auQueue (h : Nat) (f : HostPort → HostPort) : (s.modHost h f).auQueue = s.auQueue := rfl
@[simp] theorem State.modHost_auLastCtx (h : Nat) (f : HostPort → HostPort) : (s.modHost h f).auLastCtx = s.auLastCtx := rfl
@[simp] theorem State.modHost_samplerPart (h : Nat) (f : HostPort → HostPort) : (s.modHost h f).samplerPart = s.samplerPart := rfl
@[simp] theorem State.modHost_samplerFifo (h : Nat) (f : HostPort → HostPort) : (s.modHost h f).samplerFifo = s.samplerFifo := rfl
@[simp] theorem State.modHost_samplerTurn (h : Nat) (f : HostPort → HostPort) : (s.modHost h f).samplerTurn = s.samplerTurn := rfl
@[simp] theorem State.modHost_samplerCmd (h : Nat) (f : HostPort → HostPort) : (s.modHost h f).samplerCmd = s.samplerCmd := rfl
@[simp] theorem State.modHost_samplers (h : Nat) (f : HostPort → HostPort) : (s.modHost h f).samplers = s.samplers := rfl
@[simp] theorem State.modHost_lanesTurn (h : Nat) (f : HostPort → HostPort) : (s.modHost h f).lanesTurn = s.lanesTurn := rfl

/-! ## modSlot -/

@[simp] theorem State.modSlot_cfg (i : Nat) (f : HostSlot → HostSlot) : (s.modSlot i f).cfg = s.cfg := rfl
@[simp] theorem State.modSlot_pending (i : Nat) (f : HostSlot → HostSlot) : (s.modSlot i f).pending = s.pending := rfl
@[simp] theorem State.modSlot_out (i : Nat) (f : HostSlot → HostSlot) : (s.modSlot i f).out = s.out := rfl
@[simp] theorem State.modSlot_due (i : Nat) (f : HostSlot → HostSlot) : (s.modSlot i f).due = s.due := rfl
@[simp] theorem State.modSlot_freeCount (i : Nat) (f : HostSlot → HostSlot) : (s.modSlot i f).freeCount = s.freeCount := rfl
@[simp] theorem State.modSlot_loc (i : Nat) (f : HostSlot → HostSlot) : (s.modSlot i f).loc = s.loc := rfl
@[simp] theorem State.modSlot_ctr (i : Nat) (f : HostSlot → HostSlot) : (s.modSlot i f).ctr = s.ctr := rfl
@[simp] theorem State.modSlot_settings (i : Nat) (f : HostSlot → HostSlot) : (s.modSlot i f).settings = s.settings := rfl
@[simp] theorem State.modSlot_fuses (i : Nat) (f : HostSlot → HostSlot) : (s.modSlot i f).fuses = s.fuses := rfl
@[simp] theorem State.modSlot_bring (i : Nat) (f : HostSlot → HostSlot) : (s.modSlot i f).bring = s.bring := rfl
@[simp] theorem State.modSlot_power (i : Nat) (f : HostSlot → HostSlot) : (s.modSlot i f).power = s.power := rfl
@[simp] theorem State.modSlot_agent (i : Nat) (f : HostSlot → HostSlot) : (s.modSlot i f).agent = s.agent := rfl
@[simp] theorem State.modSlot_fw (i : Nat) (f : HostSlot → HostSlot) : (s.modSlot i f).fw = s.fw := rfl
@[simp] theorem State.modSlot_life (i : Nat) (f : HostSlot → HostSlot) : (s.modSlot i f).life = s.life := rfl
@[simp] theorem State.modSlot_alarms (i : Nat) (f : HostSlot → HostSlot) : (s.modSlot i f).alarms = s.alarms := rfl
@[simp] theorem State.modSlot_faults (i : Nat) (f : HostSlot → HostSlot) : (s.modSlot i f).faults = s.faults := rfl
@[simp] theorem State.modSlot_records (i : Nat) (f : HostSlot → HostSlot) : (s.modSlot i f).records = s.records := rfl
@[simp] theorem State.modSlot_keys (i : Nat) (f : HostSlot → HostSlot) : (s.modSlot i f).keys = s.keys := rfl
@[simp] theorem State.modSlot_gce (i : Nat) (f : HostSlot → HostSlot) : (s.modSlot i f).gce = s.gce := rfl
@[simp] theorem State.modSlot_random (i : Nat) (f : HostSlot → HostSlot) : (s.modSlot i f).random = s.random := rfl
@[simp] theorem State.modSlot_mem (i : Nat) (f : HostSlot → HostSlot) : (s.modSlot i f).mem = s.mem := rfl
@[simp] theorem State.modSlot_links (i : Nat) (f : HostSlot → HostSlot) : (s.modSlot i f).links = s.links := rfl
@[simp] theorem State.modSlot_chips (i : Nat) (f : HostSlot → HostSlot) : (s.modSlot i f).chips = s.chips := rfl
@[simp] theorem State.modSlot_hosts (i : Nat) (f : HostSlot → HostSlot) : (s.modSlot i f).hosts = s.hosts := rfl
@[simp] theorem State.modSlot_slots (i : Nat) (f : HostSlot → HostSlot) : (s.modSlot i f).slots = tblMod s.slots i f {} := rfl
@[simp] theorem State.modSlot_tdis (i : Nat) (f : HostSlot → HostSlot) : (s.modSlot i f).tdis = s.tdis := rfl
@[simp] theorem State.modSlot_stagingRoutes (i : Nat) (f : HostSlot → HostSlot) : (s.modSlot i f).stagingRoutes = s.stagingRoutes := rfl
@[simp] theorem State.modSlot_liveRoutes (i : Nat) (f : HostSlot → HostSlot) : (s.modSlot i f).liveRoutes = s.liveRoutes := rfl
@[simp] theorem State.modSlot_routeHold (i : Nat) (f : HostSlot → HostSlot) : (s.modSlot i f).routeHold = s.routeHold := rfl
@[simp] theorem State.modSlot_routeHeld (i : Nat) (f : HostSlot → HostSlot) : (s.modSlot i f).routeHeld = s.routeHeld := rfl
@[simp] theorem State.modSlot_otags (i : Nat) (f : HostSlot → HostSlot) : (s.modSlot i f).otags = s.otags := rfl
@[simp] theorem State.modSlot_otagNext (i : Nat) (f : HostSlot → HostSlot) : (s.modSlot i f).otagNext = s.otagNext := rfl
@[simp] theorem State.modSlot_heldOps (i : Nat) (f : HostSlot → HostSlot) : (s.modSlot i f).heldOps = s.heldOps := rfl
@[simp] theorem State.modSlot_rcache (i : Nat) (f : HostSlot → HostSlot) : (s.modSlot i f).rcache = s.rcache := rfl
@[simp] theorem State.modSlot_comb (i : Nat) (f : HostSlot → HostSlot) : (s.modSlot i f).comb = s.comb := rfl
@[simp] theorem State.modSlot_rslots (i : Nat) (f : HostSlot → HostSlot) : (s.modSlot i f).rslots = s.rslots := rfl
@[simp] theorem State.modSlot_early (i : Nat) (f : HostSlot → HostSlot) : (s.modSlot i f).early = s.early := rfl
@[simp] theorem State.modSlot_chunkRecs (i : Nat) (f : HostSlot → HostSlot) : (s.modSlot i f).chunkRecs = s.chunkRecs := rfl
@[simp] theorem State.modSlot_parts (i : Nat) (f : HostSlot → HostSlot) : (s.modSlot i f).parts = s.parts := rfl
@[simp] theorem State.modSlot_ctxs (i : Nat) (f : HostSlot → HostSlot) : (s.modSlot i f).ctxs = s.ctxs := rfl
@[simp] theorem State.modSlot_queues (i : Nat) (f : HostSlot → HostSlot) : (s.modSlot i f).queues = s.queues := rfl
@[simp] theorem State.modSlot_cmds (i : Nat) (f : HostSlot → HostSlot) : (s.modSlot i f).cmds = s.cmds := rfl
@[simp] theorem State.modSlot_cmdNext (i : Nat) (f : HostSlot → HostSlot) : (s.modSlot i f).cmdNext = s.cmdNext := rfl
@[simp] theorem State.modSlot_objs (i : Nat) (f : HostSlot → HostSlot) : (s.modSlot i f).objs = s.objs := rfl
@[simp] theorem State.modSlot_objLive (i : Nat) (f : HostSlot → HostSlot) : (s.modSlot i f).objLive = s.objLive := rfl
@[simp] theorem State.modSlot_watch (i : Nat) (f : HostSlot → HostSlot) : (s.modSlot i f).watch = s.watch := rfl
@[simp] theorem State.modSlot_trans (i : Nat) (f : HostSlot → HostSlot) : (s.modSlot i f).trans = s.trans := rfl
@[simp] theorem State.modSlot_tlb1 (i : Nat) (f : HostSlot → HostSlot) : (s.modSlot i f).tlb1 = s.tlb1 := rfl
@[simp] theorem State.modSlot_tlb2 (i : Nat) (f : HostSlot → HostSlot) : (s.modSlot i f).tlb2 = s.tlb2 := rfl
@[simp] theorem State.modSlot_walks (i : Nat) (f : HostSlot → HostSlot) : (s.modSlot i f).walks = s.walks := rfl
@[simp] theorem State.modSlot_walkTurn (i : Nat) (f : HostSlot → HostSlot) : (s.modSlot i f).walkTurn = s.walkTurn := rfl
@[simp] theorem State.modSlot_clock (i : Nat) (f : HostSlot → HostSlot) : (s.modSlot i f).clock = s.clock := rfl
@[simp] theorem State.modSlot_mapJob (i : Nat) (f : HostSlot → HostSlot) : (s.modSlot i f).mapJob = s.mapJob := rfl
@[simp] theorem State.modSlot_auOwner (i : Nat) (f : HostSlot → HostSlot) : (s.modSlot i f).auOwner = s.auOwner := rfl
@[simp] theorem State.modSlot_auQueue (i : Nat) (f : HostSlot → HostSlot) : (s.modSlot i f).auQueue = s.auQueue := rfl
@[simp] theorem State.modSlot_auLastCtx (i : Nat) (f : HostSlot → HostSlot) : (s.modSlot i f).auLastCtx = s.auLastCtx := rfl
@[simp] theorem State.modSlot_samplerPart (i : Nat) (f : HostSlot → HostSlot) : (s.modSlot i f).samplerPart = s.samplerPart := rfl
@[simp] theorem State.modSlot_samplerFifo (i : Nat) (f : HostSlot → HostSlot) : (s.modSlot i f).samplerFifo = s.samplerFifo := rfl
@[simp] theorem State.modSlot_samplerTurn (i : Nat) (f : HostSlot → HostSlot) : (s.modSlot i f).samplerTurn = s.samplerTurn := rfl
@[simp] theorem State.modSlot_samplerCmd (i : Nat) (f : HostSlot → HostSlot) : (s.modSlot i f).samplerCmd = s.samplerCmd := rfl
@[simp] theorem State.modSlot_samplers (i : Nat) (f : HostSlot → HostSlot) : (s.modSlot i f).samplers = s.samplers := rfl
@[simp] theorem State.modSlot_lanesTurn (i : Nat) (f : HostSlot → HostSlot) : (s.modSlot i f).lanesTurn = s.lanesTurn := rfl

/-! ## modCtx -/

@[simp] theorem State.modCtx_cfg (n : Nat) (f : Ctx → Ctx) : (s.modCtx n f).cfg = s.cfg := rfl
@[simp] theorem State.modCtx_pending (n : Nat) (f : Ctx → Ctx) : (s.modCtx n f).pending = s.pending := rfl
@[simp] theorem State.modCtx_out (n : Nat) (f : Ctx → Ctx) : (s.modCtx n f).out = s.out := rfl
@[simp] theorem State.modCtx_due (n : Nat) (f : Ctx → Ctx) : (s.modCtx n f).due = s.due := rfl
@[simp] theorem State.modCtx_freeCount (n : Nat) (f : Ctx → Ctx) : (s.modCtx n f).freeCount = s.freeCount := rfl
@[simp] theorem State.modCtx_loc (n : Nat) (f : Ctx → Ctx) : (s.modCtx n f).loc = s.loc := rfl
@[simp] theorem State.modCtx_ctr (n : Nat) (f : Ctx → Ctx) : (s.modCtx n f).ctr = s.ctr := rfl
@[simp] theorem State.modCtx_settings (n : Nat) (f : Ctx → Ctx) : (s.modCtx n f).settings = s.settings := rfl
@[simp] theorem State.modCtx_fuses (n : Nat) (f : Ctx → Ctx) : (s.modCtx n f).fuses = s.fuses := rfl
@[simp] theorem State.modCtx_bring (n : Nat) (f : Ctx → Ctx) : (s.modCtx n f).bring = s.bring := rfl
@[simp] theorem State.modCtx_power (n : Nat) (f : Ctx → Ctx) : (s.modCtx n f).power = s.power := rfl
@[simp] theorem State.modCtx_agent (n : Nat) (f : Ctx → Ctx) : (s.modCtx n f).agent = s.agent := rfl
@[simp] theorem State.modCtx_fw (n : Nat) (f : Ctx → Ctx) : (s.modCtx n f).fw = s.fw := rfl
@[simp] theorem State.modCtx_life (n : Nat) (f : Ctx → Ctx) : (s.modCtx n f).life = s.life := rfl
@[simp] theorem State.modCtx_alarms (n : Nat) (f : Ctx → Ctx) : (s.modCtx n f).alarms = s.alarms := rfl
@[simp] theorem State.modCtx_faults (n : Nat) (f : Ctx → Ctx) : (s.modCtx n f).faults = s.faults := rfl
@[simp] theorem State.modCtx_records (n : Nat) (f : Ctx → Ctx) : (s.modCtx n f).records = s.records := rfl
@[simp] theorem State.modCtx_keys (n : Nat) (f : Ctx → Ctx) : (s.modCtx n f).keys = s.keys := rfl
@[simp] theorem State.modCtx_gce (n : Nat) (f : Ctx → Ctx) : (s.modCtx n f).gce = s.gce := rfl
@[simp] theorem State.modCtx_random (n : Nat) (f : Ctx → Ctx) : (s.modCtx n f).random = s.random := rfl
@[simp] theorem State.modCtx_mem (n : Nat) (f : Ctx → Ctx) : (s.modCtx n f).mem = s.mem := rfl
@[simp] theorem State.modCtx_links (n : Nat) (f : Ctx → Ctx) : (s.modCtx n f).links = s.links := rfl
@[simp] theorem State.modCtx_chips (n : Nat) (f : Ctx → Ctx) : (s.modCtx n f).chips = s.chips := rfl
@[simp] theorem State.modCtx_hosts (n : Nat) (f : Ctx → Ctx) : (s.modCtx n f).hosts = s.hosts := rfl
@[simp] theorem State.modCtx_slots (n : Nat) (f : Ctx → Ctx) : (s.modCtx n f).slots = s.slots := rfl
@[simp] theorem State.modCtx_tdis (n : Nat) (f : Ctx → Ctx) : (s.modCtx n f).tdis = s.tdis := rfl
@[simp] theorem State.modCtx_stagingRoutes (n : Nat) (f : Ctx → Ctx) : (s.modCtx n f).stagingRoutes = s.stagingRoutes := rfl
@[simp] theorem State.modCtx_liveRoutes (n : Nat) (f : Ctx → Ctx) : (s.modCtx n f).liveRoutes = s.liveRoutes := rfl
@[simp] theorem State.modCtx_routeHold (n : Nat) (f : Ctx → Ctx) : (s.modCtx n f).routeHold = s.routeHold := rfl
@[simp] theorem State.modCtx_routeHeld (n : Nat) (f : Ctx → Ctx) : (s.modCtx n f).routeHeld = s.routeHeld := rfl
@[simp] theorem State.modCtx_otags (n : Nat) (f : Ctx → Ctx) : (s.modCtx n f).otags = s.otags := rfl
@[simp] theorem State.modCtx_otagNext (n : Nat) (f : Ctx → Ctx) : (s.modCtx n f).otagNext = s.otagNext := rfl
@[simp] theorem State.modCtx_heldOps (n : Nat) (f : Ctx → Ctx) : (s.modCtx n f).heldOps = s.heldOps := rfl
@[simp] theorem State.modCtx_rcache (n : Nat) (f : Ctx → Ctx) : (s.modCtx n f).rcache = s.rcache := rfl
@[simp] theorem State.modCtx_comb (n : Nat) (f : Ctx → Ctx) : (s.modCtx n f).comb = s.comb := rfl
@[simp] theorem State.modCtx_rslots (n : Nat) (f : Ctx → Ctx) : (s.modCtx n f).rslots = s.rslots := rfl
@[simp] theorem State.modCtx_early (n : Nat) (f : Ctx → Ctx) : (s.modCtx n f).early = s.early := rfl
@[simp] theorem State.modCtx_chunkRecs (n : Nat) (f : Ctx → Ctx) : (s.modCtx n f).chunkRecs = s.chunkRecs := rfl
@[simp] theorem State.modCtx_parts (n : Nat) (f : Ctx → Ctx) : (s.modCtx n f).parts = s.parts := rfl
@[simp] theorem State.modCtx_ctxs (n : Nat) (f : Ctx → Ctx) : (s.modCtx n f).ctxs = tblMod s.ctxs n f {} := rfl
@[simp] theorem State.modCtx_queues (n : Nat) (f : Ctx → Ctx) : (s.modCtx n f).queues = s.queues := rfl
@[simp] theorem State.modCtx_cmds (n : Nat) (f : Ctx → Ctx) : (s.modCtx n f).cmds = s.cmds := rfl
@[simp] theorem State.modCtx_cmdNext (n : Nat) (f : Ctx → Ctx) : (s.modCtx n f).cmdNext = s.cmdNext := rfl
@[simp] theorem State.modCtx_objs (n : Nat) (f : Ctx → Ctx) : (s.modCtx n f).objs = s.objs := rfl
@[simp] theorem State.modCtx_objLive (n : Nat) (f : Ctx → Ctx) : (s.modCtx n f).objLive = s.objLive := rfl
@[simp] theorem State.modCtx_watch (n : Nat) (f : Ctx → Ctx) : (s.modCtx n f).watch = s.watch := rfl
@[simp] theorem State.modCtx_trans (n : Nat) (f : Ctx → Ctx) : (s.modCtx n f).trans = s.trans := rfl
@[simp] theorem State.modCtx_tlb1 (n : Nat) (f : Ctx → Ctx) : (s.modCtx n f).tlb1 = s.tlb1 := rfl
@[simp] theorem State.modCtx_tlb2 (n : Nat) (f : Ctx → Ctx) : (s.modCtx n f).tlb2 = s.tlb2 := rfl
@[simp] theorem State.modCtx_walks (n : Nat) (f : Ctx → Ctx) : (s.modCtx n f).walks = s.walks := rfl
@[simp] theorem State.modCtx_walkTurn (n : Nat) (f : Ctx → Ctx) : (s.modCtx n f).walkTurn = s.walkTurn := rfl
@[simp] theorem State.modCtx_clock (n : Nat) (f : Ctx → Ctx) : (s.modCtx n f).clock = s.clock := rfl
@[simp] theorem State.modCtx_mapJob (n : Nat) (f : Ctx → Ctx) : (s.modCtx n f).mapJob = s.mapJob := rfl
@[simp] theorem State.modCtx_auOwner (n : Nat) (f : Ctx → Ctx) : (s.modCtx n f).auOwner = s.auOwner := rfl
@[simp] theorem State.modCtx_auQueue (n : Nat) (f : Ctx → Ctx) : (s.modCtx n f).auQueue = s.auQueue := rfl
@[simp] theorem State.modCtx_auLastCtx (n : Nat) (f : Ctx → Ctx) : (s.modCtx n f).auLastCtx = s.auLastCtx := rfl
@[simp] theorem State.modCtx_samplerPart (n : Nat) (f : Ctx → Ctx) : (s.modCtx n f).samplerPart = s.samplerPart := rfl
@[simp] theorem State.modCtx_samplerFifo (n : Nat) (f : Ctx → Ctx) : (s.modCtx n f).samplerFifo = s.samplerFifo := rfl
@[simp] theorem State.modCtx_samplerTurn (n : Nat) (f : Ctx → Ctx) : (s.modCtx n f).samplerTurn = s.samplerTurn := rfl
@[simp] theorem State.modCtx_samplerCmd (n : Nat) (f : Ctx → Ctx) : (s.modCtx n f).samplerCmd = s.samplerCmd := rfl
@[simp] theorem State.modCtx_samplers (n : Nat) (f : Ctx → Ctx) : (s.modCtx n f).samplers = s.samplers := rfl
@[simp] theorem State.modCtx_lanesTurn (n : Nat) (f : Ctx → Ctx) : (s.modCtx n f).lanesTurn = s.lanesTurn := rfl

/-! ## modPart -/

@[simp] theorem State.modPart_cfg (p : Nat) (f : Part → Part) : (s.modPart p f).cfg = s.cfg := rfl
@[simp] theorem State.modPart_pending (p : Nat) (f : Part → Part) : (s.modPart p f).pending = s.pending := rfl
@[simp] theorem State.modPart_out (p : Nat) (f : Part → Part) : (s.modPart p f).out = s.out := rfl
@[simp] theorem State.modPart_due (p : Nat) (f : Part → Part) : (s.modPart p f).due = s.due := rfl
@[simp] theorem State.modPart_freeCount (p : Nat) (f : Part → Part) : (s.modPart p f).freeCount = s.freeCount := rfl
@[simp] theorem State.modPart_loc (p : Nat) (f : Part → Part) : (s.modPart p f).loc = s.loc := rfl
@[simp] theorem State.modPart_ctr (p : Nat) (f : Part → Part) : (s.modPart p f).ctr = s.ctr := rfl
@[simp] theorem State.modPart_settings (p : Nat) (f : Part → Part) : (s.modPart p f).settings = s.settings := rfl
@[simp] theorem State.modPart_fuses (p : Nat) (f : Part → Part) : (s.modPart p f).fuses = s.fuses := rfl
@[simp] theorem State.modPart_bring (p : Nat) (f : Part → Part) : (s.modPart p f).bring = s.bring := rfl
@[simp] theorem State.modPart_power (p : Nat) (f : Part → Part) : (s.modPart p f).power = s.power := rfl
@[simp] theorem State.modPart_agent (p : Nat) (f : Part → Part) : (s.modPart p f).agent = s.agent := rfl
@[simp] theorem State.modPart_fw (p : Nat) (f : Part → Part) : (s.modPart p f).fw = s.fw := rfl
@[simp] theorem State.modPart_life (p : Nat) (f : Part → Part) : (s.modPart p f).life = s.life := rfl
@[simp] theorem State.modPart_alarms (p : Nat) (f : Part → Part) : (s.modPart p f).alarms = s.alarms := rfl
@[simp] theorem State.modPart_faults (p : Nat) (f : Part → Part) : (s.modPart p f).faults = s.faults := rfl
@[simp] theorem State.modPart_records (p : Nat) (f : Part → Part) : (s.modPart p f).records = s.records := rfl
@[simp] theorem State.modPart_keys (p : Nat) (f : Part → Part) : (s.modPart p f).keys = s.keys := rfl
@[simp] theorem State.modPart_gce (p : Nat) (f : Part → Part) : (s.modPart p f).gce = s.gce := rfl
@[simp] theorem State.modPart_random (p : Nat) (f : Part → Part) : (s.modPart p f).random = s.random := rfl
@[simp] theorem State.modPart_mem (p : Nat) (f : Part → Part) : (s.modPart p f).mem = s.mem := rfl
@[simp] theorem State.modPart_links (p : Nat) (f : Part → Part) : (s.modPart p f).links = s.links := rfl
@[simp] theorem State.modPart_chips (p : Nat) (f : Part → Part) : (s.modPart p f).chips = s.chips := rfl
@[simp] theorem State.modPart_hosts (p : Nat) (f : Part → Part) : (s.modPart p f).hosts = s.hosts := rfl
@[simp] theorem State.modPart_slots (p : Nat) (f : Part → Part) : (s.modPart p f).slots = s.slots := rfl
@[simp] theorem State.modPart_tdis (p : Nat) (f : Part → Part) : (s.modPart p f).tdis = s.tdis := rfl
@[simp] theorem State.modPart_stagingRoutes (p : Nat) (f : Part → Part) : (s.modPart p f).stagingRoutes = s.stagingRoutes := rfl
@[simp] theorem State.modPart_liveRoutes (p : Nat) (f : Part → Part) : (s.modPart p f).liveRoutes = s.liveRoutes := rfl
@[simp] theorem State.modPart_routeHold (p : Nat) (f : Part → Part) : (s.modPart p f).routeHold = s.routeHold := rfl
@[simp] theorem State.modPart_routeHeld (p : Nat) (f : Part → Part) : (s.modPart p f).routeHeld = s.routeHeld := rfl
@[simp] theorem State.modPart_otags (p : Nat) (f : Part → Part) : (s.modPart p f).otags = s.otags := rfl
@[simp] theorem State.modPart_otagNext (p : Nat) (f : Part → Part) : (s.modPart p f).otagNext = s.otagNext := rfl
@[simp] theorem State.modPart_heldOps (p : Nat) (f : Part → Part) : (s.modPart p f).heldOps = s.heldOps := rfl
@[simp] theorem State.modPart_rcache (p : Nat) (f : Part → Part) : (s.modPart p f).rcache = s.rcache := rfl
@[simp] theorem State.modPart_comb (p : Nat) (f : Part → Part) : (s.modPart p f).comb = s.comb := rfl
@[simp] theorem State.modPart_rslots (p : Nat) (f : Part → Part) : (s.modPart p f).rslots = s.rslots := rfl
@[simp] theorem State.modPart_early (p : Nat) (f : Part → Part) : (s.modPart p f).early = s.early := rfl
@[simp] theorem State.modPart_chunkRecs (p : Nat) (f : Part → Part) : (s.modPart p f).chunkRecs = s.chunkRecs := rfl
@[simp] theorem State.modPart_parts (p : Nat) (f : Part → Part) : (s.modPart p f).parts = tblMod s.parts p f {} := rfl
@[simp] theorem State.modPart_ctxs (p : Nat) (f : Part → Part) : (s.modPart p f).ctxs = s.ctxs := rfl
@[simp] theorem State.modPart_queues (p : Nat) (f : Part → Part) : (s.modPart p f).queues = s.queues := rfl
@[simp] theorem State.modPart_cmds (p : Nat) (f : Part → Part) : (s.modPart p f).cmds = s.cmds := rfl
@[simp] theorem State.modPart_cmdNext (p : Nat) (f : Part → Part) : (s.modPart p f).cmdNext = s.cmdNext := rfl
@[simp] theorem State.modPart_objs (p : Nat) (f : Part → Part) : (s.modPart p f).objs = s.objs := rfl
@[simp] theorem State.modPart_objLive (p : Nat) (f : Part → Part) : (s.modPart p f).objLive = s.objLive := rfl
@[simp] theorem State.modPart_watch (p : Nat) (f : Part → Part) : (s.modPart p f).watch = s.watch := rfl
@[simp] theorem State.modPart_trans (p : Nat) (f : Part → Part) : (s.modPart p f).trans = s.trans := rfl
@[simp] theorem State.modPart_tlb1 (p : Nat) (f : Part → Part) : (s.modPart p f).tlb1 = s.tlb1 := rfl
@[simp] theorem State.modPart_tlb2 (p : Nat) (f : Part → Part) : (s.modPart p f).tlb2 = s.tlb2 := rfl
@[simp] theorem State.modPart_walks (p : Nat) (f : Part → Part) : (s.modPart p f).walks = s.walks := rfl
@[simp] theorem State.modPart_walkTurn (p : Nat) (f : Part → Part) : (s.modPart p f).walkTurn = s.walkTurn := rfl
@[simp] theorem State.modPart_clock (p : Nat) (f : Part → Part) : (s.modPart p f).clock = s.clock := rfl
@[simp] theorem State.modPart_mapJob (p : Nat) (f : Part → Part) : (s.modPart p f).mapJob = s.mapJob := rfl
@[simp] theorem State.modPart_auOwner (p : Nat) (f : Part → Part) : (s.modPart p f).auOwner = s.auOwner := rfl
@[simp] theorem State.modPart_auQueue (p : Nat) (f : Part → Part) : (s.modPart p f).auQueue = s.auQueue := rfl
@[simp] theorem State.modPart_auLastCtx (p : Nat) (f : Part → Part) : (s.modPart p f).auLastCtx = s.auLastCtx := rfl
@[simp] theorem State.modPart_samplerPart (p : Nat) (f : Part → Part) : (s.modPart p f).samplerPart = s.samplerPart := rfl
@[simp] theorem State.modPart_samplerFifo (p : Nat) (f : Part → Part) : (s.modPart p f).samplerFifo = s.samplerFifo := rfl
@[simp] theorem State.modPart_samplerTurn (p : Nat) (f : Part → Part) : (s.modPart p f).samplerTurn = s.samplerTurn := rfl
@[simp] theorem State.modPart_samplerCmd (p : Nat) (f : Part → Part) : (s.modPart p f).samplerCmd = s.samplerCmd := rfl
@[simp] theorem State.modPart_samplers (p : Nat) (f : Part → Part) : (s.modPart p f).samplers = s.samplers := rfl
@[simp] theorem State.modPart_lanesTurn (p : Nat) (f : Part → Part) : (s.modPart p f).lanesTurn = s.lanesTurn := rfl

/-! ## modQueue -/

@[simp] theorem State.modQueue_cfg (q : Nat) (f : Queue → Queue) : (s.modQueue q f).cfg = s.cfg := rfl
@[simp] theorem State.modQueue_pending (q : Nat) (f : Queue → Queue) : (s.modQueue q f).pending = s.pending := rfl
@[simp] theorem State.modQueue_out (q : Nat) (f : Queue → Queue) : (s.modQueue q f).out = s.out := rfl
@[simp] theorem State.modQueue_due (q : Nat) (f : Queue → Queue) : (s.modQueue q f).due = s.due := rfl
@[simp] theorem State.modQueue_freeCount (q : Nat) (f : Queue → Queue) : (s.modQueue q f).freeCount = s.freeCount := rfl
@[simp] theorem State.modQueue_loc (q : Nat) (f : Queue → Queue) : (s.modQueue q f).loc = s.loc := rfl
@[simp] theorem State.modQueue_ctr (q : Nat) (f : Queue → Queue) : (s.modQueue q f).ctr = s.ctr := rfl
@[simp] theorem State.modQueue_settings (q : Nat) (f : Queue → Queue) : (s.modQueue q f).settings = s.settings := rfl
@[simp] theorem State.modQueue_fuses (q : Nat) (f : Queue → Queue) : (s.modQueue q f).fuses = s.fuses := rfl
@[simp] theorem State.modQueue_bring (q : Nat) (f : Queue → Queue) : (s.modQueue q f).bring = s.bring := rfl
@[simp] theorem State.modQueue_power (q : Nat) (f : Queue → Queue) : (s.modQueue q f).power = s.power := rfl
@[simp] theorem State.modQueue_agent (q : Nat) (f : Queue → Queue) : (s.modQueue q f).agent = s.agent := rfl
@[simp] theorem State.modQueue_fw (q : Nat) (f : Queue → Queue) : (s.modQueue q f).fw = s.fw := rfl
@[simp] theorem State.modQueue_life (q : Nat) (f : Queue → Queue) : (s.modQueue q f).life = s.life := rfl
@[simp] theorem State.modQueue_alarms (q : Nat) (f : Queue → Queue) : (s.modQueue q f).alarms = s.alarms := rfl
@[simp] theorem State.modQueue_faults (q : Nat) (f : Queue → Queue) : (s.modQueue q f).faults = s.faults := rfl
@[simp] theorem State.modQueue_records (q : Nat) (f : Queue → Queue) : (s.modQueue q f).records = s.records := rfl
@[simp] theorem State.modQueue_keys (q : Nat) (f : Queue → Queue) : (s.modQueue q f).keys = s.keys := rfl
@[simp] theorem State.modQueue_gce (q : Nat) (f : Queue → Queue) : (s.modQueue q f).gce = s.gce := rfl
@[simp] theorem State.modQueue_random (q : Nat) (f : Queue → Queue) : (s.modQueue q f).random = s.random := rfl
@[simp] theorem State.modQueue_mem (q : Nat) (f : Queue → Queue) : (s.modQueue q f).mem = s.mem := rfl
@[simp] theorem State.modQueue_links (q : Nat) (f : Queue → Queue) : (s.modQueue q f).links = s.links := rfl
@[simp] theorem State.modQueue_chips (q : Nat) (f : Queue → Queue) : (s.modQueue q f).chips = s.chips := rfl
@[simp] theorem State.modQueue_hosts (q : Nat) (f : Queue → Queue) : (s.modQueue q f).hosts = s.hosts := rfl
@[simp] theorem State.modQueue_slots (q : Nat) (f : Queue → Queue) : (s.modQueue q f).slots = s.slots := rfl
@[simp] theorem State.modQueue_tdis (q : Nat) (f : Queue → Queue) : (s.modQueue q f).tdis = s.tdis := rfl
@[simp] theorem State.modQueue_stagingRoutes (q : Nat) (f : Queue → Queue) : (s.modQueue q f).stagingRoutes = s.stagingRoutes := rfl
@[simp] theorem State.modQueue_liveRoutes (q : Nat) (f : Queue → Queue) : (s.modQueue q f).liveRoutes = s.liveRoutes := rfl
@[simp] theorem State.modQueue_routeHold (q : Nat) (f : Queue → Queue) : (s.modQueue q f).routeHold = s.routeHold := rfl
@[simp] theorem State.modQueue_routeHeld (q : Nat) (f : Queue → Queue) : (s.modQueue q f).routeHeld = s.routeHeld := rfl
@[simp] theorem State.modQueue_otags (q : Nat) (f : Queue → Queue) : (s.modQueue q f).otags = s.otags := rfl
@[simp] theorem State.modQueue_otagNext (q : Nat) (f : Queue → Queue) : (s.modQueue q f).otagNext = s.otagNext := rfl
@[simp] theorem State.modQueue_heldOps (q : Nat) (f : Queue → Queue) : (s.modQueue q f).heldOps = s.heldOps := rfl
@[simp] theorem State.modQueue_rcache (q : Nat) (f : Queue → Queue) : (s.modQueue q f).rcache = s.rcache := rfl
@[simp] theorem State.modQueue_comb (q : Nat) (f : Queue → Queue) : (s.modQueue q f).comb = s.comb := rfl
@[simp] theorem State.modQueue_rslots (q : Nat) (f : Queue → Queue) : (s.modQueue q f).rslots = s.rslots := rfl
@[simp] theorem State.modQueue_early (q : Nat) (f : Queue → Queue) : (s.modQueue q f).early = s.early := rfl
@[simp] theorem State.modQueue_chunkRecs (q : Nat) (f : Queue → Queue) : (s.modQueue q f).chunkRecs = s.chunkRecs := rfl
@[simp] theorem State.modQueue_parts (q : Nat) (f : Queue → Queue) : (s.modQueue q f).parts = s.parts := rfl
@[simp] theorem State.modQueue_ctxs (q : Nat) (f : Queue → Queue) : (s.modQueue q f).ctxs = s.ctxs := rfl
@[simp] theorem State.modQueue_queues (q : Nat) (f : Queue → Queue) : (s.modQueue q f).queues = tblMod s.queues q f {} := rfl
@[simp] theorem State.modQueue_cmds (q : Nat) (f : Queue → Queue) : (s.modQueue q f).cmds = s.cmds := rfl
@[simp] theorem State.modQueue_cmdNext (q : Nat) (f : Queue → Queue) : (s.modQueue q f).cmdNext = s.cmdNext := rfl
@[simp] theorem State.modQueue_objs (q : Nat) (f : Queue → Queue) : (s.modQueue q f).objs = s.objs := rfl
@[simp] theorem State.modQueue_objLive (q : Nat) (f : Queue → Queue) : (s.modQueue q f).objLive = s.objLive := rfl
@[simp] theorem State.modQueue_watch (q : Nat) (f : Queue → Queue) : (s.modQueue q f).watch = s.watch := rfl
@[simp] theorem State.modQueue_trans (q : Nat) (f : Queue → Queue) : (s.modQueue q f).trans = s.trans := rfl
@[simp] theorem State.modQueue_tlb1 (q : Nat) (f : Queue → Queue) : (s.modQueue q f).tlb1 = s.tlb1 := rfl
@[simp] theorem State.modQueue_tlb2 (q : Nat) (f : Queue → Queue) : (s.modQueue q f).tlb2 = s.tlb2 := rfl
@[simp] theorem State.modQueue_walks (q : Nat) (f : Queue → Queue) : (s.modQueue q f).walks = s.walks := rfl
@[simp] theorem State.modQueue_walkTurn (q : Nat) (f : Queue → Queue) : (s.modQueue q f).walkTurn = s.walkTurn := rfl
@[simp] theorem State.modQueue_clock (q : Nat) (f : Queue → Queue) : (s.modQueue q f).clock = s.clock := rfl
@[simp] theorem State.modQueue_mapJob (q : Nat) (f : Queue → Queue) : (s.modQueue q f).mapJob = s.mapJob := rfl
@[simp] theorem State.modQueue_auOwner (q : Nat) (f : Queue → Queue) : (s.modQueue q f).auOwner = s.auOwner := rfl
@[simp] theorem State.modQueue_auQueue (q : Nat) (f : Queue → Queue) : (s.modQueue q f).auQueue = s.auQueue := rfl
@[simp] theorem State.modQueue_auLastCtx (q : Nat) (f : Queue → Queue) : (s.modQueue q f).auLastCtx = s.auLastCtx := rfl
@[simp] theorem State.modQueue_samplerPart (q : Nat) (f : Queue → Queue) : (s.modQueue q f).samplerPart = s.samplerPart := rfl
@[simp] theorem State.modQueue_samplerFifo (q : Nat) (f : Queue → Queue) : (s.modQueue q f).samplerFifo = s.samplerFifo := rfl
@[simp] theorem State.modQueue_samplerTurn (q : Nat) (f : Queue → Queue) : (s.modQueue q f).samplerTurn = s.samplerTurn := rfl
@[simp] theorem State.modQueue_samplerCmd (q : Nat) (f : Queue → Queue) : (s.modQueue q f).samplerCmd = s.samplerCmd := rfl
@[simp] theorem State.modQueue_samplers (q : Nat) (f : Queue → Queue) : (s.modQueue q f).samplers = s.samplers := rfl
@[simp] theorem State.modQueue_lanesTurn (q : Nat) (f : Queue → Queue) : (s.modQueue q f).lanesTurn = s.lanesTurn := rfl

/-! ## modCmd -/

@[simp] theorem State.modCmd_cfg (c : Nat) (f : Cmd → Cmd) : (s.modCmd c f).cfg = s.cfg := rfl
@[simp] theorem State.modCmd_pending (c : Nat) (f : Cmd → Cmd) : (s.modCmd c f).pending = s.pending := rfl
@[simp] theorem State.modCmd_out (c : Nat) (f : Cmd → Cmd) : (s.modCmd c f).out = s.out := rfl
@[simp] theorem State.modCmd_due (c : Nat) (f : Cmd → Cmd) : (s.modCmd c f).due = s.due := rfl
@[simp] theorem State.modCmd_freeCount (c : Nat) (f : Cmd → Cmd) : (s.modCmd c f).freeCount = s.freeCount := rfl
@[simp] theorem State.modCmd_loc (c : Nat) (f : Cmd → Cmd) : (s.modCmd c f).loc = s.loc := rfl
@[simp] theorem State.modCmd_ctr (c : Nat) (f : Cmd → Cmd) : (s.modCmd c f).ctr = s.ctr := rfl
@[simp] theorem State.modCmd_settings (c : Nat) (f : Cmd → Cmd) : (s.modCmd c f).settings = s.settings := rfl
@[simp] theorem State.modCmd_fuses (c : Nat) (f : Cmd → Cmd) : (s.modCmd c f).fuses = s.fuses := rfl
@[simp] theorem State.modCmd_bring (c : Nat) (f : Cmd → Cmd) : (s.modCmd c f).bring = s.bring := rfl
@[simp] theorem State.modCmd_power (c : Nat) (f : Cmd → Cmd) : (s.modCmd c f).power = s.power := rfl
@[simp] theorem State.modCmd_agent (c : Nat) (f : Cmd → Cmd) : (s.modCmd c f).agent = s.agent := rfl
@[simp] theorem State.modCmd_fw (c : Nat) (f : Cmd → Cmd) : (s.modCmd c f).fw = s.fw := rfl
@[simp] theorem State.modCmd_life (c : Nat) (f : Cmd → Cmd) : (s.modCmd c f).life = s.life := rfl
@[simp] theorem State.modCmd_alarms (c : Nat) (f : Cmd → Cmd) : (s.modCmd c f).alarms = s.alarms := rfl
@[simp] theorem State.modCmd_faults (c : Nat) (f : Cmd → Cmd) : (s.modCmd c f).faults = s.faults := rfl
@[simp] theorem State.modCmd_records (c : Nat) (f : Cmd → Cmd) : (s.modCmd c f).records = s.records := rfl
@[simp] theorem State.modCmd_keys (c : Nat) (f : Cmd → Cmd) : (s.modCmd c f).keys = s.keys := rfl
@[simp] theorem State.modCmd_gce (c : Nat) (f : Cmd → Cmd) : (s.modCmd c f).gce = s.gce := rfl
@[simp] theorem State.modCmd_random (c : Nat) (f : Cmd → Cmd) : (s.modCmd c f).random = s.random := rfl
@[simp] theorem State.modCmd_mem (c : Nat) (f : Cmd → Cmd) : (s.modCmd c f).mem = s.mem := rfl
@[simp] theorem State.modCmd_links (c : Nat) (f : Cmd → Cmd) : (s.modCmd c f).links = s.links := rfl
@[simp] theorem State.modCmd_chips (c : Nat) (f : Cmd → Cmd) : (s.modCmd c f).chips = s.chips := rfl
@[simp] theorem State.modCmd_hosts (c : Nat) (f : Cmd → Cmd) : (s.modCmd c f).hosts = s.hosts := rfl
@[simp] theorem State.modCmd_slots (c : Nat) (f : Cmd → Cmd) : (s.modCmd c f).slots = s.slots := rfl
@[simp] theorem State.modCmd_tdis (c : Nat) (f : Cmd → Cmd) : (s.modCmd c f).tdis = s.tdis := rfl
@[simp] theorem State.modCmd_stagingRoutes (c : Nat) (f : Cmd → Cmd) : (s.modCmd c f).stagingRoutes = s.stagingRoutes := rfl
@[simp] theorem State.modCmd_liveRoutes (c : Nat) (f : Cmd → Cmd) : (s.modCmd c f).liveRoutes = s.liveRoutes := rfl
@[simp] theorem State.modCmd_routeHold (c : Nat) (f : Cmd → Cmd) : (s.modCmd c f).routeHold = s.routeHold := rfl
@[simp] theorem State.modCmd_routeHeld (c : Nat) (f : Cmd → Cmd) : (s.modCmd c f).routeHeld = s.routeHeld := rfl
@[simp] theorem State.modCmd_otags (c : Nat) (f : Cmd → Cmd) : (s.modCmd c f).otags = s.otags := rfl
@[simp] theorem State.modCmd_otagNext (c : Nat) (f : Cmd → Cmd) : (s.modCmd c f).otagNext = s.otagNext := rfl
@[simp] theorem State.modCmd_heldOps (c : Nat) (f : Cmd → Cmd) : (s.modCmd c f).heldOps = s.heldOps := rfl
@[simp] theorem State.modCmd_rcache (c : Nat) (f : Cmd → Cmd) : (s.modCmd c f).rcache = s.rcache := rfl
@[simp] theorem State.modCmd_comb (c : Nat) (f : Cmd → Cmd) : (s.modCmd c f).comb = s.comb := rfl
@[simp] theorem State.modCmd_rslots (c : Nat) (f : Cmd → Cmd) : (s.modCmd c f).rslots = s.rslots := rfl
@[simp] theorem State.modCmd_early (c : Nat) (f : Cmd → Cmd) : (s.modCmd c f).early = s.early := rfl
@[simp] theorem State.modCmd_chunkRecs (c : Nat) (f : Cmd → Cmd) : (s.modCmd c f).chunkRecs = s.chunkRecs := rfl
@[simp] theorem State.modCmd_parts (c : Nat) (f : Cmd → Cmd) : (s.modCmd c f).parts = s.parts := rfl
@[simp] theorem State.modCmd_ctxs (c : Nat) (f : Cmd → Cmd) : (s.modCmd c f).ctxs = s.ctxs := rfl
@[simp] theorem State.modCmd_queues (c : Nat) (f : Cmd → Cmd) : (s.modCmd c f).queues = s.queues := rfl
@[simp] theorem State.modCmd_cmds (c : Nat) (f : Cmd → Cmd) : (s.modCmd c f).cmds = tblMod s.cmds c f {} := rfl
@[simp] theorem State.modCmd_cmdNext (c : Nat) (f : Cmd → Cmd) : (s.modCmd c f).cmdNext = s.cmdNext := rfl
@[simp] theorem State.modCmd_objs (c : Nat) (f : Cmd → Cmd) : (s.modCmd c f).objs = s.objs := rfl
@[simp] theorem State.modCmd_objLive (c : Nat) (f : Cmd → Cmd) : (s.modCmd c f).objLive = s.objLive := rfl
@[simp] theorem State.modCmd_watch (c : Nat) (f : Cmd → Cmd) : (s.modCmd c f).watch = s.watch := rfl
@[simp] theorem State.modCmd_trans (c : Nat) (f : Cmd → Cmd) : (s.modCmd c f).trans = s.trans := rfl
@[simp] theorem State.modCmd_tlb1 (c : Nat) (f : Cmd → Cmd) : (s.modCmd c f).tlb1 = s.tlb1 := rfl
@[simp] theorem State.modCmd_tlb2 (c : Nat) (f : Cmd → Cmd) : (s.modCmd c f).tlb2 = s.tlb2 := rfl
@[simp] theorem State.modCmd_walks (c : Nat) (f : Cmd → Cmd) : (s.modCmd c f).walks = s.walks := rfl
@[simp] theorem State.modCmd_walkTurn (c : Nat) (f : Cmd → Cmd) : (s.modCmd c f).walkTurn = s.walkTurn := rfl
@[simp] theorem State.modCmd_clock (c : Nat) (f : Cmd → Cmd) : (s.modCmd c f).clock = s.clock := rfl
@[simp] theorem State.modCmd_mapJob (c : Nat) (f : Cmd → Cmd) : (s.modCmd c f).mapJob = s.mapJob := rfl
@[simp] theorem State.modCmd_auOwner (c : Nat) (f : Cmd → Cmd) : (s.modCmd c f).auOwner = s.auOwner := rfl
@[simp] theorem State.modCmd_auQueue (c : Nat) (f : Cmd → Cmd) : (s.modCmd c f).auQueue = s.auQueue := rfl
@[simp] theorem State.modCmd_auLastCtx (c : Nat) (f : Cmd → Cmd) : (s.modCmd c f).auLastCtx = s.auLastCtx := rfl
@[simp] theorem State.modCmd_samplerPart (c : Nat) (f : Cmd → Cmd) : (s.modCmd c f).samplerPart = s.samplerPart := rfl
@[simp] theorem State.modCmd_samplerFifo (c : Nat) (f : Cmd → Cmd) : (s.modCmd c f).samplerFifo = s.samplerFifo := rfl
@[simp] theorem State.modCmd_samplerTurn (c : Nat) (f : Cmd → Cmd) : (s.modCmd c f).samplerTurn = s.samplerTurn := rfl
@[simp] theorem State.modCmd_samplerCmd (c : Nat) (f : Cmd → Cmd) : (s.modCmd c f).samplerCmd = s.samplerCmd := rfl
@[simp] theorem State.modCmd_samplers (c : Nat) (f : Cmd → Cmd) : (s.modCmd c f).samplers = s.samplers := rfl
@[simp] theorem State.modCmd_lanesTurn (c : Nat) (f : Cmd → Cmd) : (s.modCmd c f).lanesTurn = s.lanesTurn := rfl

/-! ## modTdi -/

@[simp] theorem State.modTdi_cfg (k : Nat) (f : Tdi → Tdi) : (s.modTdi k f).cfg = s.cfg := rfl
@[simp] theorem State.modTdi_pending (k : Nat) (f : Tdi → Tdi) : (s.modTdi k f).pending = s.pending := rfl
@[simp] theorem State.modTdi_out (k : Nat) (f : Tdi → Tdi) : (s.modTdi k f).out = s.out := rfl
@[simp] theorem State.modTdi_due (k : Nat) (f : Tdi → Tdi) : (s.modTdi k f).due = s.due := rfl
@[simp] theorem State.modTdi_freeCount (k : Nat) (f : Tdi → Tdi) : (s.modTdi k f).freeCount = s.freeCount := rfl
@[simp] theorem State.modTdi_loc (k : Nat) (f : Tdi → Tdi) : (s.modTdi k f).loc = s.loc := rfl
@[simp] theorem State.modTdi_ctr (k : Nat) (f : Tdi → Tdi) : (s.modTdi k f).ctr = s.ctr := rfl
@[simp] theorem State.modTdi_settings (k : Nat) (f : Tdi → Tdi) : (s.modTdi k f).settings = s.settings := rfl
@[simp] theorem State.modTdi_fuses (k : Nat) (f : Tdi → Tdi) : (s.modTdi k f).fuses = s.fuses := rfl
@[simp] theorem State.modTdi_bring (k : Nat) (f : Tdi → Tdi) : (s.modTdi k f).bring = s.bring := rfl
@[simp] theorem State.modTdi_power (k : Nat) (f : Tdi → Tdi) : (s.modTdi k f).power = s.power := rfl
@[simp] theorem State.modTdi_agent (k : Nat) (f : Tdi → Tdi) : (s.modTdi k f).agent = s.agent := rfl
@[simp] theorem State.modTdi_fw (k : Nat) (f : Tdi → Tdi) : (s.modTdi k f).fw = s.fw := rfl
@[simp] theorem State.modTdi_life (k : Nat) (f : Tdi → Tdi) : (s.modTdi k f).life = s.life := rfl
@[simp] theorem State.modTdi_alarms (k : Nat) (f : Tdi → Tdi) : (s.modTdi k f).alarms = s.alarms := rfl
@[simp] theorem State.modTdi_faults (k : Nat) (f : Tdi → Tdi) : (s.modTdi k f).faults = s.faults := rfl
@[simp] theorem State.modTdi_records (k : Nat) (f : Tdi → Tdi) : (s.modTdi k f).records = s.records := rfl
@[simp] theorem State.modTdi_keys (k : Nat) (f : Tdi → Tdi) : (s.modTdi k f).keys = s.keys := rfl
@[simp] theorem State.modTdi_gce (k : Nat) (f : Tdi → Tdi) : (s.modTdi k f).gce = s.gce := rfl
@[simp] theorem State.modTdi_random (k : Nat) (f : Tdi → Tdi) : (s.modTdi k f).random = s.random := rfl
@[simp] theorem State.modTdi_mem (k : Nat) (f : Tdi → Tdi) : (s.modTdi k f).mem = s.mem := rfl
@[simp] theorem State.modTdi_links (k : Nat) (f : Tdi → Tdi) : (s.modTdi k f).links = s.links := rfl
@[simp] theorem State.modTdi_chips (k : Nat) (f : Tdi → Tdi) : (s.modTdi k f).chips = s.chips := rfl
@[simp] theorem State.modTdi_hosts (k : Nat) (f : Tdi → Tdi) : (s.modTdi k f).hosts = s.hosts := rfl
@[simp] theorem State.modTdi_slots (k : Nat) (f : Tdi → Tdi) : (s.modTdi k f).slots = s.slots := rfl
@[simp] theorem State.modTdi_tdis (k : Nat) (f : Tdi → Tdi) : (s.modTdi k f).tdis = tblMod s.tdis k f {} := rfl
@[simp] theorem State.modTdi_stagingRoutes (k : Nat) (f : Tdi → Tdi) : (s.modTdi k f).stagingRoutes = s.stagingRoutes := rfl
@[simp] theorem State.modTdi_liveRoutes (k : Nat) (f : Tdi → Tdi) : (s.modTdi k f).liveRoutes = s.liveRoutes := rfl
@[simp] theorem State.modTdi_routeHold (k : Nat) (f : Tdi → Tdi) : (s.modTdi k f).routeHold = s.routeHold := rfl
@[simp] theorem State.modTdi_routeHeld (k : Nat) (f : Tdi → Tdi) : (s.modTdi k f).routeHeld = s.routeHeld := rfl
@[simp] theorem State.modTdi_otags (k : Nat) (f : Tdi → Tdi) : (s.modTdi k f).otags = s.otags := rfl
@[simp] theorem State.modTdi_otagNext (k : Nat) (f : Tdi → Tdi) : (s.modTdi k f).otagNext = s.otagNext := rfl
@[simp] theorem State.modTdi_heldOps (k : Nat) (f : Tdi → Tdi) : (s.modTdi k f).heldOps = s.heldOps := rfl
@[simp] theorem State.modTdi_rcache (k : Nat) (f : Tdi → Tdi) : (s.modTdi k f).rcache = s.rcache := rfl
@[simp] theorem State.modTdi_comb (k : Nat) (f : Tdi → Tdi) : (s.modTdi k f).comb = s.comb := rfl
@[simp] theorem State.modTdi_rslots (k : Nat) (f : Tdi → Tdi) : (s.modTdi k f).rslots = s.rslots := rfl
@[simp] theorem State.modTdi_early (k : Nat) (f : Tdi → Tdi) : (s.modTdi k f).early = s.early := rfl
@[simp] theorem State.modTdi_chunkRecs (k : Nat) (f : Tdi → Tdi) : (s.modTdi k f).chunkRecs = s.chunkRecs := rfl
@[simp] theorem State.modTdi_parts (k : Nat) (f : Tdi → Tdi) : (s.modTdi k f).parts = s.parts := rfl
@[simp] theorem State.modTdi_ctxs (k : Nat) (f : Tdi → Tdi) : (s.modTdi k f).ctxs = s.ctxs := rfl
@[simp] theorem State.modTdi_queues (k : Nat) (f : Tdi → Tdi) : (s.modTdi k f).queues = s.queues := rfl
@[simp] theorem State.modTdi_cmds (k : Nat) (f : Tdi → Tdi) : (s.modTdi k f).cmds = s.cmds := rfl
@[simp] theorem State.modTdi_cmdNext (k : Nat) (f : Tdi → Tdi) : (s.modTdi k f).cmdNext = s.cmdNext := rfl
@[simp] theorem State.modTdi_objs (k : Nat) (f : Tdi → Tdi) : (s.modTdi k f).objs = s.objs := rfl
@[simp] theorem State.modTdi_objLive (k : Nat) (f : Tdi → Tdi) : (s.modTdi k f).objLive = s.objLive := rfl
@[simp] theorem State.modTdi_watch (k : Nat) (f : Tdi → Tdi) : (s.modTdi k f).watch = s.watch := rfl
@[simp] theorem State.modTdi_trans (k : Nat) (f : Tdi → Tdi) : (s.modTdi k f).trans = s.trans := rfl
@[simp] theorem State.modTdi_tlb1 (k : Nat) (f : Tdi → Tdi) : (s.modTdi k f).tlb1 = s.tlb1 := rfl
@[simp] theorem State.modTdi_tlb2 (k : Nat) (f : Tdi → Tdi) : (s.modTdi k f).tlb2 = s.tlb2 := rfl
@[simp] theorem State.modTdi_walks (k : Nat) (f : Tdi → Tdi) : (s.modTdi k f).walks = s.walks := rfl
@[simp] theorem State.modTdi_walkTurn (k : Nat) (f : Tdi → Tdi) : (s.modTdi k f).walkTurn = s.walkTurn := rfl
@[simp] theorem State.modTdi_clock (k : Nat) (f : Tdi → Tdi) : (s.modTdi k f).clock = s.clock := rfl
@[simp] theorem State.modTdi_mapJob (k : Nat) (f : Tdi → Tdi) : (s.modTdi k f).mapJob = s.mapJob := rfl
@[simp] theorem State.modTdi_auOwner (k : Nat) (f : Tdi → Tdi) : (s.modTdi k f).auOwner = s.auOwner := rfl
@[simp] theorem State.modTdi_auQueue (k : Nat) (f : Tdi → Tdi) : (s.modTdi k f).auQueue = s.auQueue := rfl
@[simp] theorem State.modTdi_auLastCtx (k : Nat) (f : Tdi → Tdi) : (s.modTdi k f).auLastCtx = s.auLastCtx := rfl
@[simp] theorem State.modTdi_samplerPart (k : Nat) (f : Tdi → Tdi) : (s.modTdi k f).samplerPart = s.samplerPart := rfl
@[simp] theorem State.modTdi_samplerFifo (k : Nat) (f : Tdi → Tdi) : (s.modTdi k f).samplerFifo = s.samplerFifo := rfl
@[simp] theorem State.modTdi_samplerTurn (k : Nat) (f : Tdi → Tdi) : (s.modTdi k f).samplerTurn = s.samplerTurn := rfl
@[simp] theorem State.modTdi_samplerCmd (k : Nat) (f : Tdi → Tdi) : (s.modTdi k f).samplerCmd = s.samplerCmd := rfl
@[simp] theorem State.modTdi_samplers (k : Nat) (f : Tdi → Tdi) : (s.modTdi k f).samplers = s.samplers := rfl
@[simp] theorem State.modTdi_lanesTurn (k : Nat) (f : Tdi → Tdi) : (s.modTdi k f).lanesTurn = s.lanesTurn := rfl

/-! ## modTrans -/

@[simp] theorem State.modTrans_cfg (p : Nat) (f : Trans → Trans) : (s.modTrans p f).cfg = s.cfg := rfl
@[simp] theorem State.modTrans_pending (p : Nat) (f : Trans → Trans) : (s.modTrans p f).pending = s.pending := rfl
@[simp] theorem State.modTrans_out (p : Nat) (f : Trans → Trans) : (s.modTrans p f).out = s.out := rfl
@[simp] theorem State.modTrans_due (p : Nat) (f : Trans → Trans) : (s.modTrans p f).due = s.due := rfl
@[simp] theorem State.modTrans_freeCount (p : Nat) (f : Trans → Trans) : (s.modTrans p f).freeCount = s.freeCount := rfl
@[simp] theorem State.modTrans_loc (p : Nat) (f : Trans → Trans) : (s.modTrans p f).loc = s.loc := rfl
@[simp] theorem State.modTrans_ctr (p : Nat) (f : Trans → Trans) : (s.modTrans p f).ctr = s.ctr := rfl
@[simp] theorem State.modTrans_settings (p : Nat) (f : Trans → Trans) : (s.modTrans p f).settings = s.settings := rfl
@[simp] theorem State.modTrans_fuses (p : Nat) (f : Trans → Trans) : (s.modTrans p f).fuses = s.fuses := rfl
@[simp] theorem State.modTrans_bring (p : Nat) (f : Trans → Trans) : (s.modTrans p f).bring = s.bring := rfl
@[simp] theorem State.modTrans_power (p : Nat) (f : Trans → Trans) : (s.modTrans p f).power = s.power := rfl
@[simp] theorem State.modTrans_agent (p : Nat) (f : Trans → Trans) : (s.modTrans p f).agent = s.agent := rfl
@[simp] theorem State.modTrans_fw (p : Nat) (f : Trans → Trans) : (s.modTrans p f).fw = s.fw := rfl
@[simp] theorem State.modTrans_life (p : Nat) (f : Trans → Trans) : (s.modTrans p f).life = s.life := rfl
@[simp] theorem State.modTrans_alarms (p : Nat) (f : Trans → Trans) : (s.modTrans p f).alarms = s.alarms := rfl
@[simp] theorem State.modTrans_faults (p : Nat) (f : Trans → Trans) : (s.modTrans p f).faults = s.faults := rfl
@[simp] theorem State.modTrans_records (p : Nat) (f : Trans → Trans) : (s.modTrans p f).records = s.records := rfl
@[simp] theorem State.modTrans_keys (p : Nat) (f : Trans → Trans) : (s.modTrans p f).keys = s.keys := rfl
@[simp] theorem State.modTrans_gce (p : Nat) (f : Trans → Trans) : (s.modTrans p f).gce = s.gce := rfl
@[simp] theorem State.modTrans_random (p : Nat) (f : Trans → Trans) : (s.modTrans p f).random = s.random := rfl
@[simp] theorem State.modTrans_mem (p : Nat) (f : Trans → Trans) : (s.modTrans p f).mem = s.mem := rfl
@[simp] theorem State.modTrans_links (p : Nat) (f : Trans → Trans) : (s.modTrans p f).links = s.links := rfl
@[simp] theorem State.modTrans_chips (p : Nat) (f : Trans → Trans) : (s.modTrans p f).chips = s.chips := rfl
@[simp] theorem State.modTrans_hosts (p : Nat) (f : Trans → Trans) : (s.modTrans p f).hosts = s.hosts := rfl
@[simp] theorem State.modTrans_slots (p : Nat) (f : Trans → Trans) : (s.modTrans p f).slots = s.slots := rfl
@[simp] theorem State.modTrans_tdis (p : Nat) (f : Trans → Trans) : (s.modTrans p f).tdis = s.tdis := rfl
@[simp] theorem State.modTrans_stagingRoutes (p : Nat) (f : Trans → Trans) : (s.modTrans p f).stagingRoutes = s.stagingRoutes := rfl
@[simp] theorem State.modTrans_liveRoutes (p : Nat) (f : Trans → Trans) : (s.modTrans p f).liveRoutes = s.liveRoutes := rfl
@[simp] theorem State.modTrans_routeHold (p : Nat) (f : Trans → Trans) : (s.modTrans p f).routeHold = s.routeHold := rfl
@[simp] theorem State.modTrans_routeHeld (p : Nat) (f : Trans → Trans) : (s.modTrans p f).routeHeld = s.routeHeld := rfl
@[simp] theorem State.modTrans_otags (p : Nat) (f : Trans → Trans) : (s.modTrans p f).otags = s.otags := rfl
@[simp] theorem State.modTrans_otagNext (p : Nat) (f : Trans → Trans) : (s.modTrans p f).otagNext = s.otagNext := rfl
@[simp] theorem State.modTrans_heldOps (p : Nat) (f : Trans → Trans) : (s.modTrans p f).heldOps = s.heldOps := rfl
@[simp] theorem State.modTrans_rcache (p : Nat) (f : Trans → Trans) : (s.modTrans p f).rcache = s.rcache := rfl
@[simp] theorem State.modTrans_comb (p : Nat) (f : Trans → Trans) : (s.modTrans p f).comb = s.comb := rfl
@[simp] theorem State.modTrans_rslots (p : Nat) (f : Trans → Trans) : (s.modTrans p f).rslots = s.rslots := rfl
@[simp] theorem State.modTrans_early (p : Nat) (f : Trans → Trans) : (s.modTrans p f).early = s.early := rfl
@[simp] theorem State.modTrans_chunkRecs (p : Nat) (f : Trans → Trans) : (s.modTrans p f).chunkRecs = s.chunkRecs := rfl
@[simp] theorem State.modTrans_parts (p : Nat) (f : Trans → Trans) : (s.modTrans p f).parts = s.parts := rfl
@[simp] theorem State.modTrans_ctxs (p : Nat) (f : Trans → Trans) : (s.modTrans p f).ctxs = s.ctxs := rfl
@[simp] theorem State.modTrans_queues (p : Nat) (f : Trans → Trans) : (s.modTrans p f).queues = s.queues := rfl
@[simp] theorem State.modTrans_cmds (p : Nat) (f : Trans → Trans) : (s.modTrans p f).cmds = s.cmds := rfl
@[simp] theorem State.modTrans_cmdNext (p : Nat) (f : Trans → Trans) : (s.modTrans p f).cmdNext = s.cmdNext := rfl
@[simp] theorem State.modTrans_objs (p : Nat) (f : Trans → Trans) : (s.modTrans p f).objs = s.objs := rfl
@[simp] theorem State.modTrans_objLive (p : Nat) (f : Trans → Trans) : (s.modTrans p f).objLive = s.objLive := rfl
@[simp] theorem State.modTrans_watch (p : Nat) (f : Trans → Trans) : (s.modTrans p f).watch = s.watch := rfl
@[simp] theorem State.modTrans_trans (p : Nat) (f : Trans → Trans) : (s.modTrans p f).trans = tblMod s.trans p f {} := rfl
@[simp] theorem State.modTrans_tlb1 (p : Nat) (f : Trans → Trans) : (s.modTrans p f).tlb1 = s.tlb1 := rfl
@[simp] theorem State.modTrans_tlb2 (p : Nat) (f : Trans → Trans) : (s.modTrans p f).tlb2 = s.tlb2 := rfl
@[simp] theorem State.modTrans_walks (p : Nat) (f : Trans → Trans) : (s.modTrans p f).walks = s.walks := rfl
@[simp] theorem State.modTrans_walkTurn (p : Nat) (f : Trans → Trans) : (s.modTrans p f).walkTurn = s.walkTurn := rfl
@[simp] theorem State.modTrans_clock (p : Nat) (f : Trans → Trans) : (s.modTrans p f).clock = s.clock := rfl
@[simp] theorem State.modTrans_mapJob (p : Nat) (f : Trans → Trans) : (s.modTrans p f).mapJob = s.mapJob := rfl
@[simp] theorem State.modTrans_auOwner (p : Nat) (f : Trans → Trans) : (s.modTrans p f).auOwner = s.auOwner := rfl
@[simp] theorem State.modTrans_auQueue (p : Nat) (f : Trans → Trans) : (s.modTrans p f).auQueue = s.auQueue := rfl
@[simp] theorem State.modTrans_auLastCtx (p : Nat) (f : Trans → Trans) : (s.modTrans p f).auLastCtx = s.auLastCtx := rfl
@[simp] theorem State.modTrans_samplerPart (p : Nat) (f : Trans → Trans) : (s.modTrans p f).samplerPart = s.samplerPart := rfl
@[simp] theorem State.modTrans_samplerFifo (p : Nat) (f : Trans → Trans) : (s.modTrans p f).samplerFifo = s.samplerFifo := rfl
@[simp] theorem State.modTrans_samplerTurn (p : Nat) (f : Trans → Trans) : (s.modTrans p f).samplerTurn = s.samplerTurn := rfl
@[simp] theorem State.modTrans_samplerCmd (p : Nat) (f : Trans → Trans) : (s.modTrans p f).samplerCmd = s.samplerCmd := rfl
@[simp] theorem State.modTrans_samplers (p : Nat) (f : Trans → Trans) : (s.modTrans p f).samplers = s.samplers := rfl
@[simp] theorem State.modTrans_lanesTurn (p : Nat) (f : Trans → Trans) : (s.modTrans p f).lanesTurn = s.lanesTurn := rfl

/-! ## modKeys -/

@[simp] theorem State.modKeys_cfg (f : KeyStore → KeyStore) : (s.modKeys f).cfg = s.cfg := rfl
@[simp] theorem State.modKeys_pending (f : KeyStore → KeyStore) : (s.modKeys f).pending = s.pending := rfl
@[simp] theorem State.modKeys_out (f : KeyStore → KeyStore) : (s.modKeys f).out = s.out := rfl
@[simp] theorem State.modKeys_due (f : KeyStore → KeyStore) : (s.modKeys f).due = s.due := rfl
@[simp] theorem State.modKeys_freeCount (f : KeyStore → KeyStore) : (s.modKeys f).freeCount = s.freeCount := rfl
@[simp] theorem State.modKeys_loc (f : KeyStore → KeyStore) : (s.modKeys f).loc = s.loc := rfl
@[simp] theorem State.modKeys_ctr (f : KeyStore → KeyStore) : (s.modKeys f).ctr = s.ctr := rfl
@[simp] theorem State.modKeys_settings (f : KeyStore → KeyStore) : (s.modKeys f).settings = s.settings := rfl
@[simp] theorem State.modKeys_fuses (f : KeyStore → KeyStore) : (s.modKeys f).fuses = s.fuses := rfl
@[simp] theorem State.modKeys_bring (f : KeyStore → KeyStore) : (s.modKeys f).bring = s.bring := rfl
@[simp] theorem State.modKeys_power (f : KeyStore → KeyStore) : (s.modKeys f).power = s.power := rfl
@[simp] theorem State.modKeys_agent (f : KeyStore → KeyStore) : (s.modKeys f).agent = s.agent := rfl
@[simp] theorem State.modKeys_fw (f : KeyStore → KeyStore) : (s.modKeys f).fw = s.fw := rfl
@[simp] theorem State.modKeys_life (f : KeyStore → KeyStore) : (s.modKeys f).life = s.life := rfl
@[simp] theorem State.modKeys_alarms (f : KeyStore → KeyStore) : (s.modKeys f).alarms = s.alarms := rfl
@[simp] theorem State.modKeys_faults (f : KeyStore → KeyStore) : (s.modKeys f).faults = s.faults := rfl
@[simp] theorem State.modKeys_records (f : KeyStore → KeyStore) : (s.modKeys f).records = s.records := rfl
@[simp] theorem State.modKeys_keys (f : KeyStore → KeyStore) : (s.modKeys f).keys = f s.keys := rfl
@[simp] theorem State.modKeys_gce (f : KeyStore → KeyStore) : (s.modKeys f).gce = s.gce := rfl
@[simp] theorem State.modKeys_random (f : KeyStore → KeyStore) : (s.modKeys f).random = s.random := rfl
@[simp] theorem State.modKeys_mem (f : KeyStore → KeyStore) : (s.modKeys f).mem = s.mem := rfl
@[simp] theorem State.modKeys_links (f : KeyStore → KeyStore) : (s.modKeys f).links = s.links := rfl
@[simp] theorem State.modKeys_chips (f : KeyStore → KeyStore) : (s.modKeys f).chips = s.chips := rfl
@[simp] theorem State.modKeys_hosts (f : KeyStore → KeyStore) : (s.modKeys f).hosts = s.hosts := rfl
@[simp] theorem State.modKeys_slots (f : KeyStore → KeyStore) : (s.modKeys f).slots = s.slots := rfl
@[simp] theorem State.modKeys_tdis (f : KeyStore → KeyStore) : (s.modKeys f).tdis = s.tdis := rfl
@[simp] theorem State.modKeys_stagingRoutes (f : KeyStore → KeyStore) : (s.modKeys f).stagingRoutes = s.stagingRoutes := rfl
@[simp] theorem State.modKeys_liveRoutes (f : KeyStore → KeyStore) : (s.modKeys f).liveRoutes = s.liveRoutes := rfl
@[simp] theorem State.modKeys_routeHold (f : KeyStore → KeyStore) : (s.modKeys f).routeHold = s.routeHold := rfl
@[simp] theorem State.modKeys_routeHeld (f : KeyStore → KeyStore) : (s.modKeys f).routeHeld = s.routeHeld := rfl
@[simp] theorem State.modKeys_otags (f : KeyStore → KeyStore) : (s.modKeys f).otags = s.otags := rfl
@[simp] theorem State.modKeys_otagNext (f : KeyStore → KeyStore) : (s.modKeys f).otagNext = s.otagNext := rfl
@[simp] theorem State.modKeys_heldOps (f : KeyStore → KeyStore) : (s.modKeys f).heldOps = s.heldOps := rfl
@[simp] theorem State.modKeys_rcache (f : KeyStore → KeyStore) : (s.modKeys f).rcache = s.rcache := rfl
@[simp] theorem State.modKeys_comb (f : KeyStore → KeyStore) : (s.modKeys f).comb = s.comb := rfl
@[simp] theorem State.modKeys_rslots (f : KeyStore → KeyStore) : (s.modKeys f).rslots = s.rslots := rfl
@[simp] theorem State.modKeys_early (f : KeyStore → KeyStore) : (s.modKeys f).early = s.early := rfl
@[simp] theorem State.modKeys_chunkRecs (f : KeyStore → KeyStore) : (s.modKeys f).chunkRecs = s.chunkRecs := rfl
@[simp] theorem State.modKeys_parts (f : KeyStore → KeyStore) : (s.modKeys f).parts = s.parts := rfl
@[simp] theorem State.modKeys_ctxs (f : KeyStore → KeyStore) : (s.modKeys f).ctxs = s.ctxs := rfl
@[simp] theorem State.modKeys_queues (f : KeyStore → KeyStore) : (s.modKeys f).queues = s.queues := rfl
@[simp] theorem State.modKeys_cmds (f : KeyStore → KeyStore) : (s.modKeys f).cmds = s.cmds := rfl
@[simp] theorem State.modKeys_cmdNext (f : KeyStore → KeyStore) : (s.modKeys f).cmdNext = s.cmdNext := rfl
@[simp] theorem State.modKeys_objs (f : KeyStore → KeyStore) : (s.modKeys f).objs = s.objs := rfl
@[simp] theorem State.modKeys_objLive (f : KeyStore → KeyStore) : (s.modKeys f).objLive = s.objLive := rfl
@[simp] theorem State.modKeys_watch (f : KeyStore → KeyStore) : (s.modKeys f).watch = s.watch := rfl
@[simp] theorem State.modKeys_trans (f : KeyStore → KeyStore) : (s.modKeys f).trans = s.trans := rfl
@[simp] theorem State.modKeys_tlb1 (f : KeyStore → KeyStore) : (s.modKeys f).tlb1 = s.tlb1 := rfl
@[simp] theorem State.modKeys_tlb2 (f : KeyStore → KeyStore) : (s.modKeys f).tlb2 = s.tlb2 := rfl
@[simp] theorem State.modKeys_walks (f : KeyStore → KeyStore) : (s.modKeys f).walks = s.walks := rfl
@[simp] theorem State.modKeys_walkTurn (f : KeyStore → KeyStore) : (s.modKeys f).walkTurn = s.walkTurn := rfl
@[simp] theorem State.modKeys_clock (f : KeyStore → KeyStore) : (s.modKeys f).clock = s.clock := rfl
@[simp] theorem State.modKeys_mapJob (f : KeyStore → KeyStore) : (s.modKeys f).mapJob = s.mapJob := rfl
@[simp] theorem State.modKeys_auOwner (f : KeyStore → KeyStore) : (s.modKeys f).auOwner = s.auOwner := rfl
@[simp] theorem State.modKeys_auQueue (f : KeyStore → KeyStore) : (s.modKeys f).auQueue = s.auQueue := rfl
@[simp] theorem State.modKeys_auLastCtx (f : KeyStore → KeyStore) : (s.modKeys f).auLastCtx = s.auLastCtx := rfl
@[simp] theorem State.modKeys_samplerPart (f : KeyStore → KeyStore) : (s.modKeys f).samplerPart = s.samplerPart := rfl
@[simp] theorem State.modKeys_samplerFifo (f : KeyStore → KeyStore) : (s.modKeys f).samplerFifo = s.samplerFifo := rfl
@[simp] theorem State.modKeys_samplerTurn (f : KeyStore → KeyStore) : (s.modKeys f).samplerTurn = s.samplerTurn := rfl
@[simp] theorem State.modKeys_samplerCmd (f : KeyStore → KeyStore) : (s.modKeys f).samplerCmd = s.samplerCmd := rfl
@[simp] theorem State.modKeys_samplers (f : KeyStore → KeyStore) : (s.modKeys f).samplers = s.samplers := rfl
@[simp] theorem State.modKeys_lanesTurn (f : KeyStore → KeyStore) : (s.modKeys f).lanesTurn = s.lanesTurn := rfl

/-! ## putSlot -/

@[simp] theorem State.putSlot_cfg (i : Nat) (k : KeySlot) : (s.putSlot i k).cfg = s.cfg := rfl
@[simp] theorem State.putSlot_pending (i : Nat) (k : KeySlot) : (s.putSlot i k).pending = s.pending := rfl
@[simp] theorem State.putSlot_out (i : Nat) (k : KeySlot) : (s.putSlot i k).out = s.out := rfl
@[simp] theorem State.putSlot_due (i : Nat) (k : KeySlot) : (s.putSlot i k).due = s.due := rfl
@[simp] theorem State.putSlot_freeCount (i : Nat) (k : KeySlot) : (s.putSlot i k).freeCount = s.freeCount := rfl
@[simp] theorem State.putSlot_loc (i : Nat) (k : KeySlot) : (s.putSlot i k).loc = s.loc := rfl
@[simp] theorem State.putSlot_ctr (i : Nat) (k : KeySlot) : (s.putSlot i k).ctr = s.ctr := rfl
@[simp] theorem State.putSlot_settings (i : Nat) (k : KeySlot) : (s.putSlot i k).settings = s.settings := rfl
@[simp] theorem State.putSlot_fuses (i : Nat) (k : KeySlot) : (s.putSlot i k).fuses = s.fuses := rfl
@[simp] theorem State.putSlot_bring (i : Nat) (k : KeySlot) : (s.putSlot i k).bring = s.bring := rfl
@[simp] theorem State.putSlot_power (i : Nat) (k : KeySlot) : (s.putSlot i k).power = s.power := rfl
@[simp] theorem State.putSlot_agent (i : Nat) (k : KeySlot) : (s.putSlot i k).agent = s.agent := rfl
@[simp] theorem State.putSlot_fw (i : Nat) (k : KeySlot) : (s.putSlot i k).fw = s.fw := rfl
@[simp] theorem State.putSlot_life (i : Nat) (k : KeySlot) : (s.putSlot i k).life = s.life := rfl
@[simp] theorem State.putSlot_alarms (i : Nat) (k : KeySlot) : (s.putSlot i k).alarms = s.alarms := rfl
@[simp] theorem State.putSlot_faults (i : Nat) (k : KeySlot) : (s.putSlot i k).faults = s.faults := rfl
@[simp] theorem State.putSlot_records (i : Nat) (k : KeySlot) : (s.putSlot i k).records = s.records := rfl
@[simp] theorem State.putSlot_keys (i : Nat) (k : KeySlot) : (s.putSlot i k).keys = { s.keys with slots := tblSet s.keys.slots i (s.placed i k) {} } := rfl
@[simp] theorem State.putSlot_gce (i : Nat) (k : KeySlot) : (s.putSlot i k).gce = s.gce := rfl
@[simp] theorem State.putSlot_random (i : Nat) (k : KeySlot) : (s.putSlot i k).random = s.random := rfl
@[simp] theorem State.putSlot_mem (i : Nat) (k : KeySlot) : (s.putSlot i k).mem = s.mem := rfl
@[simp] theorem State.putSlot_links (i : Nat) (k : KeySlot) : (s.putSlot i k).links = s.links := rfl
@[simp] theorem State.putSlot_chips (i : Nat) (k : KeySlot) : (s.putSlot i k).chips = s.chips := rfl
@[simp] theorem State.putSlot_hosts (i : Nat) (k : KeySlot) : (s.putSlot i k).hosts = s.hosts := rfl
@[simp] theorem State.putSlot_slots (i : Nat) (k : KeySlot) : (s.putSlot i k).slots = s.slots := rfl
@[simp] theorem State.putSlot_tdis (i : Nat) (k : KeySlot) : (s.putSlot i k).tdis = s.tdis := rfl
@[simp] theorem State.putSlot_stagingRoutes (i : Nat) (k : KeySlot) : (s.putSlot i k).stagingRoutes = s.stagingRoutes := rfl
@[simp] theorem State.putSlot_liveRoutes (i : Nat) (k : KeySlot) : (s.putSlot i k).liveRoutes = s.liveRoutes := rfl
@[simp] theorem State.putSlot_routeHold (i : Nat) (k : KeySlot) : (s.putSlot i k).routeHold = s.routeHold := rfl
@[simp] theorem State.putSlot_routeHeld (i : Nat) (k : KeySlot) : (s.putSlot i k).routeHeld = s.routeHeld := rfl
@[simp] theorem State.putSlot_otags (i : Nat) (k : KeySlot) : (s.putSlot i k).otags = s.otags := rfl
@[simp] theorem State.putSlot_otagNext (i : Nat) (k : KeySlot) : (s.putSlot i k).otagNext = s.otagNext := rfl
@[simp] theorem State.putSlot_heldOps (i : Nat) (k : KeySlot) : (s.putSlot i k).heldOps = s.heldOps := rfl
@[simp] theorem State.putSlot_rcache (i : Nat) (k : KeySlot) : (s.putSlot i k).rcache = s.rcache := rfl
@[simp] theorem State.putSlot_comb (i : Nat) (k : KeySlot) : (s.putSlot i k).comb = s.comb := rfl
@[simp] theorem State.putSlot_rslots (i : Nat) (k : KeySlot) : (s.putSlot i k).rslots = s.rslots := rfl
@[simp] theorem State.putSlot_early (i : Nat) (k : KeySlot) : (s.putSlot i k).early = s.early := rfl
@[simp] theorem State.putSlot_chunkRecs (i : Nat) (k : KeySlot) : (s.putSlot i k).chunkRecs = s.chunkRecs := rfl
@[simp] theorem State.putSlot_parts (i : Nat) (k : KeySlot) : (s.putSlot i k).parts = s.parts := rfl
@[simp] theorem State.putSlot_ctxs (i : Nat) (k : KeySlot) : (s.putSlot i k).ctxs = s.ctxs := rfl
@[simp] theorem State.putSlot_queues (i : Nat) (k : KeySlot) : (s.putSlot i k).queues = s.queues := rfl
@[simp] theorem State.putSlot_cmds (i : Nat) (k : KeySlot) : (s.putSlot i k).cmds = s.cmds := rfl
@[simp] theorem State.putSlot_cmdNext (i : Nat) (k : KeySlot) : (s.putSlot i k).cmdNext = s.cmdNext := rfl
@[simp] theorem State.putSlot_objs (i : Nat) (k : KeySlot) : (s.putSlot i k).objs = s.objs := rfl
@[simp] theorem State.putSlot_objLive (i : Nat) (k : KeySlot) : (s.putSlot i k).objLive = s.objLive := rfl
@[simp] theorem State.putSlot_watch (i : Nat) (k : KeySlot) : (s.putSlot i k).watch = s.watch := rfl
@[simp] theorem State.putSlot_trans (i : Nat) (k : KeySlot) : (s.putSlot i k).trans = s.trans := rfl
@[simp] theorem State.putSlot_tlb1 (i : Nat) (k : KeySlot) : (s.putSlot i k).tlb1 = s.tlb1 := rfl
@[simp] theorem State.putSlot_tlb2 (i : Nat) (k : KeySlot) : (s.putSlot i k).tlb2 = s.tlb2 := rfl
@[simp] theorem State.putSlot_walks (i : Nat) (k : KeySlot) : (s.putSlot i k).walks = s.walks := rfl
@[simp] theorem State.putSlot_walkTurn (i : Nat) (k : KeySlot) : (s.putSlot i k).walkTurn = s.walkTurn := rfl
@[simp] theorem State.putSlot_clock (i : Nat) (k : KeySlot) : (s.putSlot i k).clock = s.clock := rfl
@[simp] theorem State.putSlot_mapJob (i : Nat) (k : KeySlot) : (s.putSlot i k).mapJob = s.mapJob := rfl
@[simp] theorem State.putSlot_auOwner (i : Nat) (k : KeySlot) : (s.putSlot i k).auOwner = s.auOwner := rfl
@[simp] theorem State.putSlot_auQueue (i : Nat) (k : KeySlot) : (s.putSlot i k).auQueue = s.auQueue := rfl
@[simp] theorem State.putSlot_auLastCtx (i : Nat) (k : KeySlot) : (s.putSlot i k).auLastCtx = s.auLastCtx := rfl
@[simp] theorem State.putSlot_samplerPart (i : Nat) (k : KeySlot) : (s.putSlot i k).samplerPart = s.samplerPart := rfl
@[simp] theorem State.putSlot_samplerFifo (i : Nat) (k : KeySlot) : (s.putSlot i k).samplerFifo = s.samplerFifo := rfl
@[simp] theorem State.putSlot_samplerTurn (i : Nat) (k : KeySlot) : (s.putSlot i k).samplerTurn = s.samplerTurn := rfl
@[simp] theorem State.putSlot_samplerCmd (i : Nat) (k : KeySlot) : (s.putSlot i k).samplerCmd = s.samplerCmd := rfl
@[simp] theorem State.putSlot_samplers (i : Nat) (k : KeySlot) : (s.putSlot i k).samplers = s.samplers := rfl
@[simp] theorem State.putSlot_lanesTurn (i : Nat) (k : KeySlot) : (s.putSlot i k).lanesTurn = s.lanesTurn := rfl

/-! ## modGce -/

@[simp] theorem State.modGce_cfg (f : Gce → Gce) : (s.modGce f).cfg = s.cfg := rfl
@[simp] theorem State.modGce_pending (f : Gce → Gce) : (s.modGce f).pending = s.pending := rfl
@[simp] theorem State.modGce_out (f : Gce → Gce) : (s.modGce f).out = s.out := rfl
@[simp] theorem State.modGce_due (f : Gce → Gce) : (s.modGce f).due = s.due := rfl
@[simp] theorem State.modGce_freeCount (f : Gce → Gce) : (s.modGce f).freeCount = s.freeCount := rfl
@[simp] theorem State.modGce_loc (f : Gce → Gce) : (s.modGce f).loc = s.loc := rfl
@[simp] theorem State.modGce_ctr (f : Gce → Gce) : (s.modGce f).ctr = s.ctr := rfl
@[simp] theorem State.modGce_settings (f : Gce → Gce) : (s.modGce f).settings = s.settings := rfl
@[simp] theorem State.modGce_fuses (f : Gce → Gce) : (s.modGce f).fuses = s.fuses := rfl
@[simp] theorem State.modGce_bring (f : Gce → Gce) : (s.modGce f).bring = s.bring := rfl
@[simp] theorem State.modGce_power (f : Gce → Gce) : (s.modGce f).power = s.power := rfl
@[simp] theorem State.modGce_agent (f : Gce → Gce) : (s.modGce f).agent = s.agent := rfl
@[simp] theorem State.modGce_fw (f : Gce → Gce) : (s.modGce f).fw = s.fw := rfl
@[simp] theorem State.modGce_life (f : Gce → Gce) : (s.modGce f).life = s.life := rfl
@[simp] theorem State.modGce_alarms (f : Gce → Gce) : (s.modGce f).alarms = s.alarms := rfl
@[simp] theorem State.modGce_faults (f : Gce → Gce) : (s.modGce f).faults = s.faults := rfl
@[simp] theorem State.modGce_records (f : Gce → Gce) : (s.modGce f).records = s.records := rfl
@[simp] theorem State.modGce_keys (f : Gce → Gce) : (s.modGce f).keys = s.keys := rfl
@[simp] theorem State.modGce_gce (f : Gce → Gce) : (s.modGce f).gce = f s.gce := rfl
@[simp] theorem State.modGce_random (f : Gce → Gce) : (s.modGce f).random = s.random := rfl
@[simp] theorem State.modGce_mem (f : Gce → Gce) : (s.modGce f).mem = s.mem := rfl
@[simp] theorem State.modGce_links (f : Gce → Gce) : (s.modGce f).links = s.links := rfl
@[simp] theorem State.modGce_chips (f : Gce → Gce) : (s.modGce f).chips = s.chips := rfl
@[simp] theorem State.modGce_hosts (f : Gce → Gce) : (s.modGce f).hosts = s.hosts := rfl
@[simp] theorem State.modGce_slots (f : Gce → Gce) : (s.modGce f).slots = s.slots := rfl
@[simp] theorem State.modGce_tdis (f : Gce → Gce) : (s.modGce f).tdis = s.tdis := rfl
@[simp] theorem State.modGce_stagingRoutes (f : Gce → Gce) : (s.modGce f).stagingRoutes = s.stagingRoutes := rfl
@[simp] theorem State.modGce_liveRoutes (f : Gce → Gce) : (s.modGce f).liveRoutes = s.liveRoutes := rfl
@[simp] theorem State.modGce_routeHold (f : Gce → Gce) : (s.modGce f).routeHold = s.routeHold := rfl
@[simp] theorem State.modGce_routeHeld (f : Gce → Gce) : (s.modGce f).routeHeld = s.routeHeld := rfl
@[simp] theorem State.modGce_otags (f : Gce → Gce) : (s.modGce f).otags = s.otags := rfl
@[simp] theorem State.modGce_otagNext (f : Gce → Gce) : (s.modGce f).otagNext = s.otagNext := rfl
@[simp] theorem State.modGce_heldOps (f : Gce → Gce) : (s.modGce f).heldOps = s.heldOps := rfl
@[simp] theorem State.modGce_rcache (f : Gce → Gce) : (s.modGce f).rcache = s.rcache := rfl
@[simp] theorem State.modGce_comb (f : Gce → Gce) : (s.modGce f).comb = s.comb := rfl
@[simp] theorem State.modGce_rslots (f : Gce → Gce) : (s.modGce f).rslots = s.rslots := rfl
@[simp] theorem State.modGce_early (f : Gce → Gce) : (s.modGce f).early = s.early := rfl
@[simp] theorem State.modGce_chunkRecs (f : Gce → Gce) : (s.modGce f).chunkRecs = s.chunkRecs := rfl
@[simp] theorem State.modGce_parts (f : Gce → Gce) : (s.modGce f).parts = s.parts := rfl
@[simp] theorem State.modGce_ctxs (f : Gce → Gce) : (s.modGce f).ctxs = s.ctxs := rfl
@[simp] theorem State.modGce_queues (f : Gce → Gce) : (s.modGce f).queues = s.queues := rfl
@[simp] theorem State.modGce_cmds (f : Gce → Gce) : (s.modGce f).cmds = s.cmds := rfl
@[simp] theorem State.modGce_cmdNext (f : Gce → Gce) : (s.modGce f).cmdNext = s.cmdNext := rfl
@[simp] theorem State.modGce_objs (f : Gce → Gce) : (s.modGce f).objs = s.objs := rfl
@[simp] theorem State.modGce_objLive (f : Gce → Gce) : (s.modGce f).objLive = s.objLive := rfl
@[simp] theorem State.modGce_watch (f : Gce → Gce) : (s.modGce f).watch = s.watch := rfl
@[simp] theorem State.modGce_trans (f : Gce → Gce) : (s.modGce f).trans = s.trans := rfl
@[simp] theorem State.modGce_tlb1 (f : Gce → Gce) : (s.modGce f).tlb1 = s.tlb1 := rfl
@[simp] theorem State.modGce_tlb2 (f : Gce → Gce) : (s.modGce f).tlb2 = s.tlb2 := rfl
@[simp] theorem State.modGce_walks (f : Gce → Gce) : (s.modGce f).walks = s.walks := rfl
@[simp] theorem State.modGce_walkTurn (f : Gce → Gce) : (s.modGce f).walkTurn = s.walkTurn := rfl
@[simp] theorem State.modGce_clock (f : Gce → Gce) : (s.modGce f).clock = s.clock := rfl
@[simp] theorem State.modGce_mapJob (f : Gce → Gce) : (s.modGce f).mapJob = s.mapJob := rfl
@[simp] theorem State.modGce_auOwner (f : Gce → Gce) : (s.modGce f).auOwner = s.auOwner := rfl
@[simp] theorem State.modGce_auQueue (f : Gce → Gce) : (s.modGce f).auQueue = s.auQueue := rfl
@[simp] theorem State.modGce_auLastCtx (f : Gce → Gce) : (s.modGce f).auLastCtx = s.auLastCtx := rfl
@[simp] theorem State.modGce_samplerPart (f : Gce → Gce) : (s.modGce f).samplerPart = s.samplerPart := rfl
@[simp] theorem State.modGce_samplerFifo (f : Gce → Gce) : (s.modGce f).samplerFifo = s.samplerFifo := rfl
@[simp] theorem State.modGce_samplerTurn (f : Gce → Gce) : (s.modGce f).samplerTurn = s.samplerTurn := rfl
@[simp] theorem State.modGce_samplerCmd (f : Gce → Gce) : (s.modGce f).samplerCmd = s.samplerCmd := rfl
@[simp] theorem State.modGce_samplers (f : Gce → Gce) : (s.modGce f).samplers = s.samplers := rfl
@[simp] theorem State.modGce_lanesTurn (f : Gce → Gce) : (s.modGce f).lanesTurn = s.lanesTurn := rfl

/-! ## modRandom -/

@[simp] theorem State.modRandom_cfg (f : Random → Random) : (s.modRandom f).cfg = s.cfg := rfl
@[simp] theorem State.modRandom_pending (f : Random → Random) : (s.modRandom f).pending = s.pending := rfl
@[simp] theorem State.modRandom_out (f : Random → Random) : (s.modRandom f).out = s.out := rfl
@[simp] theorem State.modRandom_due (f : Random → Random) : (s.modRandom f).due = s.due := rfl
@[simp] theorem State.modRandom_freeCount (f : Random → Random) : (s.modRandom f).freeCount = s.freeCount := rfl
@[simp] theorem State.modRandom_loc (f : Random → Random) : (s.modRandom f).loc = s.loc := rfl
@[simp] theorem State.modRandom_ctr (f : Random → Random) : (s.modRandom f).ctr = s.ctr := rfl
@[simp] theorem State.modRandom_settings (f : Random → Random) : (s.modRandom f).settings = s.settings := rfl
@[simp] theorem State.modRandom_fuses (f : Random → Random) : (s.modRandom f).fuses = s.fuses := rfl
@[simp] theorem State.modRandom_bring (f : Random → Random) : (s.modRandom f).bring = s.bring := rfl
@[simp] theorem State.modRandom_power (f : Random → Random) : (s.modRandom f).power = s.power := rfl
@[simp] theorem State.modRandom_agent (f : Random → Random) : (s.modRandom f).agent = s.agent := rfl
@[simp] theorem State.modRandom_fw (f : Random → Random) : (s.modRandom f).fw = s.fw := rfl
@[simp] theorem State.modRandom_life (f : Random → Random) : (s.modRandom f).life = s.life := rfl
@[simp] theorem State.modRandom_alarms (f : Random → Random) : (s.modRandom f).alarms = s.alarms := rfl
@[simp] theorem State.modRandom_faults (f : Random → Random) : (s.modRandom f).faults = s.faults := rfl
@[simp] theorem State.modRandom_records (f : Random → Random) : (s.modRandom f).records = s.records := rfl
@[simp] theorem State.modRandom_keys (f : Random → Random) : (s.modRandom f).keys = s.keys := rfl
@[simp] theorem State.modRandom_gce (f : Random → Random) : (s.modRandom f).gce = s.gce := rfl
@[simp] theorem State.modRandom_random (f : Random → Random) : (s.modRandom f).random = f s.random := rfl
@[simp] theorem State.modRandom_mem (f : Random → Random) : (s.modRandom f).mem = s.mem := rfl
@[simp] theorem State.modRandom_links (f : Random → Random) : (s.modRandom f).links = s.links := rfl
@[simp] theorem State.modRandom_chips (f : Random → Random) : (s.modRandom f).chips = s.chips := rfl
@[simp] theorem State.modRandom_hosts (f : Random → Random) : (s.modRandom f).hosts = s.hosts := rfl
@[simp] theorem State.modRandom_slots (f : Random → Random) : (s.modRandom f).slots = s.slots := rfl
@[simp] theorem State.modRandom_tdis (f : Random → Random) : (s.modRandom f).tdis = s.tdis := rfl
@[simp] theorem State.modRandom_stagingRoutes (f : Random → Random) : (s.modRandom f).stagingRoutes = s.stagingRoutes := rfl
@[simp] theorem State.modRandom_liveRoutes (f : Random → Random) : (s.modRandom f).liveRoutes = s.liveRoutes := rfl
@[simp] theorem State.modRandom_routeHold (f : Random → Random) : (s.modRandom f).routeHold = s.routeHold := rfl
@[simp] theorem State.modRandom_routeHeld (f : Random → Random) : (s.modRandom f).routeHeld = s.routeHeld := rfl
@[simp] theorem State.modRandom_otags (f : Random → Random) : (s.modRandom f).otags = s.otags := rfl
@[simp] theorem State.modRandom_otagNext (f : Random → Random) : (s.modRandom f).otagNext = s.otagNext := rfl
@[simp] theorem State.modRandom_heldOps (f : Random → Random) : (s.modRandom f).heldOps = s.heldOps := rfl
@[simp] theorem State.modRandom_rcache (f : Random → Random) : (s.modRandom f).rcache = s.rcache := rfl
@[simp] theorem State.modRandom_comb (f : Random → Random) : (s.modRandom f).comb = s.comb := rfl
@[simp] theorem State.modRandom_rslots (f : Random → Random) : (s.modRandom f).rslots = s.rslots := rfl
@[simp] theorem State.modRandom_early (f : Random → Random) : (s.modRandom f).early = s.early := rfl
@[simp] theorem State.modRandom_chunkRecs (f : Random → Random) : (s.modRandom f).chunkRecs = s.chunkRecs := rfl
@[simp] theorem State.modRandom_parts (f : Random → Random) : (s.modRandom f).parts = s.parts := rfl
@[simp] theorem State.modRandom_ctxs (f : Random → Random) : (s.modRandom f).ctxs = s.ctxs := rfl
@[simp] theorem State.modRandom_queues (f : Random → Random) : (s.modRandom f).queues = s.queues := rfl
@[simp] theorem State.modRandom_cmds (f : Random → Random) : (s.modRandom f).cmds = s.cmds := rfl
@[simp] theorem State.modRandom_cmdNext (f : Random → Random) : (s.modRandom f).cmdNext = s.cmdNext := rfl
@[simp] theorem State.modRandom_objs (f : Random → Random) : (s.modRandom f).objs = s.objs := rfl
@[simp] theorem State.modRandom_objLive (f : Random → Random) : (s.modRandom f).objLive = s.objLive := rfl
@[simp] theorem State.modRandom_watch (f : Random → Random) : (s.modRandom f).watch = s.watch := rfl
@[simp] theorem State.modRandom_trans (f : Random → Random) : (s.modRandom f).trans = s.trans := rfl
@[simp] theorem State.modRandom_tlb1 (f : Random → Random) : (s.modRandom f).tlb1 = s.tlb1 := rfl
@[simp] theorem State.modRandom_tlb2 (f : Random → Random) : (s.modRandom f).tlb2 = s.tlb2 := rfl
@[simp] theorem State.modRandom_walks (f : Random → Random) : (s.modRandom f).walks = s.walks := rfl
@[simp] theorem State.modRandom_walkTurn (f : Random → Random) : (s.modRandom f).walkTurn = s.walkTurn := rfl
@[simp] theorem State.modRandom_clock (f : Random → Random) : (s.modRandom f).clock = s.clock := rfl
@[simp] theorem State.modRandom_mapJob (f : Random → Random) : (s.modRandom f).mapJob = s.mapJob := rfl
@[simp] theorem State.modRandom_auOwner (f : Random → Random) : (s.modRandom f).auOwner = s.auOwner := rfl
@[simp] theorem State.modRandom_auQueue (f : Random → Random) : (s.modRandom f).auQueue = s.auQueue := rfl
@[simp] theorem State.modRandom_auLastCtx (f : Random → Random) : (s.modRandom f).auLastCtx = s.auLastCtx := rfl
@[simp] theorem State.modRandom_samplerPart (f : Random → Random) : (s.modRandom f).samplerPart = s.samplerPart := rfl
@[simp] theorem State.modRandom_samplerFifo (f : Random → Random) : (s.modRandom f).samplerFifo = s.samplerFifo := rfl
@[simp] theorem State.modRandom_samplerTurn (f : Random → Random) : (s.modRandom f).samplerTurn = s.samplerTurn := rfl
@[simp] theorem State.modRandom_samplerCmd (f : Random → Random) : (s.modRandom f).samplerCmd = s.samplerCmd := rfl
@[simp] theorem State.modRandom_samplers (f : Random → Random) : (s.modRandom f).samplers = s.samplers := rfl
@[simp] theorem State.modRandom_lanesTurn (f : Random → Random) : (s.modRandom f).lanesTurn = s.lanesTurn := rfl

/-! ## modBring -/

@[simp] theorem State.modBring_cfg (f : Bring → Bring) : (s.modBring f).cfg = s.cfg := rfl
@[simp] theorem State.modBring_pending (f : Bring → Bring) : (s.modBring f).pending = s.pending := rfl
@[simp] theorem State.modBring_out (f : Bring → Bring) : (s.modBring f).out = s.out := rfl
@[simp] theorem State.modBring_due (f : Bring → Bring) : (s.modBring f).due = s.due := rfl
@[simp] theorem State.modBring_freeCount (f : Bring → Bring) : (s.modBring f).freeCount = s.freeCount := rfl
@[simp] theorem State.modBring_loc (f : Bring → Bring) : (s.modBring f).loc = s.loc := rfl
@[simp] theorem State.modBring_ctr (f : Bring → Bring) : (s.modBring f).ctr = s.ctr := rfl
@[simp] theorem State.modBring_settings (f : Bring → Bring) : (s.modBring f).settings = s.settings := rfl
@[simp] theorem State.modBring_fuses (f : Bring → Bring) : (s.modBring f).fuses = s.fuses := rfl
@[simp] theorem State.modBring_bring (f : Bring → Bring) : (s.modBring f).bring = f s.bring := rfl
@[simp] theorem State.modBring_power (f : Bring → Bring) : (s.modBring f).power = s.power := rfl
@[simp] theorem State.modBring_agent (f : Bring → Bring) : (s.modBring f).agent = s.agent := rfl
@[simp] theorem State.modBring_fw (f : Bring → Bring) : (s.modBring f).fw = s.fw := rfl
@[simp] theorem State.modBring_life (f : Bring → Bring) : (s.modBring f).life = s.life := rfl
@[simp] theorem State.modBring_alarms (f : Bring → Bring) : (s.modBring f).alarms = s.alarms := rfl
@[simp] theorem State.modBring_faults (f : Bring → Bring) : (s.modBring f).faults = s.faults := rfl
@[simp] theorem State.modBring_records (f : Bring → Bring) : (s.modBring f).records = s.records := rfl
@[simp] theorem State.modBring_keys (f : Bring → Bring) : (s.modBring f).keys = s.keys := rfl
@[simp] theorem State.modBring_gce (f : Bring → Bring) : (s.modBring f).gce = s.gce := rfl
@[simp] theorem State.modBring_random (f : Bring → Bring) : (s.modBring f).random = s.random := rfl
@[simp] theorem State.modBring_mem (f : Bring → Bring) : (s.modBring f).mem = s.mem := rfl
@[simp] theorem State.modBring_links (f : Bring → Bring) : (s.modBring f).links = s.links := rfl
@[simp] theorem State.modBring_chips (f : Bring → Bring) : (s.modBring f).chips = s.chips := rfl
@[simp] theorem State.modBring_hosts (f : Bring → Bring) : (s.modBring f).hosts = s.hosts := rfl
@[simp] theorem State.modBring_slots (f : Bring → Bring) : (s.modBring f).slots = s.slots := rfl
@[simp] theorem State.modBring_tdis (f : Bring → Bring) : (s.modBring f).tdis = s.tdis := rfl
@[simp] theorem State.modBring_stagingRoutes (f : Bring → Bring) : (s.modBring f).stagingRoutes = s.stagingRoutes := rfl
@[simp] theorem State.modBring_liveRoutes (f : Bring → Bring) : (s.modBring f).liveRoutes = s.liveRoutes := rfl
@[simp] theorem State.modBring_routeHold (f : Bring → Bring) : (s.modBring f).routeHold = s.routeHold := rfl
@[simp] theorem State.modBring_routeHeld (f : Bring → Bring) : (s.modBring f).routeHeld = s.routeHeld := rfl
@[simp] theorem State.modBring_otags (f : Bring → Bring) : (s.modBring f).otags = s.otags := rfl
@[simp] theorem State.modBring_otagNext (f : Bring → Bring) : (s.modBring f).otagNext = s.otagNext := rfl
@[simp] theorem State.modBring_heldOps (f : Bring → Bring) : (s.modBring f).heldOps = s.heldOps := rfl
@[simp] theorem State.modBring_rcache (f : Bring → Bring) : (s.modBring f).rcache = s.rcache := rfl
@[simp] theorem State.modBring_comb (f : Bring → Bring) : (s.modBring f).comb = s.comb := rfl
@[simp] theorem State.modBring_rslots (f : Bring → Bring) : (s.modBring f).rslots = s.rslots := rfl
@[simp] theorem State.modBring_early (f : Bring → Bring) : (s.modBring f).early = s.early := rfl
@[simp] theorem State.modBring_chunkRecs (f : Bring → Bring) : (s.modBring f).chunkRecs = s.chunkRecs := rfl
@[simp] theorem State.modBring_parts (f : Bring → Bring) : (s.modBring f).parts = s.parts := rfl
@[simp] theorem State.modBring_ctxs (f : Bring → Bring) : (s.modBring f).ctxs = s.ctxs := rfl
@[simp] theorem State.modBring_queues (f : Bring → Bring) : (s.modBring f).queues = s.queues := rfl
@[simp] theorem State.modBring_cmds (f : Bring → Bring) : (s.modBring f).cmds = s.cmds := rfl
@[simp] theorem State.modBring_cmdNext (f : Bring → Bring) : (s.modBring f).cmdNext = s.cmdNext := rfl
@[simp] theorem State.modBring_objs (f : Bring → Bring) : (s.modBring f).objs = s.objs := rfl
@[simp] theorem State.modBring_objLive (f : Bring → Bring) : (s.modBring f).objLive = s.objLive := rfl
@[simp] theorem State.modBring_watch (f : Bring → Bring) : (s.modBring f).watch = s.watch := rfl
@[simp] theorem State.modBring_trans (f : Bring → Bring) : (s.modBring f).trans = s.trans := rfl
@[simp] theorem State.modBring_tlb1 (f : Bring → Bring) : (s.modBring f).tlb1 = s.tlb1 := rfl
@[simp] theorem State.modBring_tlb2 (f : Bring → Bring) : (s.modBring f).tlb2 = s.tlb2 := rfl
@[simp] theorem State.modBring_walks (f : Bring → Bring) : (s.modBring f).walks = s.walks := rfl
@[simp] theorem State.modBring_walkTurn (f : Bring → Bring) : (s.modBring f).walkTurn = s.walkTurn := rfl
@[simp] theorem State.modBring_clock (f : Bring → Bring) : (s.modBring f).clock = s.clock := rfl
@[simp] theorem State.modBring_mapJob (f : Bring → Bring) : (s.modBring f).mapJob = s.mapJob := rfl
@[simp] theorem State.modBring_auOwner (f : Bring → Bring) : (s.modBring f).auOwner = s.auOwner := rfl
@[simp] theorem State.modBring_auQueue (f : Bring → Bring) : (s.modBring f).auQueue = s.auQueue := rfl
@[simp] theorem State.modBring_auLastCtx (f : Bring → Bring) : (s.modBring f).auLastCtx = s.auLastCtx := rfl
@[simp] theorem State.modBring_samplerPart (f : Bring → Bring) : (s.modBring f).samplerPart = s.samplerPart := rfl
@[simp] theorem State.modBring_samplerFifo (f : Bring → Bring) : (s.modBring f).samplerFifo = s.samplerFifo := rfl
@[simp] theorem State.modBring_samplerTurn (f : Bring → Bring) : (s.modBring f).samplerTurn = s.samplerTurn := rfl
@[simp] theorem State.modBring_samplerCmd (f : Bring → Bring) : (s.modBring f).samplerCmd = s.samplerCmd := rfl
@[simp] theorem State.modBring_samplers (f : Bring → Bring) : (s.modBring f).samplers = s.samplers := rfl
@[simp] theorem State.modBring_lanesTurn (f : Bring → Bring) : (s.modBring f).lanesTurn = s.lanesTurn := rfl

end Sys2Proof.Machine
end

