-- ==== Sys2Proof/Laws/Ops.lean ====
section
/-! SUPPORT. Sys2Proof/Laws/Ops.lean: for each shared operation, everything it can change: the fields named in its frame lemma,
and, field by field, that the others stay as they are. -/
namespace Sys2Proof.Machine

variable (s : State)

theorem State.traceRegion_frame (ws : List Nat) : ∃ x0 x1, s.traceRegion ws = { s with records := x0, ctr := x1 } := by
  unfold State.traceRegion
  simp only
  generalize (if s.records.stagingLost = 0 then [] else [gapWords s s.records.stagingLost]) = gap
  split
  · exact ⟨_, _, rfl⟩
  · exact ⟨_, _, rfl⟩

theorem State.tracePort_frame (ws : List Nat) : ∃ x0 x1, s.tracePort ws = { s with records := x0, ctr := x1 } := by
  unfold State.tracePort
  simp only
  generalize (if s.records.fifoLost = 0 then [] else gapWords s s.records.fifoLost) = gap
  split
  · split
    · exact ⟨_, _, rfl⟩
    · exact ⟨_, _, rfl⟩
  · exact ⟨_, _, rfl⟩

theorem State.tracePut_frame (ws : List Nat) : ∃ x0 x1, s.tracePut ws = { s with records := x0, ctr := x1 } := by
  unfold State.tracePut
  simp only
  split
  · obtain ⟨r, c, h⟩ := s.tracePort_frame ws
    rw [h]
    exact ⟨_, _, rfl⟩
  · obtain ⟨r, c, h⟩ := s.traceRegion_frame ws
    rw [h]
    obtain ⟨r2, c2, h2⟩ := State.tracePort_frame { s with records := r, ctr := c } ws
    rw [h2]
    exact ⟨_, _, rfl⟩

/-! ## trace -/

theorem State.trace_frame (ty k u : Nat) (p : Option Nat) (c : Nat) (w : List Nat) : ∃ x0 x1, s.trace ty k u p c w = { s with records := x0, ctr := x1 } := by
  unfold State.trace
  split
  · exact s.tracePut_frame _
  · exact ⟨_, _, rfl⟩

@[simp] theorem State.trace_cfg (ty k u : Nat) (p : Option Nat) (c : Nat) (w : List Nat) : (s.trace ty k u p c w).cfg = s.cfg := by obtain ⟨_, _, h⟩ := s.trace_frame ty k u p c w; rw [h]
@[simp] theorem State.trace_pending (ty k u : Nat) (p : Option Nat) (c : Nat) (w : List Nat) : (s.trace ty k u p c w).pending = s.pending := by obtain ⟨_, _, h⟩ := s.trace_frame ty k u p c w; rw [h]
@[simp] theorem State.trace_out (ty k u : Nat) (p : Option Nat) (c : Nat) (w : List Nat) : (s.trace ty k u p c w).out = s.out := by obtain ⟨_, _, h⟩ := s.trace_frame ty k u p c w; rw [h]
@[simp] theorem State.trace_due (ty k u : Nat) (p : Option Nat) (c : Nat) (w : List Nat) : (s.trace ty k u p c w).due = s.due := by obtain ⟨_, _, h⟩ := s.trace_frame ty k u p c w; rw [h]
@[simp] theorem State.trace_freeCount (ty k u : Nat) (p : Option Nat) (c : Nat) (w : List Nat) : (s.trace ty k u p c w).freeCount = s.freeCount := by obtain ⟨_, _, h⟩ := s.trace_frame ty k u p c w; rw [h]
@[simp] theorem State.trace_loc (ty k u : Nat) (p : Option Nat) (c : Nat) (w : List Nat) : (s.trace ty k u p c w).loc = s.loc := by obtain ⟨_, _, h⟩ := s.trace_frame ty k u p c w; rw [h]
@[simp] theorem State.trace_settings (ty k u : Nat) (p : Option Nat) (c : Nat) (w : List Nat) : (s.trace ty k u p c w).settings = s.settings := by obtain ⟨_, _, h⟩ := s.trace_frame ty k u p c w; rw [h]
@[simp] theorem State.trace_fuses (ty k u : Nat) (p : Option Nat) (c : Nat) (w : List Nat) : (s.trace ty k u p c w).fuses = s.fuses := by obtain ⟨_, _, h⟩ := s.trace_frame ty k u p c w; rw [h]
@[simp] theorem State.trace_bring (ty k u : Nat) (p : Option Nat) (c : Nat) (w : List Nat) : (s.trace ty k u p c w).bring = s.bring := by obtain ⟨_, _, h⟩ := s.trace_frame ty k u p c w; rw [h]
@[simp] theorem State.trace_power (ty k u : Nat) (p : Option Nat) (c : Nat) (w : List Nat) : (s.trace ty k u p c w).power = s.power := by obtain ⟨_, _, h⟩ := s.trace_frame ty k u p c w; rw [h]
@[simp] theorem State.trace_agent (ty k u : Nat) (p : Option Nat) (c : Nat) (w : List Nat) : (s.trace ty k u p c w).agent = s.agent := by obtain ⟨_, _, h⟩ := s.trace_frame ty k u p c w; rw [h]
@[simp] theorem State.trace_fw (ty k u : Nat) (p : Option Nat) (c : Nat) (w : List Nat) : (s.trace ty k u p c w).fw = s.fw := by obtain ⟨_, _, h⟩ := s.trace_frame ty k u p c w; rw [h]
@[simp] theorem State.trace_life (ty k u : Nat) (p : Option Nat) (c : Nat) (w : List Nat) : (s.trace ty k u p c w).life = s.life := by obtain ⟨_, _, h⟩ := s.trace_frame ty k u p c w; rw [h]
@[simp] theorem State.trace_alarms (ty k u : Nat) (p : Option Nat) (c : Nat) (w : List Nat) : (s.trace ty k u p c w).alarms = s.alarms := by obtain ⟨_, _, h⟩ := s.trace_frame ty k u p c w; rw [h]
@[simp] theorem State.trace_faults (ty k u : Nat) (p : Option Nat) (c : Nat) (w : List Nat) : (s.trace ty k u p c w).faults = s.faults := by obtain ⟨_, _, h⟩ := s.trace_frame ty k u p c w; rw [h]
@[simp] theorem State.trace_keys (ty k u : Nat) (p : Option Nat) (c : Nat) (w : List Nat) : (s.trace ty k u p c w).keys = s.keys := by obtain ⟨_, _, h⟩ := s.trace_frame ty k u p c w; rw [h]
@[simp] theorem State.trace_gce (ty k u : Nat) (p : Option Nat) (c : Nat) (w : List Nat) : (s.trace ty k u p c w).gce = s.gce := by obtain ⟨_, _, h⟩ := s.trace_frame ty k u p c w; rw [h]
@[simp] theorem State.trace_random (ty k u : Nat) (p : Option Nat) (c : Nat) (w : List Nat) : (s.trace ty k u p c w).random = s.random := by obtain ⟨_, _, h⟩ := s.trace_frame ty k u p c w; rw [h]
@[simp] theorem State.trace_mem (ty k u : Nat) (p : Option Nat) (c : Nat) (w : List Nat) : (s.trace ty k u p c w).mem = s.mem := by obtain ⟨_, _, h⟩ := s.trace_frame ty k u p c w; rw [h]
@[simp] theorem State.trace_links (ty k u : Nat) (p : Option Nat) (c : Nat) (w : List Nat) : (s.trace ty k u p c w).links = s.links := by obtain ⟨_, _, h⟩ := s.trace_frame ty k u p c w; rw [h]
@[simp] theorem State.trace_chips (ty k u : Nat) (p : Option Nat) (c : Nat) (w : List Nat) : (s.trace ty k u p c w).chips = s.chips := by obtain ⟨_, _, h⟩ := s.trace_frame ty k u p c w; rw [h]
@[simp] theorem State.trace_hosts (ty k u : Nat) (p : Option Nat) (c : Nat) (w : List Nat) : (s.trace ty k u p c w).hosts = s.hosts := by obtain ⟨_, _, h⟩ := s.trace_frame ty k u p c w; rw [h]
@[simp] theorem State.trace_slots (ty k u : Nat) (p : Option Nat) (c : Nat) (w : List Nat) : (s.trace ty k u p c w).slots = s.slots := by obtain ⟨_, _, h⟩ := s.trace_frame ty k u p c w; rw [h]
@[simp] theorem State.trace_tdis (ty k u : Nat) (p : Option Nat) (c : Nat) (w : List Nat) : (s.trace ty k u p c w).tdis = s.tdis := by obtain ⟨_, _, h⟩ := s.trace_frame ty k u p c w; rw [h]
@[simp] theorem State.trace_stagingRoutes (ty k u : Nat) (p : Option Nat) (c : Nat) (w : List Nat) : (s.trace ty k u p c w).stagingRoutes = s.stagingRoutes := by obtain ⟨_, _, h⟩ := s.trace_frame ty k u p c w; rw [h]
@[simp] theorem State.trace_liveRoutes (ty k u : Nat) (p : Option Nat) (c : Nat) (w : List Nat) : (s.trace ty k u p c w).liveRoutes = s.liveRoutes := by obtain ⟨_, _, h⟩ := s.trace_frame ty k u p c w; rw [h]
@[simp] theorem State.trace_routeHold (ty k u : Nat) (p : Option Nat) (c : Nat) (w : List Nat) : (s.trace ty k u p c w).routeHold = s.routeHold := by obtain ⟨_, _, h⟩ := s.trace_frame ty k u p c w; rw [h]
@[simp] theorem State.trace_routeHeld (ty k u : Nat) (p : Option Nat) (c : Nat) (w : List Nat) : (s.trace ty k u p c w).routeHeld = s.routeHeld := by obtain ⟨_, _, h⟩ := s.trace_frame ty k u p c w; rw [h]
@[simp] theorem State.trace_otags (ty k u : Nat) (p : Option Nat) (c : Nat) (w : List Nat) : (s.trace ty k u p c w).otags = s.otags := by obtain ⟨_, _, h⟩ := s.trace_frame ty k u p c w; rw [h]
@[simp] theorem State.trace_otagNext (ty k u : Nat) (p : Option Nat) (c : Nat) (w : List Nat) : (s.trace ty k u p c w).otagNext = s.otagNext := by obtain ⟨_, _, h⟩ := s.trace_frame ty k u p c w; rw [h]
@[simp] theorem State.trace_heldOps (ty k u : Nat) (p : Option Nat) (c : Nat) (w : List Nat) : (s.trace ty k u p c w).heldOps = s.heldOps := by obtain ⟨_, _, h⟩ := s.trace_frame ty k u p c w; rw [h]
@[simp] theorem State.trace_rcache (ty k u : Nat) (p : Option Nat) (c : Nat) (w : List Nat) : (s.trace ty k u p c w).rcache = s.rcache := by obtain ⟨_, _, h⟩ := s.trace_frame ty k u p c w; rw [h]
@[simp] theorem State.trace_comb (ty k u : Nat) (p : Option Nat) (c : Nat) (w : List Nat) : (s.trace ty k u p c w).comb = s.comb := by obtain ⟨_, _, h⟩ := s.trace_frame ty k u p c w; rw [h]
@[simp] theorem State.trace_rslots (ty k u : Nat) (p : Option Nat) (c : Nat) (w : List Nat) : (s.trace ty k u p c w).rslots = s.rslots := by obtain ⟨_, _, h⟩ := s.trace_frame ty k u p c w; rw [h]
@[simp] theorem State.trace_early (ty k u : Nat) (p : Option Nat) (c : Nat) (w : List Nat) : (s.trace ty k u p c w).early = s.early := by obtain ⟨_, _, h⟩ := s.trace_frame ty k u p c w; rw [h]
@[simp] theorem State.trace_chunkRecs (ty k u : Nat) (p : Option Nat) (c : Nat) (w : List Nat) : (s.trace ty k u p c w).chunkRecs = s.chunkRecs := by obtain ⟨_, _, h⟩ := s.trace_frame ty k u p c w; rw [h]
@[simp] theorem State.trace_parts (ty k u : Nat) (p : Option Nat) (c : Nat) (w : List Nat) : (s.trace ty k u p c w).parts = s.parts := by obtain ⟨_, _, h⟩ := s.trace_frame ty k u p c w; rw [h]
@[simp] theorem State.trace_ctxs (ty k u : Nat) (p : Option Nat) (c : Nat) (w : List Nat) : (s.trace ty k u p c w).ctxs = s.ctxs := by obtain ⟨_, _, h⟩ := s.trace_frame ty k u p c w; rw [h]
@[simp] theorem State.trace_queues (ty k u : Nat) (p : Option Nat) (c : Nat) (w : List Nat) : (s.trace ty k u p c w).queues = s.queues := by obtain ⟨_, _, h⟩ := s.trace_frame ty k u p c w; rw [h]
@[simp] theorem State.trace_cmds (ty k u : Nat) (p : Option Nat) (c : Nat) (w : List Nat) : (s.trace ty k u p c w).cmds = s.cmds := by obtain ⟨_, _, h⟩ := s.trace_frame ty k u p c w; rw [h]
@[simp] theorem State.trace_cmdNext (ty k u : Nat) (p : Option Nat) (c : Nat) (w : List Nat) : (s.trace ty k u p c w).cmdNext = s.cmdNext := by obtain ⟨_, _, h⟩ := s.trace_frame ty k u p c w; rw [h]
@[simp] theorem State.trace_objs (ty k u : Nat) (p : Option Nat) (c : Nat) (w : List Nat) : (s.trace ty k u p c w).objs = s.objs := by obtain ⟨_, _, h⟩ := s.trace_frame ty k u p c w; rw [h]
@[simp] theorem State.trace_objLive (ty k u : Nat) (p : Option Nat) (c : Nat) (w : List Nat) : (s.trace ty k u p c w).objLive = s.objLive := by obtain ⟨_, _, h⟩ := s.trace_frame ty k u p c w; rw [h]
@[simp] theorem State.trace_watch (ty k u : Nat) (p : Option Nat) (c : Nat) (w : List Nat) : (s.trace ty k u p c w).watch = s.watch := by obtain ⟨_, _, h⟩ := s.trace_frame ty k u p c w; rw [h]
@[simp] theorem State.trace_trans (ty k u : Nat) (p : Option Nat) (c : Nat) (w : List Nat) : (s.trace ty k u p c w).trans = s.trans := by obtain ⟨_, _, h⟩ := s.trace_frame ty k u p c w; rw [h]
@[simp] theorem State.trace_tlb1 (ty k u : Nat) (p : Option Nat) (c : Nat) (w : List Nat) : (s.trace ty k u p c w).tlb1 = s.tlb1 := by obtain ⟨_, _, h⟩ := s.trace_frame ty k u p c w; rw [h]
@[simp] theorem State.trace_tlb2 (ty k u : Nat) (p : Option Nat) (c : Nat) (w : List Nat) : (s.trace ty k u p c w).tlb2 = s.tlb2 := by obtain ⟨_, _, h⟩ := s.trace_frame ty k u p c w; rw [h]
@[simp] theorem State.trace_walks (ty k u : Nat) (p : Option Nat) (c : Nat) (w : List Nat) : (s.trace ty k u p c w).walks = s.walks := by obtain ⟨_, _, h⟩ := s.trace_frame ty k u p c w; rw [h]
@[simp] theorem State.trace_walkTurn (ty k u : Nat) (p : Option Nat) (c : Nat) (w : List Nat) : (s.trace ty k u p c w).walkTurn = s.walkTurn := by obtain ⟨_, _, h⟩ := s.trace_frame ty k u p c w; rw [h]
@[simp] theorem State.trace_clock (ty k u : Nat) (p : Option Nat) (c : Nat) (w : List Nat) : (s.trace ty k u p c w).clock = s.clock := by obtain ⟨_, _, h⟩ := s.trace_frame ty k u p c w; rw [h]
@[simp] theorem State.trace_mapJob (ty k u : Nat) (p : Option Nat) (c : Nat) (w : List Nat) : (s.trace ty k u p c w).mapJob = s.mapJob := by obtain ⟨_, _, h⟩ := s.trace_frame ty k u p c w; rw [h]
@[simp] theorem State.trace_auOwner (ty k u : Nat) (p : Option Nat) (c : Nat) (w : List Nat) : (s.trace ty k u p c w).auOwner = s.auOwner := by obtain ⟨_, _, h⟩ := s.trace_frame ty k u p c w; rw [h]
@[simp] theorem State.trace_auQueue (ty k u : Nat) (p : Option Nat) (c : Nat) (w : List Nat) : (s.trace ty k u p c w).auQueue = s.auQueue := by obtain ⟨_, _, h⟩ := s.trace_frame ty k u p c w; rw [h]
@[simp] theorem State.trace_auLastCtx (ty k u : Nat) (p : Option Nat) (c : Nat) (w : List Nat) : (s.trace ty k u p c w).auLastCtx = s.auLastCtx := by obtain ⟨_, _, h⟩ := s.trace_frame ty k u p c w; rw [h]
@[simp] theorem State.trace_samplerPart (ty k u : Nat) (p : Option Nat) (c : Nat) (w : List Nat) : (s.trace ty k u p c w).samplerPart = s.samplerPart := by obtain ⟨_, _, h⟩ := s.trace_frame ty k u p c w; rw [h]
@[simp] theorem State.trace_samplerFifo (ty k u : Nat) (p : Option Nat) (c : Nat) (w : List Nat) : (s.trace ty k u p c w).samplerFifo = s.samplerFifo := by obtain ⟨_, _, h⟩ := s.trace_frame ty k u p c w; rw [h]
@[simp] theorem State.trace_samplerTurn (ty k u : Nat) (p : Option Nat) (c : Nat) (w : List Nat) : (s.trace ty k u p c w).samplerTurn = s.samplerTurn := by obtain ⟨_, _, h⟩ := s.trace_frame ty k u p c w; rw [h]
@[simp] theorem State.trace_samplerCmd (ty k u : Nat) (p : Option Nat) (c : Nat) (w : List Nat) : (s.trace ty k u p c w).samplerCmd = s.samplerCmd := by obtain ⟨_, _, h⟩ := s.trace_frame ty k u p c w; rw [h]
@[simp] theorem State.trace_samplers (ty k u : Nat) (p : Option Nat) (c : Nat) (w : List Nat) : (s.trace ty k u p c w).samplers = s.samplers := by obtain ⟨_, _, h⟩ := s.trace_frame ty k u p c w; rw [h]
@[simp] theorem State.trace_lanesTurn (ty k u : Nat) (p : Option Nat) (c : Nat) (w : List Nat) : (s.trace ty k u p c w).lanesTurn = s.lanesTurn := by obtain ⟨_, _, h⟩ := s.trace_frame ty k u p c w; rw [h]

/-! ## error -/

theorem State.error_frame (k u : Nat) (p : Option Nat) (e a : Nat) : ∃ x0 x1, s.error k u p e a = { s with records := x0, ctr := x1 } := by
  unfold State.error
  obtain ⟨r, c, h⟩ := State.trace_frame (s.bump 0x6206 1) 7 k u p e [a]
  exact ⟨_, _, h⟩

@[simp] theorem State.error_cfg (k u : Nat) (p : Option Nat) (e a : Nat) : (s.error k u p e a).cfg = s.cfg := by obtain ⟨_, _, h⟩ := s.error_frame k u p e a; rw [h]
@[simp] theorem State.error_pending (k u : Nat) (p : Option Nat) (e a : Nat) : (s.error k u p e a).pending = s.pending := by obtain ⟨_, _, h⟩ := s.error_frame k u p e a; rw [h]
@[simp] theorem State.error_out (k u : Nat) (p : Option Nat) (e a : Nat) : (s.error k u p e a).out = s.out := by obtain ⟨_, _, h⟩ := s.error_frame k u p e a; rw [h]
@[simp] theorem State.error_due (k u : Nat) (p : Option Nat) (e a : Nat) : (s.error k u p e a).due = s.due := by obtain ⟨_, _, h⟩ := s.error_frame k u p e a; rw [h]
@[simp] theorem State.error_freeCount (k u : Nat) (p : Option Nat) (e a : Nat) : (s.error k u p e a).freeCount = s.freeCount := by obtain ⟨_, _, h⟩ := s.error_frame k u p e a; rw [h]
@[simp] theorem State.error_loc (k u : Nat) (p : Option Nat) (e a : Nat) : (s.error k u p e a).loc = s.loc := by obtain ⟨_, _, h⟩ := s.error_frame k u p e a; rw [h]
@[simp] theorem State.error_settings (k u : Nat) (p : Option Nat) (e a : Nat) : (s.error k u p e a).settings = s.settings := by obtain ⟨_, _, h⟩ := s.error_frame k u p e a; rw [h]
@[simp] theorem State.error_fuses (k u : Nat) (p : Option Nat) (e a : Nat) : (s.error k u p e a).fuses = s.fuses := by obtain ⟨_, _, h⟩ := s.error_frame k u p e a; rw [h]
@[simp] theorem State.error_bring (k u : Nat) (p : Option Nat) (e a : Nat) : (s.error k u p e a).bring = s.bring := by obtain ⟨_, _, h⟩ := s.error_frame k u p e a; rw [h]
@[simp] theorem State.error_power (k u : Nat) (p : Option Nat) (e a : Nat) : (s.error k u p e a).power = s.power := by obtain ⟨_, _, h⟩ := s.error_frame k u p e a; rw [h]
@[simp] theorem State.error_agent (k u : Nat) (p : Option Nat) (e a : Nat) : (s.error k u p e a).agent = s.agent := by obtain ⟨_, _, h⟩ := s.error_frame k u p e a; rw [h]
@[simp] theorem State.error_fw (k u : Nat) (p : Option Nat) (e a : Nat) : (s.error k u p e a).fw = s.fw := by obtain ⟨_, _, h⟩ := s.error_frame k u p e a; rw [h]
@[simp] theorem State.error_life (k u : Nat) (p : Option Nat) (e a : Nat) : (s.error k u p e a).life = s.life := by obtain ⟨_, _, h⟩ := s.error_frame k u p e a; rw [h]
@[simp] theorem State.error_alarms (k u : Nat) (p : Option Nat) (e a : Nat) : (s.error k u p e a).alarms = s.alarms := by obtain ⟨_, _, h⟩ := s.error_frame k u p e a; rw [h]
@[simp] theorem State.error_faults (k u : Nat) (p : Option Nat) (e a : Nat) : (s.error k u p e a).faults = s.faults := by obtain ⟨_, _, h⟩ := s.error_frame k u p e a; rw [h]
@[simp] theorem State.error_keys (k u : Nat) (p : Option Nat) (e a : Nat) : (s.error k u p e a).keys = s.keys := by obtain ⟨_, _, h⟩ := s.error_frame k u p e a; rw [h]
@[simp] theorem State.error_gce (k u : Nat) (p : Option Nat) (e a : Nat) : (s.error k u p e a).gce = s.gce := by obtain ⟨_, _, h⟩ := s.error_frame k u p e a; rw [h]
@[simp] theorem State.error_random (k u : Nat) (p : Option Nat) (e a : Nat) : (s.error k u p e a).random = s.random := by obtain ⟨_, _, h⟩ := s.error_frame k u p e a; rw [h]
@[simp] theorem State.error_mem (k u : Nat) (p : Option Nat) (e a : Nat) : (s.error k u p e a).mem = s.mem := by obtain ⟨_, _, h⟩ := s.error_frame k u p e a; rw [h]
@[simp] theorem State.error_links (k u : Nat) (p : Option Nat) (e a : Nat) : (s.error k u p e a).links = s.links := by obtain ⟨_, _, h⟩ := s.error_frame k u p e a; rw [h]
@[simp] theorem State.error_chips (k u : Nat) (p : Option Nat) (e a : Nat) : (s.error k u p e a).chips = s.chips := by obtain ⟨_, _, h⟩ := s.error_frame k u p e a; rw [h]
@[simp] theorem State.error_hosts (k u : Nat) (p : Option Nat) (e a : Nat) : (s.error k u p e a).hosts = s.hosts := by obtain ⟨_, _, h⟩ := s.error_frame k u p e a; rw [h]
@[simp] theorem State.error_slots (k u : Nat) (p : Option Nat) (e a : Nat) : (s.error k u p e a).slots = s.slots := by obtain ⟨_, _, h⟩ := s.error_frame k u p e a; rw [h]
@[simp] theorem State.error_tdis (k u : Nat) (p : Option Nat) (e a : Nat) : (s.error k u p e a).tdis = s.tdis := by obtain ⟨_, _, h⟩ := s.error_frame k u p e a; rw [h]
@[simp] theorem State.error_stagingRoutes (k u : Nat) (p : Option Nat) (e a : Nat) : (s.error k u p e a).stagingRoutes = s.stagingRoutes := by obtain ⟨_, _, h⟩ := s.error_frame k u p e a; rw [h]
@[simp] theorem State.error_liveRoutes (k u : Nat) (p : Option Nat) (e a : Nat) : (s.error k u p e a).liveRoutes = s.liveRoutes := by obtain ⟨_, _, h⟩ := s.error_frame k u p e a; rw [h]
@[simp] theorem State.error_routeHold (k u : Nat) (p : Option Nat) (e a : Nat) : (s.error k u p e a).routeHold = s.routeHold := by obtain ⟨_, _, h⟩ := s.error_frame k u p e a; rw [h]
@[simp] theorem State.error_routeHeld (k u : Nat) (p : Option Nat) (e a : Nat) : (s.error k u p e a).routeHeld = s.routeHeld := by obtain ⟨_, _, h⟩ := s.error_frame k u p e a; rw [h]
@[simp] theorem State.error_otags (k u : Nat) (p : Option Nat) (e a : Nat) : (s.error k u p e a).otags = s.otags := by obtain ⟨_, _, h⟩ := s.error_frame k u p e a; rw [h]
@[simp] theorem State.error_otagNext (k u : Nat) (p : Option Nat) (e a : Nat) : (s.error k u p e a).otagNext = s.otagNext := by obtain ⟨_, _, h⟩ := s.error_frame k u p e a; rw [h]
@[simp] theorem State.error_heldOps (k u : Nat) (p : Option Nat) (e a : Nat) : (s.error k u p e a).heldOps = s.heldOps := by obtain ⟨_, _, h⟩ := s.error_frame k u p e a; rw [h]
@[simp] theorem State.error_rcache (k u : Nat) (p : Option Nat) (e a : Nat) : (s.error k u p e a).rcache = s.rcache := by obtain ⟨_, _, h⟩ := s.error_frame k u p e a; rw [h]
@[simp] theorem State.error_comb (k u : Nat) (p : Option Nat) (e a : Nat) : (s.error k u p e a).comb = s.comb := by obtain ⟨_, _, h⟩ := s.error_frame k u p e a; rw [h]
@[simp] theorem State.error_rslots (k u : Nat) (p : Option Nat) (e a : Nat) : (s.error k u p e a).rslots = s.rslots := by obtain ⟨_, _, h⟩ := s.error_frame k u p e a; rw [h]
@[simp] theorem State.error_early (k u : Nat) (p : Option Nat) (e a : Nat) : (s.error k u p e a).early = s.early := by obtain ⟨_, _, h⟩ := s.error_frame k u p e a; rw [h]
@[simp] theorem State.error_chunkRecs (k u : Nat) (p : Option Nat) (e a : Nat) : (s.error k u p e a).chunkRecs = s.chunkRecs := by obtain ⟨_, _, h⟩ := s.error_frame k u p e a; rw [h]
@[simp] theorem State.error_parts (k u : Nat) (p : Option Nat) (e a : Nat) : (s.error k u p e a).parts = s.parts := by obtain ⟨_, _, h⟩ := s.error_frame k u p e a; rw [h]
@[simp] theorem State.error_ctxs (k u : Nat) (p : Option Nat) (e a : Nat) : (s.error k u p e a).ctxs = s.ctxs := by obtain ⟨_, _, h⟩ := s.error_frame k u p e a; rw [h]
@[simp] theorem State.error_queues (k u : Nat) (p : Option Nat) (e a : Nat) : (s.error k u p e a).queues = s.queues := by obtain ⟨_, _, h⟩ := s.error_frame k u p e a; rw [h]
@[simp] theorem State.error_cmds (k u : Nat) (p : Option Nat) (e a : Nat) : (s.error k u p e a).cmds = s.cmds := by obtain ⟨_, _, h⟩ := s.error_frame k u p e a; rw [h]
@[simp] theorem State.error_cmdNext (k u : Nat) (p : Option Nat) (e a : Nat) : (s.error k u p e a).cmdNext = s.cmdNext := by obtain ⟨_, _, h⟩ := s.error_frame k u p e a; rw [h]
@[simp] theorem State.error_objs (k u : Nat) (p : Option Nat) (e a : Nat) : (s.error k u p e a).objs = s.objs := by obtain ⟨_, _, h⟩ := s.error_frame k u p e a; rw [h]
@[simp] theorem State.error_objLive (k u : Nat) (p : Option Nat) (e a : Nat) : (s.error k u p e a).objLive = s.objLive := by obtain ⟨_, _, h⟩ := s.error_frame k u p e a; rw [h]
@[simp] theorem State.error_watch (k u : Nat) (p : Option Nat) (e a : Nat) : (s.error k u p e a).watch = s.watch := by obtain ⟨_, _, h⟩ := s.error_frame k u p e a; rw [h]
@[simp] theorem State.error_trans (k u : Nat) (p : Option Nat) (e a : Nat) : (s.error k u p e a).trans = s.trans := by obtain ⟨_, _, h⟩ := s.error_frame k u p e a; rw [h]
@[simp] theorem State.error_tlb1 (k u : Nat) (p : Option Nat) (e a : Nat) : (s.error k u p e a).tlb1 = s.tlb1 := by obtain ⟨_, _, h⟩ := s.error_frame k u p e a; rw [h]
@[simp] theorem State.error_tlb2 (k u : Nat) (p : Option Nat) (e a : Nat) : (s.error k u p e a).tlb2 = s.tlb2 := by obtain ⟨_, _, h⟩ := s.error_frame k u p e a; rw [h]
@[simp] theorem State.error_walks (k u : Nat) (p : Option Nat) (e a : Nat) : (s.error k u p e a).walks = s.walks := by obtain ⟨_, _, h⟩ := s.error_frame k u p e a; rw [h]
@[simp] theorem State.error_walkTurn (k u : Nat) (p : Option Nat) (e a : Nat) : (s.error k u p e a).walkTurn = s.walkTurn := by obtain ⟨_, _, h⟩ := s.error_frame k u p e a; rw [h]
@[simp] theorem State.error_clock (k u : Nat) (p : Option Nat) (e a : Nat) : (s.error k u p e a).clock = s.clock := by obtain ⟨_, _, h⟩ := s.error_frame k u p e a; rw [h]
@[simp] theorem State.error_mapJob (k u : Nat) (p : Option Nat) (e a : Nat) : (s.error k u p e a).mapJob = s.mapJob := by obtain ⟨_, _, h⟩ := s.error_frame k u p e a; rw [h]
@[simp] theorem State.error_auOwner (k u : Nat) (p : Option Nat) (e a : Nat) : (s.error k u p e a).auOwner = s.auOwner := by obtain ⟨_, _, h⟩ := s.error_frame k u p e a; rw [h]
@[simp] theorem State.error_auQueue (k u : Nat) (p : Option Nat) (e a : Nat) : (s.error k u p e a).auQueue = s.auQueue := by obtain ⟨_, _, h⟩ := s.error_frame k u p e a; rw [h]
@[simp] theorem State.error_auLastCtx (k u : Nat) (p : Option Nat) (e a : Nat) : (s.error k u p e a).auLastCtx = s.auLastCtx := by obtain ⟨_, _, h⟩ := s.error_frame k u p e a; rw [h]
@[simp] theorem State.error_samplerPart (k u : Nat) (p : Option Nat) (e a : Nat) : (s.error k u p e a).samplerPart = s.samplerPart := by obtain ⟨_, _, h⟩ := s.error_frame k u p e a; rw [h]
@[simp] theorem State.error_samplerFifo (k u : Nat) (p : Option Nat) (e a : Nat) : (s.error k u p e a).samplerFifo = s.samplerFifo := by obtain ⟨_, _, h⟩ := s.error_frame k u p e a; rw [h]
@[simp] theorem State.error_samplerTurn (k u : Nat) (p : Option Nat) (e a : Nat) : (s.error k u p e a).samplerTurn = s.samplerTurn := by obtain ⟨_, _, h⟩ := s.error_frame k u p e a; rw [h]
@[simp] theorem State.error_samplerCmd (k u : Nat) (p : Option Nat) (e a : Nat) : (s.error k u p e a).samplerCmd = s.samplerCmd := by obtain ⟨_, _, h⟩ := s.error_frame k u p e a; rw [h]
@[simp] theorem State.error_samplers (k u : Nat) (p : Option Nat) (e a : Nat) : (s.error k u p e a).samplers = s.samplers := by obtain ⟨_, _, h⟩ := s.error_frame k u p e a; rw [h]
@[simp] theorem State.error_lanesTurn (k u : Nat) (p : Option Nat) (e a : Nat) : (s.error k u p e a).lanesTurn = s.lanesTurn := by obtain ⟨_, _, h⟩ := s.error_frame k u p e a; rw [h]

/-! ## note -/

theorem State.note_frame (k sc e : Nat) (p : Option Nat) (c a b : Nat) : ∃ x0 x1, s.note k sc e p c a b = { s with agent := x0, ctr := x1 } := by
  unfold State.note
  split
  · exact ⟨_, _, rfl⟩
  · exact ⟨_, _, rfl⟩

@[simp] theorem State.note_cfg (k sc e : Nat) (p : Option Nat) (c a b : Nat) : (s.note k sc e p c a b).cfg = s.cfg := by obtain ⟨_, _, h⟩ := s.note_frame k sc e p c a b; rw [h]
@[simp] theorem State.note_pending (k sc e : Nat) (p : Option Nat) (c a b : Nat) : (s.note k sc e p c a b).pending = s.pending := by obtain ⟨_, _, h⟩ := s.note_frame k sc e p c a b; rw [h]
@[simp] theorem State.note_out (k sc e : Nat) (p : Option Nat) (c a b : Nat) : (s.note k sc e p c a b).out = s.out := by obtain ⟨_, _, h⟩ := s.note_frame k sc e p c a b; rw [h]
@[simp] theorem State.note_due (k sc e : Nat) (p : Option Nat) (c a b : Nat) : (s.note k sc e p c a b).due = s.due := by obtain ⟨_, _, h⟩ := s.note_frame k sc e p c a b; rw [h]
@[simp] theorem State.note_freeCount (k sc e : Nat) (p : Option Nat) (c a b : Nat) : (s.note k sc e p c a b).freeCount = s.freeCount := by obtain ⟨_, _, h⟩ := s.note_frame k sc e p c a b; rw [h]
@[simp] theorem State.note_loc (k sc e : Nat) (p : Option Nat) (c a b : Nat) : (s.note k sc e p c a b).loc = s.loc := by obtain ⟨_, _, h⟩ := s.note_frame k sc e p c a b; rw [h]
@[simp] theorem State.note_settings (k sc e : Nat) (p : Option Nat) (c a b : Nat) : (s.note k sc e p c a b).settings = s.settings := by obtain ⟨_, _, h⟩ := s.note_frame k sc e p c a b; rw [h]
@[simp] theorem State.note_fuses (k sc e : Nat) (p : Option Nat) (c a b : Nat) : (s.note k sc e p c a b).fuses = s.fuses := by obtain ⟨_, _, h⟩ := s.note_frame k sc e p c a b; rw [h]
@[simp] theorem State.note_bring (k sc e : Nat) (p : Option Nat) (c a b : Nat) : (s.note k sc e p c a b).bring = s.bring := by obtain ⟨_, _, h⟩ := s.note_frame k sc e p c a b; rw [h]
@[simp] theorem State.note_power (k sc e : Nat) (p : Option Nat) (c a b : Nat) : (s.note k sc e p c a b).power = s.power := by obtain ⟨_, _, h⟩ := s.note_frame k sc e p c a b; rw [h]
@[simp] theorem State.note_fw (k sc e : Nat) (p : Option Nat) (c a b : Nat) : (s.note k sc e p c a b).fw = s.fw := by obtain ⟨_, _, h⟩ := s.note_frame k sc e p c a b; rw [h]
@[simp] theorem State.note_life (k sc e : Nat) (p : Option Nat) (c a b : Nat) : (s.note k sc e p c a b).life = s.life := by obtain ⟨_, _, h⟩ := s.note_frame k sc e p c a b; rw [h]
@[simp] theorem State.note_alarms (k sc e : Nat) (p : Option Nat) (c a b : Nat) : (s.note k sc e p c a b).alarms = s.alarms := by obtain ⟨_, _, h⟩ := s.note_frame k sc e p c a b; rw [h]
@[simp] theorem State.note_faults (k sc e : Nat) (p : Option Nat) (c a b : Nat) : (s.note k sc e p c a b).faults = s.faults := by obtain ⟨_, _, h⟩ := s.note_frame k sc e p c a b; rw [h]
@[simp] theorem State.note_records (k sc e : Nat) (p : Option Nat) (c a b : Nat) : (s.note k sc e p c a b).records = s.records := by obtain ⟨_, _, h⟩ := s.note_frame k sc e p c a b; rw [h]
@[simp] theorem State.note_keys (k sc e : Nat) (p : Option Nat) (c a b : Nat) : (s.note k sc e p c a b).keys = s.keys := by obtain ⟨_, _, h⟩ := s.note_frame k sc e p c a b; rw [h]
@[simp] theorem State.note_gce (k sc e : Nat) (p : Option Nat) (c a b : Nat) : (s.note k sc e p c a b).gce = s.gce := by obtain ⟨_, _, h⟩ := s.note_frame k sc e p c a b; rw [h]
@[simp] theorem State.note_random (k sc e : Nat) (p : Option Nat) (c a b : Nat) : (s.note k sc e p c a b).random = s.random := by obtain ⟨_, _, h⟩ := s.note_frame k sc e p c a b; rw [h]
@[simp] theorem State.note_mem (k sc e : Nat) (p : Option Nat) (c a b : Nat) : (s.note k sc e p c a b).mem = s.mem := by obtain ⟨_, _, h⟩ := s.note_frame k sc e p c a b; rw [h]
@[simp] theorem State.note_links (k sc e : Nat) (p : Option Nat) (c a b : Nat) : (s.note k sc e p c a b).links = s.links := by obtain ⟨_, _, h⟩ := s.note_frame k sc e p c a b; rw [h]
@[simp] theorem State.note_chips (k sc e : Nat) (p : Option Nat) (c a b : Nat) : (s.note k sc e p c a b).chips = s.chips := by obtain ⟨_, _, h⟩ := s.note_frame k sc e p c a b; rw [h]
@[simp] theorem State.note_hosts (k sc e : Nat) (p : Option Nat) (c a b : Nat) : (s.note k sc e p c a b).hosts = s.hosts := by obtain ⟨_, _, h⟩ := s.note_frame k sc e p c a b; rw [h]
@[simp] theorem State.note_slots (k sc e : Nat) (p : Option Nat) (c a b : Nat) : (s.note k sc e p c a b).slots = s.slots := by obtain ⟨_, _, h⟩ := s.note_frame k sc e p c a b; rw [h]
@[simp] theorem State.note_tdis (k sc e : Nat) (p : Option Nat) (c a b : Nat) : (s.note k sc e p c a b).tdis = s.tdis := by obtain ⟨_, _, h⟩ := s.note_frame k sc e p c a b; rw [h]
@[simp] theorem State.note_stagingRoutes (k sc e : Nat) (p : Option Nat) (c a b : Nat) : (s.note k sc e p c a b).stagingRoutes = s.stagingRoutes := by obtain ⟨_, _, h⟩ := s.note_frame k sc e p c a b; rw [h]
@[simp] theorem State.note_liveRoutes (k sc e : Nat) (p : Option Nat) (c a b : Nat) : (s.note k sc e p c a b).liveRoutes = s.liveRoutes := by obtain ⟨_, _, h⟩ := s.note_frame k sc e p c a b; rw [h]
@[simp] theorem State.note_routeHold (k sc e : Nat) (p : Option Nat) (c a b : Nat) : (s.note k sc e p c a b).routeHold = s.routeHold := by obtain ⟨_, _, h⟩ := s.note_frame k sc e p c a b; rw [h]
@[simp] theorem State.note_routeHeld (k sc e : Nat) (p : Option Nat) (c a b : Nat) : (s.note k sc e p c a b).routeHeld = s.routeHeld := by obtain ⟨_, _, h⟩ := s.note_frame k sc e p c a b; rw [h]
@[simp] theorem State.note_otags (k sc e : Nat) (p : Option Nat) (c a b : Nat) : (s.note k sc e p c a b).otags = s.otags := by obtain ⟨_, _, h⟩ := s.note_frame k sc e p c a b; rw [h]
@[simp] theorem State.note_otagNext (k sc e : Nat) (p : Option Nat) (c a b : Nat) : (s.note k sc e p c a b).otagNext = s.otagNext := by obtain ⟨_, _, h⟩ := s.note_frame k sc e p c a b; rw [h]
@[simp] theorem State.note_heldOps (k sc e : Nat) (p : Option Nat) (c a b : Nat) : (s.note k sc e p c a b).heldOps = s.heldOps := by obtain ⟨_, _, h⟩ := s.note_frame k sc e p c a b; rw [h]
@[simp] theorem State.note_rcache (k sc e : Nat) (p : Option Nat) (c a b : Nat) : (s.note k sc e p c a b).rcache = s.rcache := by obtain ⟨_, _, h⟩ := s.note_frame k sc e p c a b; rw [h]
@[simp] theorem State.note_comb (k sc e : Nat) (p : Option Nat) (c a b : Nat) : (s.note k sc e p c a b).comb = s.comb := by obtain ⟨_, _, h⟩ := s.note_frame k sc e p c a b; rw [h]
@[simp] theorem State.note_rslots (k sc e : Nat) (p : Option Nat) (c a b : Nat) : (s.note k sc e p c a b).rslots = s.rslots := by obtain ⟨_, _, h⟩ := s.note_frame k sc e p c a b; rw [h]
@[simp] theorem State.note_early (k sc e : Nat) (p : Option Nat) (c a b : Nat) : (s.note k sc e p c a b).early = s.early := by obtain ⟨_, _, h⟩ := s.note_frame k sc e p c a b; rw [h]
@[simp] theorem State.note_chunkRecs (k sc e : Nat) (p : Option Nat) (c a b : Nat) : (s.note k sc e p c a b).chunkRecs = s.chunkRecs := by obtain ⟨_, _, h⟩ := s.note_frame k sc e p c a b; rw [h]
@[simp] theorem State.note_parts (k sc e : Nat) (p : Option Nat) (c a b : Nat) : (s.note k sc e p c a b).parts = s.parts := by obtain ⟨_, _, h⟩ := s.note_frame k sc e p c a b; rw [h]
@[simp] theorem State.note_ctxs (k sc e : Nat) (p : Option Nat) (c a b : Nat) : (s.note k sc e p c a b).ctxs = s.ctxs := by obtain ⟨_, _, h⟩ := s.note_frame k sc e p c a b; rw [h]
@[simp] theorem State.note_queues (k sc e : Nat) (p : Option Nat) (c a b : Nat) : (s.note k sc e p c a b).queues = s.queues := by obtain ⟨_, _, h⟩ := s.note_frame k sc e p c a b; rw [h]
@[simp] theorem State.note_cmds (k sc e : Nat) (p : Option Nat) (c a b : Nat) : (s.note k sc e p c a b).cmds = s.cmds := by obtain ⟨_, _, h⟩ := s.note_frame k sc e p c a b; rw [h]
@[simp] theorem State.note_cmdNext (k sc e : Nat) (p : Option Nat) (c a b : Nat) : (s.note k sc e p c a b).cmdNext = s.cmdNext := by obtain ⟨_, _, h⟩ := s.note_frame k sc e p c a b; rw [h]
@[simp] theorem State.note_objs (k sc e : Nat) (p : Option Nat) (c a b : Nat) : (s.note k sc e p c a b).objs = s.objs := by obtain ⟨_, _, h⟩ := s.note_frame k sc e p c a b; rw [h]
@[simp] theorem State.note_objLive (k sc e : Nat) (p : Option Nat) (c a b : Nat) : (s.note k sc e p c a b).objLive = s.objLive := by obtain ⟨_, _, h⟩ := s.note_frame k sc e p c a b; rw [h]
@[simp] theorem State.note_watch (k sc e : Nat) (p : Option Nat) (c a b : Nat) : (s.note k sc e p c a b).watch = s.watch := by obtain ⟨_, _, h⟩ := s.note_frame k sc e p c a b; rw [h]
@[simp] theorem State.note_trans (k sc e : Nat) (p : Option Nat) (c a b : Nat) : (s.note k sc e p c a b).trans = s.trans := by obtain ⟨_, _, h⟩ := s.note_frame k sc e p c a b; rw [h]
@[simp] theorem State.note_tlb1 (k sc e : Nat) (p : Option Nat) (c a b : Nat) : (s.note k sc e p c a b).tlb1 = s.tlb1 := by obtain ⟨_, _, h⟩ := s.note_frame k sc e p c a b; rw [h]
@[simp] theorem State.note_tlb2 (k sc e : Nat) (p : Option Nat) (c a b : Nat) : (s.note k sc e p c a b).tlb2 = s.tlb2 := by obtain ⟨_, _, h⟩ := s.note_frame k sc e p c a b; rw [h]
@[simp] theorem State.note_walks (k sc e : Nat) (p : Option Nat) (c a b : Nat) : (s.note k sc e p c a b).walks = s.walks := by obtain ⟨_, _, h⟩ := s.note_frame k sc e p c a b; rw [h]
@[simp] theorem State.note_walkTurn (k sc e : Nat) (p : Option Nat) (c a b : Nat) : (s.note k sc e p c a b).walkTurn = s.walkTurn := by obtain ⟨_, _, h⟩ := s.note_frame k sc e p c a b; rw [h]
@[simp] theorem State.note_clock (k sc e : Nat) (p : Option Nat) (c a b : Nat) : (s.note k sc e p c a b).clock = s.clock := by obtain ⟨_, _, h⟩ := s.note_frame k sc e p c a b; rw [h]
@[simp] theorem State.note_mapJob (k sc e : Nat) (p : Option Nat) (c a b : Nat) : (s.note k sc e p c a b).mapJob = s.mapJob := by obtain ⟨_, _, h⟩ := s.note_frame k sc e p c a b; rw [h]
@[simp] theorem State.note_auOwner (k sc e : Nat) (p : Option Nat) (c a b : Nat) : (s.note k sc e p c a b).auOwner = s.auOwner := by obtain ⟨_, _, h⟩ := s.note_frame k sc e p c a b; rw [h]
@[simp] theorem State.note_auQueue (k sc e : Nat) (p : Option Nat) (c a b : Nat) : (s.note k sc e p c a b).auQueue = s.auQueue := by obtain ⟨_, _, h⟩ := s.note_frame k sc e p c a b; rw [h]
@[simp] theorem State.note_auLastCtx (k sc e : Nat) (p : Option Nat) (c a b : Nat) : (s.note k sc e p c a b).auLastCtx = s.auLastCtx := by obtain ⟨_, _, h⟩ := s.note_frame k sc e p c a b; rw [h]
@[simp] theorem State.note_samplerPart (k sc e : Nat) (p : Option Nat) (c a b : Nat) : (s.note k sc e p c a b).samplerPart = s.samplerPart := by obtain ⟨_, _, h⟩ := s.note_frame k sc e p c a b; rw [h]
@[simp] theorem State.note_samplerFifo (k sc e : Nat) (p : Option Nat) (c a b : Nat) : (s.note k sc e p c a b).samplerFifo = s.samplerFifo := by obtain ⟨_, _, h⟩ := s.note_frame k sc e p c a b; rw [h]
@[simp] theorem State.note_samplerTurn (k sc e : Nat) (p : Option Nat) (c a b : Nat) : (s.note k sc e p c a b).samplerTurn = s.samplerTurn := by obtain ⟨_, _, h⟩ := s.note_frame k sc e p c a b; rw [h]
@[simp] theorem State.note_samplerCmd (k sc e : Nat) (p : Option Nat) (c a b : Nat) : (s.note k sc e p c a b).samplerCmd = s.samplerCmd := by obtain ⟨_, _, h⟩ := s.note_frame k sc e p c a b; rw [h]
@[simp] theorem State.note_samplers (k sc e : Nat) (p : Option Nat) (c a b : Nat) : (s.note k sc e p c a b).samplers = s.samplers := by obtain ⟨_, _, h⟩ := s.note_frame k sc e p c a b; rw [h]
@[simp] theorem State.note_lanesTurn (k sc e : Nat) (p : Option Nat) (c a b : Nat) : (s.note k sc e p c a b).lanesTurn = s.lanesTurn := by obtain ⟨_, _, h⟩ := s.note_frame k sc e p c a b; rw [h]

/-! ## integrity -/

theorem State.integrity_frame (i j k u : Nat) (p : Option Nat) (e a src : Nat) : ∃ x0 x1 x2 x3, s.integrity i j k u p e a src = { s with ctr := x0, records := x1, agent := x2, alarms := x3 } := by
  unfold State.integrity
  obtain ⟨r, c, h⟩ := State.error_frame ((s.bump i j).bump 0x6206 2) k u p e a
  rw [h]
  obtain ⟨g, c2, h2⟩ := State.note_frame { (s.bump i j).bump 0x6206 2 with records := r, ctr := c } 6 0 e p 0 (unitField k u) a
  rw [h2]
  exact ⟨_, _, _, _, rfl⟩

@[simp] theorem State.integrity_cfg (i j k u : Nat) (p : Option Nat) (e a src : Nat) : (s.integrity i j k u p e a src).cfg = s.cfg := by obtain ⟨_, _, _, _, h⟩ := s.integrity_frame i j k u p e a src; rw [h]
@[simp] theorem State.integrity_pending (i j k u : Nat) (p : Option Nat) (e a src : Nat) : (s.integrity i j k u p e a src).pending = s.pending := by obtain ⟨_, _, _, _, h⟩ := s.integrity_frame i j k u p e a src; rw [h]
@[simp] theorem State.integrity_out (i j k u : Nat) (p : Option Nat) (e a src : Nat) : (s.integrity i j k u p e a src).out = s.out := by obtain ⟨_, _, _, _, h⟩ := s.integrity_frame i j k u p e a src; rw [h]
@[simp] theorem State.integrity_due (i j k u : Nat) (p : Option Nat) (e a src : Nat) : (s.integrity i j k u p e a src).due = s.due := by obtain ⟨_, _, _, _, h⟩ := s.integrity_frame i j k u p e a src; rw [h]
@[simp] theorem State.integrity_freeCount (i j k u : Nat) (p : Option Nat) (e a src : Nat) : (s.integrity i j k u p e a src).freeCount = s.freeCount := by obtain ⟨_, _, _, _, h⟩ := s.integrity_frame i j k u p e a src; rw [h]
@[simp] theorem State.integrity_loc (i j k u : Nat) (p : Option Nat) (e a src : Nat) : (s.integrity i j k u p e a src).loc = s.loc := by obtain ⟨_, _, _, _, h⟩ := s.integrity_frame i j k u p e a src; rw [h]
@[simp] theorem State.integrity_settings (i j k u : Nat) (p : Option Nat) (e a src : Nat) : (s.integrity i j k u p e a src).settings = s.settings := by obtain ⟨_, _, _, _, h⟩ := s.integrity_frame i j k u p e a src; rw [h]
@[simp] theorem State.integrity_fuses (i j k u : Nat) (p : Option Nat) (e a src : Nat) : (s.integrity i j k u p e a src).fuses = s.fuses := by obtain ⟨_, _, _, _, h⟩ := s.integrity_frame i j k u p e a src; rw [h]
@[simp] theorem State.integrity_bring (i j k u : Nat) (p : Option Nat) (e a src : Nat) : (s.integrity i j k u p e a src).bring = s.bring := by obtain ⟨_, _, _, _, h⟩ := s.integrity_frame i j k u p e a src; rw [h]
@[simp] theorem State.integrity_power (i j k u : Nat) (p : Option Nat) (e a src : Nat) : (s.integrity i j k u p e a src).power = s.power := by obtain ⟨_, _, _, _, h⟩ := s.integrity_frame i j k u p e a src; rw [h]
@[simp] theorem State.integrity_fw (i j k u : Nat) (p : Option Nat) (e a src : Nat) : (s.integrity i j k u p e a src).fw = s.fw := by obtain ⟨_, _, _, _, h⟩ := s.integrity_frame i j k u p e a src; rw [h]
@[simp] theorem State.integrity_life (i j k u : Nat) (p : Option Nat) (e a src : Nat) : (s.integrity i j k u p e a src).life = s.life := by obtain ⟨_, _, _, _, h⟩ := s.integrity_frame i j k u p e a src; rw [h]
@[simp] theorem State.integrity_faults (i j k u : Nat) (p : Option Nat) (e a src : Nat) : (s.integrity i j k u p e a src).faults = s.faults := by obtain ⟨_, _, _, _, h⟩ := s.integrity_frame i j k u p e a src; rw [h]
@[simp] theorem State.integrity_keys (i j k u : Nat) (p : Option Nat) (e a src : Nat) : (s.integrity i j k u p e a src).keys = s.keys := by obtain ⟨_, _, _, _, h⟩ := s.integrity_frame i j k u p e a src; rw [h]
@[simp] theorem State.integrity_gce (i j k u : Nat) (p : Option Nat) (e a src : Nat) : (s.integrity i j k u p e a src).gce = s.gce := by obtain ⟨_, _, _, _, h⟩ := s.integrity_frame i j k u p e a src; rw [h]
@[simp] theorem State.integrity_random (i j k u : Nat) (p : Option Nat) (e a src : Nat) : (s.integrity i j k u p e a src).random = s.random := by obtain ⟨_, _, _, _, h⟩ := s.integrity_frame i j k u p e a src; rw [h]
@[simp] theorem State.integrity_mem (i j k u : Nat) (p : Option Nat) (e a src : Nat) : (s.integrity i j k u p e a src).mem = s.mem := by obtain ⟨_, _, _, _, h⟩ := s.integrity_frame i j k u p e a src; rw [h]
@[simp] theorem State.integrity_links (i j k u : Nat) (p : Option Nat) (e a src : Nat) : (s.integrity i j k u p e a src).links = s.links := by obtain ⟨_, _, _, _, h⟩ := s.integrity_frame i j k u p e a src; rw [h]
@[simp] theorem State.integrity_chips (i j k u : Nat) (p : Option Nat) (e a src : Nat) : (s.integrity i j k u p e a src).chips = s.chips := by obtain ⟨_, _, _, _, h⟩ := s.integrity_frame i j k u p e a src; rw [h]
@[simp] theorem State.integrity_hosts (i j k u : Nat) (p : Option Nat) (e a src : Nat) : (s.integrity i j k u p e a src).hosts = s.hosts := by obtain ⟨_, _, _, _, h⟩ := s.integrity_frame i j k u p e a src; rw [h]
@[simp] theorem State.integrity_slots (i j k u : Nat) (p : Option Nat) (e a src : Nat) : (s.integrity i j k u p e a src).slots = s.slots := by obtain ⟨_, _, _, _, h⟩ := s.integrity_frame i j k u p e a src; rw [h]
@[simp] theorem State.integrity_tdis (i j k u : Nat) (p : Option Nat) (e a src : Nat) : (s.integrity i j k u p e a src).tdis = s.tdis := by obtain ⟨_, _, _, _, h⟩ := s.integrity_frame i j k u p e a src; rw [h]
@[simp] theorem State.integrity_stagingRoutes (i j k u : Nat) (p : Option Nat) (e a src : Nat) : (s.integrity i j k u p e a src).stagingRoutes = s.stagingRoutes := by obtain ⟨_, _, _, _, h⟩ := s.integrity_frame i j k u p e a src; rw [h]
@[simp] theorem State.integrity_liveRoutes (i j k u : Nat) (p : Option Nat) (e a src : Nat) : (s.integrity i j k u p e a src).liveRoutes = s.liveRoutes := by obtain ⟨_, _, _, _, h⟩ := s.integrity_frame i j k u p e a src; rw [h]
@[simp] theorem State.integrity_routeHold (i j k u : Nat) (p : Option Nat) (e a src : Nat) : (s.integrity i j k u p e a src).routeHold = s.routeHold := by obtain ⟨_, _, _, _, h⟩ := s.integrity_frame i j k u p e a src; rw [h]
@[simp] theorem State.integrity_routeHeld (i j k u : Nat) (p : Option Nat) (e a src : Nat) : (s.integrity i j k u p e a src).routeHeld = s.routeHeld := by obtain ⟨_, _, _, _, h⟩ := s.integrity_frame i j k u p e a src; rw [h]
@[simp] theorem State.integrity_otags (i j k u : Nat) (p : Option Nat) (e a src : Nat) : (s.integrity i j k u p e a src).otags = s.otags := by obtain ⟨_, _, _, _, h⟩ := s.integrity_frame i j k u p e a src; rw [h]
@[simp] theorem State.integrity_otagNext (i j k u : Nat) (p : Option Nat) (e a src : Nat) : (s.integrity i j k u p e a src).otagNext = s.otagNext := by obtain ⟨_, _, _, _, h⟩ := s.integrity_frame i j k u p e a src; rw [h]
@[simp] theorem State.integrity_heldOps (i j k u : Nat) (p : Option Nat) (e a src : Nat) : (s.integrity i j k u p e a src).heldOps = s.heldOps := by obtain ⟨_, _, _, _, h⟩ := s.integrity_frame i j k u p e a src; rw [h]
@[simp] theorem State.integrity_rcache (i j k u : Nat) (p : Option Nat) (e a src : Nat) : (s.integrity i j k u p e a src).rcache = s.rcache := by obtain ⟨_, _, _, _, h⟩ := s.integrity_frame i j k u p e a src; rw [h]
@[simp] theorem State.integrity_comb (i j k u : Nat) (p : Option Nat) (e a src : Nat) : (s.integrity i j k u p e a src).comb = s.comb := by obtain ⟨_, _, _, _, h⟩ := s.integrity_frame i j k u p e a src; rw [h]
@[simp] theorem State.integrity_rslots (i j k u : Nat) (p : Option Nat) (e a src : Nat) : (s.integrity i j k u p e a src).rslots = s.rslots := by obtain ⟨_, _, _, _, h⟩ := s.integrity_frame i j k u p e a src; rw [h]
@[simp] theorem State.integrity_early (i j k u : Nat) (p : Option Nat) (e a src : Nat) : (s.integrity i j k u p e a src).early = s.early := by obtain ⟨_, _, _, _, h⟩ := s.integrity_frame i j k u p e a src; rw [h]
@[simp] theorem State.integrity_chunkRecs (i j k u : Nat) (p : Option Nat) (e a src : Nat) : (s.integrity i j k u p e a src).chunkRecs = s.chunkRecs := by obtain ⟨_, _, _, _, h⟩ := s.integrity_frame i j k u p e a src; rw [h]
@[simp] theorem State.integrity_parts (i j k u : Nat) (p : Option Nat) (e a src : Nat) : (s.integrity i j k u p e a src).parts = s.parts := by obtain ⟨_, _, _, _, h⟩ := s.integrity_frame i j k u p e a src; rw [h]
@[simp] theorem State.integrity_ctxs (i j k u : Nat) (p : Option Nat) (e a src : Nat) : (s.integrity i j k u p e a src).ctxs = s.ctxs := by obtain ⟨_, _, _, _, h⟩ := s.integrity_frame i j k u p e a src; rw [h]
@[simp] theorem State.integrity_queues (i j k u : Nat) (p : Option Nat) (e a src : Nat) : (s.integrity i j k u p e a src).queues = s.queues := by obtain ⟨_, _, _, _, h⟩ := s.integrity_frame i j k u p e a src; rw [h]
@[simp] theorem State.integrity_cmds (i j k u : Nat) (p : Option Nat) (e a src : Nat) : (s.integrity i j k u p e a src).cmds = s.cmds := by obtain ⟨_, _, _, _, h⟩ := s.integrity_frame i j k u p e a src; rw [h]
@[simp] theorem State.integrity_cmdNext (i j k u : Nat) (p : Option Nat) (e a src : Nat) : (s.integrity i j k u p e a src).cmdNext = s.cmdNext := by obtain ⟨_, _, _, _, h⟩ := s.integrity_frame i j k u p e a src; rw [h]
@[simp] theorem State.integrity_objs (i j k u : Nat) (p : Option Nat) (e a src : Nat) : (s.integrity i j k u p e a src).objs = s.objs := by obtain ⟨_, _, _, _, h⟩ := s.integrity_frame i j k u p e a src; rw [h]
@[simp] theorem State.integrity_objLive (i j k u : Nat) (p : Option Nat) (e a src : Nat) : (s.integrity i j k u p e a src).objLive = s.objLive := by obtain ⟨_, _, _, _, h⟩ := s.integrity_frame i j k u p e a src; rw [h]
@[simp] theorem State.integrity_watch (i j k u : Nat) (p : Option Nat) (e a src : Nat) : (s.integrity i j k u p e a src).watch = s.watch := by obtain ⟨_, _, _, _, h⟩ := s.integrity_frame i j k u p e a src; rw [h]
@[simp] theorem State.integrity_trans (i j k u : Nat) (p : Option Nat) (e a src : Nat) : (s.integrity i j k u p e a src).trans = s.trans := by obtain ⟨_, _, _, _, h⟩ := s.integrity_frame i j k u p e a src; rw [h]
@[simp] theorem State.integrity_tlb1 (i j k u : Nat) (p : Option Nat) (e a src : Nat) : (s.integrity i j k u p e a src).tlb1 = s.tlb1 := by obtain ⟨_, _, _, _, h⟩ := s.integrity_frame i j k u p e a src; rw [h]
@[simp] theorem State.integrity_tlb2 (i j k u : Nat) (p : Option Nat) (e a src : Nat) : (s.integrity i j k u p e a src).tlb2 = s.tlb2 := by obtain ⟨_, _, _, _, h⟩ := s.integrity_frame i j k u p e a src; rw [h]
@[simp] theorem State.integrity_walks (i j k u : Nat) (p : Option Nat) (e a src : Nat) : (s.integrity i j k u p e a src).walks = s.walks := by obtain ⟨_, _, _, _, h⟩ := s.integrity_frame i j k u p e a src; rw [h]
@[simp] theorem State.integrity_walkTurn (i j k u : Nat) (p : Option Nat) (e a src : Nat) : (s.integrity i j k u p e a src).walkTurn = s.walkTurn := by obtain ⟨_, _, _, _, h⟩ := s.integrity_frame i j k u p e a src; rw [h]
@[simp] theorem State.integrity_clock (i j k u : Nat) (p : Option Nat) (e a src : Nat) : (s.integrity i j k u p e a src).clock = s.clock := by obtain ⟨_, _, _, _, h⟩ := s.integrity_frame i j k u p e a src; rw [h]
@[simp] theorem State.integrity_mapJob (i j k u : Nat) (p : Option Nat) (e a src : Nat) : (s.integrity i j k u p e a src).mapJob = s.mapJob := by obtain ⟨_, _, _, _, h⟩ := s.integrity_frame i j k u p e a src; rw [h]
@[simp] theorem State.integrity_auOwner (i j k u : Nat) (p : Option Nat) (e a src : Nat) : (s.integrity i j k u p e a src).auOwner = s.auOwner := by obtain ⟨_, _, _, _, h⟩ := s.integrity_frame i j k u p e a src; rw [h]
@[simp] theorem State.integrity_auQueue (i j k u : Nat) (p : Option Nat) (e a src : Nat) : (s.integrity i j k u p e a src).auQueue = s.auQueue := by obtain ⟨_, _, _, _, h⟩ := s.integrity_frame i j k u p e a src; rw [h]
@[simp] theorem State.integrity_auLastCtx (i j k u : Nat) (p : Option Nat) (e a src : Nat) : (s.integrity i j k u p e a src).auLastCtx = s.auLastCtx := by obtain ⟨_, _, _, _, h⟩ := s.integrity_frame i j k u p e a src; rw [h]
@[simp] theorem State.integrity_samplerPart (i j k u : Nat) (p : Option Nat) (e a src : Nat) : (s.integrity i j k u p e a src).samplerPart = s.samplerPart := by obtain ⟨_, _, _, _, h⟩ := s.integrity_frame i j k u p e a src; rw [h]
@[simp] theorem State.integrity_samplerFifo (i j k u : Nat) (p : Option Nat) (e a src : Nat) : (s.integrity i j k u p e a src).samplerFifo = s.samplerFifo := by obtain ⟨_, _, _, _, h⟩ := s.integrity_frame i j k u p e a src; rw [h]
@[simp] theorem State.integrity_samplerTurn (i j k u : Nat) (p : Option Nat) (e a src : Nat) : (s.integrity i j k u p e a src).samplerTurn = s.samplerTurn := by obtain ⟨_, _, _, _, h⟩ := s.integrity_frame i j k u p e a src; rw [h]
@[simp] theorem State.integrity_samplerCmd (i j k u : Nat) (p : Option Nat) (e a src : Nat) : (s.integrity i j k u p e a src).samplerCmd = s.samplerCmd := by obtain ⟨_, _, _, _, h⟩ := s.integrity_frame i j k u p e a src; rw [h]
@[simp] theorem State.integrity_samplers (i j k u : Nat) (p : Option Nat) (e a src : Nat) : (s.integrity i j k u p e a src).samplers = s.samplers := by obtain ⟨_, _, _, _, h⟩ := s.integrity_frame i j k u p e a src; rw [h]
@[simp] theorem State.integrity_lanesTurn (i j k u : Nat) (p : Option Nat) (e a src : Nat) : (s.integrity i j k u p e a src).lanesTurn = s.lanesTurn := by obtain ⟨_, _, _, _, h⟩ := s.integrity_frame i j k u p e a src; rw [h]

theorem pred_ite {P : State → Prop} {c : Prop} [Decidable c] {a b : State} (ha : P a) (hb : P b) : P (if c then a else b) := by
  split
  · exact ha
  · exact hb

theorem State.note_over_agent (x : Agent) (k sc e : Nat) (p : Option Nat) (c a b : Nat) :
    ∃ x0 x1, ({ s with agent := x } : State).note k sc e p c a b = { s with agent := x0, ctr := x1 } := by
  obtain ⟨g, r, h⟩ := State.note_frame { s with agent := x } k sc e p c a b
  exact ⟨g, r, by rw [h]⟩

/-! ## audit -/

theorem State.audit_frame (ev ro se i j c v key : Nat) : ∃ x0 x1, s.audit ev ro se i j c v key = { s with agent := x0, ctr := x1 } := by
  exact pred_ite (P := fun t => ∃ x0 x1, t = { s with agent := x0, ctr := x1 }) (State.note_over_agent s _ 0x0B 0 0 none 0 _ 0) ⟨_, _, rfl⟩

@[simp] theorem State.audit_cfg (ev ro se i j c v key : Nat) : (s.audit ev ro se i j c v key).cfg = s.cfg := by obtain ⟨_, _, h⟩ := s.audit_frame ev ro se i j c v key; rw [h]
@[simp] theorem State.audit_pending (ev ro se i j c v key : Nat) : (s.audit ev ro se i j c v key).pending = s.pending := by obtain ⟨_, _, h⟩ := s.audit_frame ev ro se i j c v key; rw [h]
@[simp] theorem State.audit_out (ev ro se i j c v key : Nat) : (s.audit ev ro se i j c v key).out = s.out := by obtain ⟨_, _, h⟩ := s.audit_frame ev ro se i j c v key; rw [h]
@[simp] theorem State.audit_due (ev ro se i j c v key : Nat) : (s.audit ev ro se i j c v key).due = s.due := by obtain ⟨_, _, h⟩ := s.audit_frame ev ro se i j c v key; rw [h]
@[simp] theorem State.audit_freeCount (ev ro se i j c v key : Nat) : (s.audit ev ro se i j c v key).freeCount = s.freeCount := by obtain ⟨_, _, h⟩ := s.audit_frame ev ro se i j c v key; rw [h]
@[simp] theorem State.audit_loc (ev ro se i j c v key : Nat) : (s.audit ev ro se i j c v key).loc = s.loc := by obtain ⟨_, _, h⟩ := s.audit_frame ev ro se i j c v key; rw [h]
@[simp] theorem State.audit_settings (ev ro se i j c v key : Nat) : (s.audit ev ro se i j c v key).settings = s.settings := by obtain ⟨_, _, h⟩ := s.audit_frame ev ro se i j c v key; rw [h]
@[simp] theorem State.audit_fuses (ev ro se i j c v key : Nat) : (s.audit ev ro se i j c v key).fuses = s.fuses := by obtain ⟨_, _, h⟩ := s.audit_frame ev ro se i j c v key; rw [h]
@[simp] theorem State.audit_bring (ev ro se i j c v key : Nat) : (s.audit ev ro se i j c v key).bring = s.bring := by obtain ⟨_, _, h⟩ := s.audit_frame ev ro se i j c v key; rw [h]
@[simp] theorem State.audit_power (ev ro se i j c v key : Nat) : (s.audit ev ro se i j c v key).power = s.power := by obtain ⟨_, _, h⟩ := s.audit_frame ev ro se i j c v key; rw [h]
@[simp] theorem State.audit_fw (ev ro se i j c v key : Nat) : (s.audit ev ro se i j c v key).fw = s.fw := by obtain ⟨_, _, h⟩ := s.audit_frame ev ro se i j c v key; rw [h]
@[simp] theorem State.audit_life (ev ro se i j c v key : Nat) : (s.audit ev ro se i j c v key).life = s.life := by obtain ⟨_, _, h⟩ := s.audit_frame ev ro se i j c v key; rw [h]
@[simp] theorem State.audit_alarms (ev ro se i j c v key : Nat) : (s.audit ev ro se i j c v key).alarms = s.alarms := by obtain ⟨_, _, h⟩ := s.audit_frame ev ro se i j c v key; rw [h]
@[simp] theorem State.audit_faults (ev ro se i j c v key : Nat) : (s.audit ev ro se i j c v key).faults = s.faults := by obtain ⟨_, _, h⟩ := s.audit_frame ev ro se i j c v key; rw [h]
@[simp] theorem State.audit_records (ev ro se i j c v key : Nat) : (s.audit ev ro se i j c v key).records = s.records := by obtain ⟨_, _, h⟩ := s.audit_frame ev ro se i j c v key; rw [h]
@[simp] theorem State.audit_keys (ev ro se i j c v key : Nat) : (s.audit ev ro se i j c v key).keys = s.keys := by obtain ⟨_, _, h⟩ := s.audit_frame ev ro se i j c v key; rw [h]
@[simp] theorem State.audit_gce (ev ro se i j c v key : Nat) : (s.audit ev ro se i j c v key).gce = s.gce := by obtain ⟨_, _, h⟩ := s.audit_frame ev ro se i j c v key; rw [h]
@[simp] theorem State.audit_random (ev ro se i j c v key : Nat) : (s.audit ev ro se i j c v key).random = s.random := by obtain ⟨_, _, h⟩ := s.audit_frame ev ro se i j c v key; rw [h]
@[simp] theorem State.audit_mem (ev ro se i j c v key : Nat) : (s.audit ev ro se i j c v key).mem = s.mem := by obtain ⟨_, _, h⟩ := s.audit_frame ev ro se i j c v key; rw [h]
@[simp] theorem State.audit_links (ev ro se i j c v key : Nat) : (s.audit ev ro se i j c v key).links = s.links := by obtain ⟨_, _, h⟩ := s.audit_frame ev ro se i j c v key; rw [h]
@[simp] theorem State.audit_chips (ev ro se i j c v key : Nat) : (s.audit ev ro se i j c v key).chips = s.chips := by obtain ⟨_, _, h⟩ := s.audit_frame ev ro se i j c v key; rw [h]
@[simp] theorem State.audit_hosts (ev ro se i j c v key : Nat) : (s.audit ev ro se i j c v key).hosts = s.hosts := by obtain ⟨_, _, h⟩ := s.audit_frame ev ro se i j c v key; rw [h]
@[simp] theorem State.audit_slots (ev ro se i j c v key : Nat) : (s.audit ev ro se i j c v key).slots = s.slots := by obtain ⟨_, _, h⟩ := s.audit_frame ev ro se i j c v key; rw [h]
@[simp] theorem State.audit_tdis (ev ro se i j c v key : Nat) : (s.audit ev ro se i j c v key).tdis = s.tdis := by obtain ⟨_, _, h⟩ := s.audit_frame ev ro se i j c v key; rw [h]
@[simp] theorem State.audit_stagingRoutes (ev ro se i j c v key : Nat) : (s.audit ev ro se i j c v key).stagingRoutes = s.stagingRoutes := by obtain ⟨_, _, h⟩ := s.audit_frame ev ro se i j c v key; rw [h]
@[simp] theorem State.audit_liveRoutes (ev ro se i j c v key : Nat) : (s.audit ev ro se i j c v key).liveRoutes = s.liveRoutes := by obtain ⟨_, _, h⟩ := s.audit_frame ev ro se i j c v key; rw [h]
@[simp] theorem State.audit_routeHold (ev ro se i j c v key : Nat) : (s.audit ev ro se i j c v key).routeHold = s.routeHold := by obtain ⟨_, _, h⟩ := s.audit_frame ev ro se i j c v key; rw [h]
@[simp] theorem State.audit_routeHeld (ev ro se i j c v key : Nat) : (s.audit ev ro se i j c v key).routeHeld = s.routeHeld := by obtain ⟨_, _, h⟩ := s.audit_frame ev ro se i j c v key; rw [h]
@[simp] theorem State.audit_otags (ev ro se i j c v key : Nat) : (s.audit ev ro se i j c v key).otags = s.otags := by obtain ⟨_, _, h⟩ := s.audit_frame ev ro se i j c v key; rw [h]
@[simp] theorem State.audit_otagNext (ev ro se i j c v key : Nat) : (s.audit ev ro se i j c v key).otagNext = s.otagNext := by obtain ⟨_, _, h⟩ := s.audit_frame ev ro se i j c v key; rw [h]
@[simp] theorem State.audit_heldOps (ev ro se i j c v key : Nat) : (s.audit ev ro se i j c v key).heldOps = s.heldOps := by obtain ⟨_, _, h⟩ := s.audit_frame ev ro se i j c v key; rw [h]
@[simp] theorem State.audit_rcache (ev ro se i j c v key : Nat) : (s.audit ev ro se i j c v key).rcache = s.rcache := by obtain ⟨_, _, h⟩ := s.audit_frame ev ro se i j c v key; rw [h]
@[simp] theorem State.audit_comb (ev ro se i j c v key : Nat) : (s.audit ev ro se i j c v key).comb = s.comb := by obtain ⟨_, _, h⟩ := s.audit_frame ev ro se i j c v key; rw [h]
@[simp] theorem State.audit_rslots (ev ro se i j c v key : Nat) : (s.audit ev ro se i j c v key).rslots = s.rslots := by obtain ⟨_, _, h⟩ := s.audit_frame ev ro se i j c v key; rw [h]
@[simp] theorem State.audit_early (ev ro se i j c v key : Nat) : (s.audit ev ro se i j c v key).early = s.early := by obtain ⟨_, _, h⟩ := s.audit_frame ev ro se i j c v key; rw [h]
@[simp] theorem State.audit_chunkRecs (ev ro se i j c v key : Nat) : (s.audit ev ro se i j c v key).chunkRecs = s.chunkRecs := by obtain ⟨_, _, h⟩ := s.audit_frame ev ro se i j c v key; rw [h]
@[simp] theorem State.audit_parts (ev ro se i j c v key : Nat) : (s.audit ev ro se i j c v key).parts = s.parts := by obtain ⟨_, _, h⟩ := s.audit_frame ev ro se i j c v key; rw [h]
@[simp] theorem State.audit_ctxs (ev ro se i j c v key : Nat) : (s.audit ev ro se i j c v key).ctxs = s.ctxs := by obtain ⟨_, _, h⟩ := s.audit_frame ev ro se i j c v key; rw [h]
@[simp] theorem State.audit_queues (ev ro se i j c v key : Nat) : (s.audit ev ro se i j c v key).queues = s.queues := by obtain ⟨_, _, h⟩ := s.audit_frame ev ro se i j c v key; rw [h]
@[simp] theorem State.audit_cmds (ev ro se i j c v key : Nat) : (s.audit ev ro se i j c v key).cmds = s.cmds := by obtain ⟨_, _, h⟩ := s.audit_frame ev ro se i j c v key; rw [h]
@[simp] theorem State.audit_cmdNext (ev ro se i j c v key : Nat) : (s.audit ev ro se i j c v key).cmdNext = s.cmdNext := by obtain ⟨_, _, h⟩ := s.audit_frame ev ro se i j c v key; rw [h]
@[simp] theorem State.audit_objs (ev ro se i j c v key : Nat) : (s.audit ev ro se i j c v key).objs = s.objs := by obtain ⟨_, _, h⟩ := s.audit_frame ev ro se i j c v key; rw [h]
@[simp] theorem State.audit_objLive (ev ro se i j c v key : Nat) : (s.audit ev ro se i j c v key).objLive = s.objLive := by obtain ⟨_, _, h⟩ := s.audit_frame ev ro se i j c v key; rw [h]
@[simp] theorem State.audit_watch (ev ro se i j c v key : Nat) : (s.audit ev ro se i j c v key).watch = s.watch := by obtain ⟨_, _, h⟩ := s.audit_frame ev ro se i j c v key; rw [h]
@[simp] theorem State.audit_trans (ev ro se i j c v key : Nat) : (s.audit ev ro se i j c v key).trans = s.trans := by obtain ⟨_, _, h⟩ := s.audit_frame ev ro se i j c v key; rw [h]
@[simp] theorem State.audit_tlb1 (ev ro se i j c v key : Nat) : (s.audit ev ro se i j c v key).tlb1 = s.tlb1 := by obtain ⟨_, _, h⟩ := s.audit_frame ev ro se i j c v key; rw [h]
@[simp] theorem State.audit_tlb2 (ev ro se i j c v key : Nat) : (s.audit ev ro se i j c v key).tlb2 = s.tlb2 := by obtain ⟨_, _, h⟩ := s.audit_frame ev ro se i j c v key; rw [h]
@[simp] theorem State.audit_walks (ev ro se i j c v key : Nat) : (s.audit ev ro se i j c v key).walks = s.walks := by obtain ⟨_, _, h⟩ := s.audit_frame ev ro se i j c v key; rw [h]
@[simp] theorem State.audit_walkTurn (ev ro se i j c v key : Nat) : (s.audit ev ro se i j c v key).walkTurn = s.walkTurn := by obtain ⟨_, _, h⟩ := s.audit_frame ev ro se i j c v key; rw [h]
@[simp] theorem State.audit_clock (ev ro se i j c v key : Nat) : (s.audit ev ro se i j c v key).clock = s.clock := by obtain ⟨_, _, h⟩ := s.audit_frame ev ro se i j c v key; rw [h]
@[simp] theorem State.audit_mapJob (ev ro se i j c v key : Nat) : (s.audit ev ro se i j c v key).mapJob = s.mapJob := by obtain ⟨_, _, h⟩ := s.audit_frame ev ro se i j c v key; rw [h]
@[simp] theorem State.audit_auOwner (ev ro se i j c v key : Nat) : (s.audit ev ro se i j c v key).auOwner = s.auOwner := by obtain ⟨_, _, h⟩ := s.audit_frame ev ro se i j c v key; rw [h]
@[simp] theorem State.audit_auQueue (ev ro se i j c v key : Nat) : (s.audit ev ro se i j c v key).auQueue = s.auQueue := by obtain ⟨_, _, h⟩ := s.audit_frame ev ro se i j c v key; rw [h]
@[simp] theorem State.audit_auLastCtx (ev ro se i j c v key : Nat) : (s.audit ev ro se i j c v key).auLastCtx = s.auLastCtx := by obtain ⟨_, _, h⟩ := s.audit_frame ev ro se i j c v key; rw [h]
@[simp] theorem State.audit_samplerPart (ev ro se i j c v key : Nat) : (s.audit ev ro se i j c v key).samplerPart = s.samplerPart := by obtain ⟨_, _, h⟩ := s.audit_frame ev ro se i j c v key; rw [h]
@[simp] theorem State.audit_samplerFifo (ev ro se i j c v key : Nat) : (s.audit ev ro se i j c v key).samplerFifo = s.samplerFifo := by obtain ⟨_, _, h⟩ := s.audit_frame ev ro se i j c v key; rw [h]
@[simp] theorem State.audit_samplerTurn (ev ro se i j c v key : Nat) : (s.audit ev ro se i j c v key).samplerTurn = s.samplerTurn := by obtain ⟨_, _, h⟩ := s.audit_frame ev ro se i j c v key; rw [h]
@[simp] theorem State.audit_samplerCmd (ev ro se i j c v key : Nat) : (s.audit ev ro se i j c v key).samplerCmd = s.samplerCmd := by obtain ⟨_, _, h⟩ := s.audit_frame ev ro se i j c v key; rw [h]
@[simp] theorem State.audit_samplers (ev ro se i j c v key : Nat) : (s.audit ev ro se i j c v key).samplers = s.samplers := by obtain ⟨_, _, h⟩ := s.audit_frame ev ro se i j c v key; rw [h]
@[simp] theorem State.audit_lanesTurn (ev ro se i j c v key : Nat) : (s.audit ev ro se i j c v key).lanesTurn = s.lanesTurn := by obtain ⟨_, _, h⟩ := s.audit_frame ev ro se i j c v key; rw [h]

/-! ## auditHub -/

theorem State.auditHub_frame (ev i j c v : Nat) : ∃ x0 x1, s.auditHub ev i j c v = { s with agent := x0, ctr := x1 } := by
  exact State.audit_frame s ev 4 0xF i j c v 0

@[simp] theorem State.auditHub_cfg (ev i j c v : Nat) : (s.auditHub ev i j c v).cfg = s.cfg := by obtain ⟨_, _, h⟩ := s.auditHub_frame ev i j c v; rw [h]
@[simp] theorem State.auditHub_pending (ev i j c v : Nat) : (s.auditHub ev i j c v).pending = s.pending := by obtain ⟨_, _, h⟩ := s.auditHub_frame ev i j c v; rw [h]
@[simp] theorem State.auditHub_out (ev i j c v : Nat) : (s.auditHub ev i j c v).out = s.out := by obtain ⟨_, _, h⟩ := s.auditHub_frame ev i j c v; rw [h]
@[simp] theorem State.auditHub_due (ev i j c v : Nat) : (s.auditHub ev i j c v).due = s.due := by obtain ⟨_, _, h⟩ := s.auditHub_frame ev i j c v; rw [h]
@[simp] theorem State.auditHub_freeCount (ev i j c v : Nat) : (s.auditHub ev i j c v).freeCount = s.freeCount := by obtain ⟨_, _, h⟩ := s.auditHub_frame ev i j c v; rw [h]
@[simp] theorem State.auditHub_loc (ev i j c v : Nat) : (s.auditHub ev i j c v).loc = s.loc := by obtain ⟨_, _, h⟩ := s.auditHub_frame ev i j c v; rw [h]
@[simp] theorem State.auditHub_settings (ev i j c v : Nat) : (s.auditHub ev i j c v).settings = s.settings := by obtain ⟨_, _, h⟩ := s.auditHub_frame ev i j c v; rw [h]
@[simp] theorem State.auditHub_fuses (ev i j c v : Nat) : (s.auditHub ev i j c v).fuses = s.fuses := by obtain ⟨_, _, h⟩ := s.auditHub_frame ev i j c v; rw [h]
@[simp] theorem State.auditHub_bring (ev i j c v : Nat) : (s.auditHub ev i j c v).bring = s.bring := by obtain ⟨_, _, h⟩ := s.auditHub_frame ev i j c v; rw [h]
@[simp] theorem State.auditHub_power (ev i j c v : Nat) : (s.auditHub ev i j c v).power = s.power := by obtain ⟨_, _, h⟩ := s.auditHub_frame ev i j c v; rw [h]
@[simp] theorem State.auditHub_fw (ev i j c v : Nat) : (s.auditHub ev i j c v).fw = s.fw := by obtain ⟨_, _, h⟩ := s.auditHub_frame ev i j c v; rw [h]
@[simp] theorem State.auditHub_life (ev i j c v : Nat) : (s.auditHub ev i j c v).life = s.life := by obtain ⟨_, _, h⟩ := s.auditHub_frame ev i j c v; rw [h]
@[simp] theorem State.auditHub_alarms (ev i j c v : Nat) : (s.auditHub ev i j c v).alarms = s.alarms := by obtain ⟨_, _, h⟩ := s.auditHub_frame ev i j c v; rw [h]
@[simp] theorem State.auditHub_faults (ev i j c v : Nat) : (s.auditHub ev i j c v).faults = s.faults := by obtain ⟨_, _, h⟩ := s.auditHub_frame ev i j c v; rw [h]
@[simp] theorem State.auditHub_records (ev i j c v : Nat) : (s.auditHub ev i j c v).records = s.records := by obtain ⟨_, _, h⟩ := s.auditHub_frame ev i j c v; rw [h]
@[simp] theorem State.auditHub_keys (ev i j c v : Nat) : (s.auditHub ev i j c v).keys = s.keys := by obtain ⟨_, _, h⟩ := s.auditHub_frame ev i j c v; rw [h]
@[simp] theorem State.auditHub_gce (ev i j c v : Nat) : (s.auditHub ev i j c v).gce = s.gce := by obtain ⟨_, _, h⟩ := s.auditHub_frame ev i j c v; rw [h]
@[simp] theorem State.auditHub_random (ev i j c v : Nat) : (s.auditHub ev i j c v).random = s.random := by obtain ⟨_, _, h⟩ := s.auditHub_frame ev i j c v; rw [h]
@[simp] theorem State.auditHub_mem (ev i j c v : Nat) : (s.auditHub ev i j c v).mem = s.mem := by obtain ⟨_, _, h⟩ := s.auditHub_frame ev i j c v; rw [h]
@[simp] theorem State.auditHub_links (ev i j c v : Nat) : (s.auditHub ev i j c v).links = s.links := by obtain ⟨_, _, h⟩ := s.auditHub_frame ev i j c v; rw [h]
@[simp] theorem State.auditHub_chips (ev i j c v : Nat) : (s.auditHub ev i j c v).chips = s.chips := by obtain ⟨_, _, h⟩ := s.auditHub_frame ev i j c v; rw [h]
@[simp] theorem State.auditHub_hosts (ev i j c v : Nat) : (s.auditHub ev i j c v).hosts = s.hosts := by obtain ⟨_, _, h⟩ := s.auditHub_frame ev i j c v; rw [h]
@[simp] theorem State.auditHub_slots (ev i j c v : Nat) : (s.auditHub ev i j c v).slots = s.slots := by obtain ⟨_, _, h⟩ := s.auditHub_frame ev i j c v; rw [h]
@[simp] theorem State.auditHub_tdis (ev i j c v : Nat) : (s.auditHub ev i j c v).tdis = s.tdis := by obtain ⟨_, _, h⟩ := s.auditHub_frame ev i j c v; rw [h]
@[simp] theorem State.auditHub_stagingRoutes (ev i j c v : Nat) : (s.auditHub ev i j c v).stagingRoutes = s.stagingRoutes := by obtain ⟨_, _, h⟩ := s.auditHub_frame ev i j c v; rw [h]
@[simp] theorem State.auditHub_liveRoutes (ev i j c v : Nat) : (s.auditHub ev i j c v).liveRoutes = s.liveRoutes := by obtain ⟨_, _, h⟩ := s.auditHub_frame ev i j c v; rw [h]
@[simp] theorem State.auditHub_routeHold (ev i j c v : Nat) : (s.auditHub ev i j c v).routeHold = s.routeHold := by obtain ⟨_, _, h⟩ := s.auditHub_frame ev i j c v; rw [h]
@[simp] theorem State.auditHub_routeHeld (ev i j c v : Nat) : (s.auditHub ev i j c v).routeHeld = s.routeHeld := by obtain ⟨_, _, h⟩ := s.auditHub_frame ev i j c v; rw [h]
@[simp] theorem State.auditHub_otags (ev i j c v : Nat) : (s.auditHub ev i j c v).otags = s.otags := by obtain ⟨_, _, h⟩ := s.auditHub_frame ev i j c v; rw [h]
@[simp] theorem State.auditHub_otagNext (ev i j c v : Nat) : (s.auditHub ev i j c v).otagNext = s.otagNext := by obtain ⟨_, _, h⟩ := s.auditHub_frame ev i j c v; rw [h]
@[simp] theorem State.auditHub_heldOps (ev i j c v : Nat) : (s.auditHub ev i j c v).heldOps = s.heldOps := by obtain ⟨_, _, h⟩ := s.auditHub_frame ev i j c v; rw [h]
@[simp] theorem State.auditHub_rcache (ev i j c v : Nat) : (s.auditHub ev i j c v).rcache = s.rcache := by obtain ⟨_, _, h⟩ := s.auditHub_frame ev i j c v; rw [h]
@[simp] theorem State.auditHub_comb (ev i j c v : Nat) : (s.auditHub ev i j c v).comb = s.comb := by obtain ⟨_, _, h⟩ := s.auditHub_frame ev i j c v; rw [h]
@[simp] theorem State.auditHub_rslots (ev i j c v : Nat) : (s.auditHub ev i j c v).rslots = s.rslots := by obtain ⟨_, _, h⟩ := s.auditHub_frame ev i j c v; rw [h]
@[simp] theorem State.auditHub_early (ev i j c v : Nat) : (s.auditHub ev i j c v).early = s.early := by obtain ⟨_, _, h⟩ := s.auditHub_frame ev i j c v; rw [h]
@[simp] theorem State.auditHub_chunkRecs (ev i j c v : Nat) : (s.auditHub ev i j c v).chunkRecs = s.chunkRecs := by obtain ⟨_, _, h⟩ := s.auditHub_frame ev i j c v; rw [h]
@[simp] theorem State.auditHub_parts (ev i j c v : Nat) : (s.auditHub ev i j c v).parts = s.parts := by obtain ⟨_, _, h⟩ := s.auditHub_frame ev i j c v; rw [h]
@[simp] theorem State.auditHub_ctxs (ev i j c v : Nat) : (s.auditHub ev i j c v).ctxs = s.ctxs := by obtain ⟨_, _, h⟩ := s.auditHub_frame ev i j c v; rw [h]
@[simp] theorem State.auditHub_queues (ev i j c v : Nat) : (s.auditHub ev i j c v).queues = s.queues := by obtain ⟨_, _, h⟩ := s.auditHub_frame ev i j c v; rw [h]
@[simp] theorem State.auditHub_cmds (ev i j c v : Nat) : (s.auditHub ev i j c v).cmds = s.cmds := by obtain ⟨_, _, h⟩ := s.auditHub_frame ev i j c v; rw [h]
@[simp] theorem State.auditHub_cmdNext (ev i j c v : Nat) : (s.auditHub ev i j c v).cmdNext = s.cmdNext := by obtain ⟨_, _, h⟩ := s.auditHub_frame ev i j c v; rw [h]
@[simp] theorem State.auditHub_objs (ev i j c v : Nat) : (s.auditHub ev i j c v).objs = s.objs := by obtain ⟨_, _, h⟩ := s.auditHub_frame ev i j c v; rw [h]
@[simp] theorem State.auditHub_objLive (ev i j c v : Nat) : (s.auditHub ev i j c v).objLive = s.objLive := by obtain ⟨_, _, h⟩ := s.auditHub_frame ev i j c v; rw [h]
@[simp] theorem State.auditHub_watch (ev i j c v : Nat) : (s.auditHub ev i j c v).watch = s.watch := by obtain ⟨_, _, h⟩ := s.auditHub_frame ev i j c v; rw [h]
@[simp] theorem State.auditHub_trans (ev i j c v : Nat) : (s.auditHub ev i j c v).trans = s.trans := by obtain ⟨_, _, h⟩ := s.auditHub_frame ev i j c v; rw [h]
@[simp] theorem State.auditHub_tlb1 (ev i j c v : Nat) : (s.auditHub ev i j c v).tlb1 = s.tlb1 := by obtain ⟨_, _, h⟩ := s.auditHub_frame ev i j c v; rw [h]
@[simp] theorem State.auditHub_tlb2 (ev i j c v : Nat) : (s.auditHub ev i j c v).tlb2 = s.tlb2 := by obtain ⟨_, _, h⟩ := s.auditHub_frame ev i j c v; rw [h]
@[simp] theorem State.auditHub_walks (ev i j c v : Nat) : (s.auditHub ev i j c v).walks = s.walks := by obtain ⟨_, _, h⟩ := s.auditHub_frame ev i j c v; rw [h]
@[simp] theorem State.auditHub_walkTurn (ev i j c v : Nat) : (s.auditHub ev i j c v).walkTurn = s.walkTurn := by obtain ⟨_, _, h⟩ := s.auditHub_frame ev i j c v; rw [h]
@[simp] theorem State.auditHub_clock (ev i j c v : Nat) : (s.auditHub ev i j c v).clock = s.clock := by obtain ⟨_, _, h⟩ := s.auditHub_frame ev i j c v; rw [h]
@[simp] theorem State.auditHub_mapJob (ev i j c v : Nat) : (s.auditHub ev i j c v).mapJob = s.mapJob := by obtain ⟨_, _, h⟩ := s.auditHub_frame ev i j c v; rw [h]
@[simp] theorem State.auditHub_auOwner (ev i j c v : Nat) : (s.auditHub ev i j c v).auOwner = s.auOwner := by obtain ⟨_, _, h⟩ := s.auditHub_frame ev i j c v; rw [h]
@[simp] theorem State.auditHub_auQueue (ev i j c v : Nat) : (s.auditHub ev i j c v).auQueue = s.auQueue := by obtain ⟨_, _, h⟩ := s.auditHub_frame ev i j c v; rw [h]
@[simp] theorem State.auditHub_auLastCtx (ev i j c v : Nat) : (s.auditHub ev i j c v).auLastCtx = s.auLastCtx := by obtain ⟨_, _, h⟩ := s.auditHub_frame ev i j c v; rw [h]
@[simp] theorem State.auditHub_samplerPart (ev i j c v : Nat) : (s.auditHub ev i j c v).samplerPart = s.samplerPart := by obtain ⟨_, _, h⟩ := s.auditHub_frame ev i j c v; rw [h]
@[simp] theorem State.auditHub_samplerFifo (ev i j c v : Nat) : (s.auditHub ev i j c v).samplerFifo = s.samplerFifo := by obtain ⟨_, _, h⟩ := s.auditHub_frame ev i j c v; rw [h]
@[simp] theorem State.auditHub_samplerTurn (ev i j c v : Nat) : (s.auditHub ev i j c v).samplerTurn = s.samplerTurn := by obtain ⟨_, _, h⟩ := s.auditHub_frame ev i j c v; rw [h]
@[simp] theorem State.auditHub_samplerCmd (ev i j c v : Nat) : (s.auditHub ev i j c v).samplerCmd = s.samplerCmd := by obtain ⟨_, _, h⟩ := s.auditHub_frame ev i j c v; rw [h]
@[simp] theorem State.auditHub_samplers (ev i j c v : Nat) : (s.auditHub ev i j c v).samplers = s.samplers := by obtain ⟨_, _, h⟩ := s.auditHub_frame ev i j c v; rw [h]
@[simp] theorem State.auditHub_lanesTurn (ev i j c v : Nat) : (s.auditHub ev i j c v).lanesTurn = s.lanesTurn := by obtain ⟨_, _, h⟩ := s.auditHub_frame ev i j c v; rw [h]

/-! ## answer -/

theorem State.answer_frame (m : Mgmt) (i j a : Nat) (d : Bytes) : ∃ x0 x1, s.answer m i j a d = { s with ctr := x0, out := x1 } := by
  exact ⟨_, _, rfl⟩

@[simp] theorem State.answer_cfg (m : Mgmt) (i j a : Nat) (d : Bytes) : (s.answer m i j a d).cfg = s.cfg := by obtain ⟨_, _, h⟩ := s.answer_frame m i j a d; rw [h]
@[simp] theorem State.answer_pending (m : Mgmt) (i j a : Nat) (d : Bytes) : (s.answer m i j a d).pending = s.pending := by obtain ⟨_, _, h⟩ := s.answer_frame m i j a d; rw [h]
@[simp] theorem State.answer_due (m : Mgmt) (i j a : Nat) (d : Bytes) : (s.answer m i j a d).due = s.due := by obtain ⟨_, _, h⟩ := s.answer_frame m i j a d; rw [h]
@[simp] theorem State.answer_freeCount (m : Mgmt) (i j a : Nat) (d : Bytes) : (s.answer m i j a d).freeCount = s.freeCount := by obtain ⟨_, _, h⟩ := s.answer_frame m i j a d; rw [h]
@[simp] theorem State.answer_loc (m : Mgmt) (i j a : Nat) (d : Bytes) : (s.answer m i j a d).loc = s.loc := by obtain ⟨_, _, h⟩ := s.answer_frame m i j a d; rw [h]
@[simp] theorem State.answer_settings (m : Mgmt) (i j a : Nat) (d : Bytes) : (s.answer m i j a d).settings = s.settings := by obtain ⟨_, _, h⟩ := s.answer_frame m i j a d; rw [h]
@[simp] theorem State.answer_fuses (m : Mgmt) (i j a : Nat) (d : Bytes) : (s.answer m i j a d).fuses = s.fuses := by obtain ⟨_, _, h⟩ := s.answer_frame m i j a d; rw [h]
@[simp] theorem State.answer_bring (m : Mgmt) (i j a : Nat) (d : Bytes) : (s.answer m i j a d).bring = s.bring := by obtain ⟨_, _, h⟩ := s.answer_frame m i j a d; rw [h]
@[simp] theorem State.answer_power (m : Mgmt) (i j a : Nat) (d : Bytes) : (s.answer m i j a d).power = s.power := by obtain ⟨_, _, h⟩ := s.answer_frame m i j a d; rw [h]
@[simp] theorem State.answer_agent (m : Mgmt) (i j a : Nat) (d : Bytes) : (s.answer m i j a d).agent = s.agent := by obtain ⟨_, _, h⟩ := s.answer_frame m i j a d; rw [h]
@[simp] theorem State.answer_fw (m : Mgmt) (i j a : Nat) (d : Bytes) : (s.answer m i j a d).fw = s.fw := by obtain ⟨_, _, h⟩ := s.answer_frame m i j a d; rw [h]
@[simp] theorem State.answer_life (m : Mgmt) (i j a : Nat) (d : Bytes) : (s.answer m i j a d).life = s.life := by obtain ⟨_, _, h⟩ := s.answer_frame m i j a d; rw [h]
@[simp] theorem State.answer_alarms (m : Mgmt) (i j a : Nat) (d : Bytes) : (s.answer m i j a d).alarms = s.alarms := by obtain ⟨_, _, h⟩ := s.answer_frame m i j a d; rw [h]
@[simp] theorem State.answer_faults (m : Mgmt) (i j a : Nat) (d : Bytes) : (s.answer m i j a d).faults = s.faults := by obtain ⟨_, _, h⟩ := s.answer_frame m i j a d; rw [h]
@[simp] theorem State.answer_records (m : Mgmt) (i j a : Nat) (d : Bytes) : (s.answer m i j a d).records = s.records := by obtain ⟨_, _, h⟩ := s.answer_frame m i j a d; rw [h]
@[simp] theorem State.answer_keys (m : Mgmt) (i j a : Nat) (d : Bytes) : (s.answer m i j a d).keys = s.keys := by obtain ⟨_, _, h⟩ := s.answer_frame m i j a d; rw [h]
@[simp] theorem State.answer_gce (m : Mgmt) (i j a : Nat) (d : Bytes) : (s.answer m i j a d).gce = s.gce := by obtain ⟨_, _, h⟩ := s.answer_frame m i j a d; rw [h]
@[simp] theorem State.answer_random (m : Mgmt) (i j a : Nat) (d : Bytes) : (s.answer m i j a d).random = s.random := by obtain ⟨_, _, h⟩ := s.answer_frame m i j a d; rw [h]
@[simp] theorem State.answer_mem (m : Mgmt) (i j a : Nat) (d : Bytes) : (s.answer m i j a d).mem = s.mem := by obtain ⟨_, _, h⟩ := s.answer_frame m i j a d; rw [h]
@[simp] theorem State.answer_links (m : Mgmt) (i j a : Nat) (d : Bytes) : (s.answer m i j a d).links = s.links := by obtain ⟨_, _, h⟩ := s.answer_frame m i j a d; rw [h]
@[simp] theorem State.answer_chips (m : Mgmt) (i j a : Nat) (d : Bytes) : (s.answer m i j a d).chips = s.chips := by obtain ⟨_, _, h⟩ := s.answer_frame m i j a d; rw [h]
@[simp] theorem State.answer_hosts (m : Mgmt) (i j a : Nat) (d : Bytes) : (s.answer m i j a d).hosts = s.hosts := by obtain ⟨_, _, h⟩ := s.answer_frame m i j a d; rw [h]
@[simp] theorem State.answer_slots (m : Mgmt) (i j a : Nat) (d : Bytes) : (s.answer m i j a d).slots = s.slots := by obtain ⟨_, _, h⟩ := s.answer_frame m i j a d; rw [h]
@[simp] theorem State.answer_tdis (m : Mgmt) (i j a : Nat) (d : Bytes) : (s.answer m i j a d).tdis = s.tdis := by obtain ⟨_, _, h⟩ := s.answer_frame m i j a d; rw [h]
@[simp] theorem State.answer_stagingRoutes (m : Mgmt) (i j a : Nat) (d : Bytes) : (s.answer m i j a d).stagingRoutes = s.stagingRoutes := by obtain ⟨_, _, h⟩ := s.answer_frame m i j a d; rw [h]
@[simp] theorem State.answer_liveRoutes (m : Mgmt) (i j a : Nat) (d : Bytes) : (s.answer m i j a d).liveRoutes = s.liveRoutes := by obtain ⟨_, _, h⟩ := s.answer_frame m i j a d; rw [h]
@[simp] theorem State.answer_routeHold (m : Mgmt) (i j a : Nat) (d : Bytes) : (s.answer m i j a d).routeHold = s.routeHold := by obtain ⟨_, _, h⟩ := s.answer_frame m i j a d; rw [h]
@[simp] theorem State.answer_routeHeld (m : Mgmt) (i j a : Nat) (d : Bytes) : (s.answer m i j a d).routeHeld = s.routeHeld := by obtain ⟨_, _, h⟩ := s.answer_frame m i j a d; rw [h]
@[simp] theorem State.answer_otags (m : Mgmt) (i j a : Nat) (d : Bytes) : (s.answer m i j a d).otags = s.otags := by obtain ⟨_, _, h⟩ := s.answer_frame m i j a d; rw [h]
@[simp] theorem State.answer_otagNext (m : Mgmt) (i j a : Nat) (d : Bytes) : (s.answer m i j a d).otagNext = s.otagNext := by obtain ⟨_, _, h⟩ := s.answer_frame m i j a d; rw [h]
@[simp] theorem State.answer_heldOps (m : Mgmt) (i j a : Nat) (d : Bytes) : (s.answer m i j a d).heldOps = s.heldOps := by obtain ⟨_, _, h⟩ := s.answer_frame m i j a d; rw [h]
@[simp] theorem State.answer_rcache (m : Mgmt) (i j a : Nat) (d : Bytes) : (s.answer m i j a d).rcache = s.rcache := by obtain ⟨_, _, h⟩ := s.answer_frame m i j a d; rw [h]
@[simp] theorem State.answer_comb (m : Mgmt) (i j a : Nat) (d : Bytes) : (s.answer m i j a d).comb = s.comb := by obtain ⟨_, _, h⟩ := s.answer_frame m i j a d; rw [h]
@[simp] theorem State.answer_rslots (m : Mgmt) (i j a : Nat) (d : Bytes) : (s.answer m i j a d).rslots = s.rslots := by obtain ⟨_, _, h⟩ := s.answer_frame m i j a d; rw [h]
@[simp] theorem State.answer_early (m : Mgmt) (i j a : Nat) (d : Bytes) : (s.answer m i j a d).early = s.early := by obtain ⟨_, _, h⟩ := s.answer_frame m i j a d; rw [h]
@[simp] theorem State.answer_chunkRecs (m : Mgmt) (i j a : Nat) (d : Bytes) : (s.answer m i j a d).chunkRecs = s.chunkRecs := by obtain ⟨_, _, h⟩ := s.answer_frame m i j a d; rw [h]
@[simp] theorem State.answer_parts (m : Mgmt) (i j a : Nat) (d : Bytes) : (s.answer m i j a d).parts = s.parts := by obtain ⟨_, _, h⟩ := s.answer_frame m i j a d; rw [h]
@[simp] theorem State.answer_ctxs (m : Mgmt) (i j a : Nat) (d : Bytes) : (s.answer m i j a d).ctxs = s.ctxs := by obtain ⟨_, _, h⟩ := s.answer_frame m i j a d; rw [h]
@[simp] theorem State.answer_queues (m : Mgmt) (i j a : Nat) (d : Bytes) : (s.answer m i j a d).queues = s.queues := by obtain ⟨_, _, h⟩ := s.answer_frame m i j a d; rw [h]
@[simp] theorem State.answer_cmds (m : Mgmt) (i j a : Nat) (d : Bytes) : (s.answer m i j a d).cmds = s.cmds := by obtain ⟨_, _, h⟩ := s.answer_frame m i j a d; rw [h]
@[simp] theorem State.answer_cmdNext (m : Mgmt) (i j a : Nat) (d : Bytes) : (s.answer m i j a d).cmdNext = s.cmdNext := by obtain ⟨_, _, h⟩ := s.answer_frame m i j a d; rw [h]
@[simp] theorem State.answer_objs (m : Mgmt) (i j a : Nat) (d : Bytes) : (s.answer m i j a d).objs = s.objs := by obtain ⟨_, _, h⟩ := s.answer_frame m i j a d; rw [h]
@[simp] theorem State.answer_objLive (m : Mgmt) (i j a : Nat) (d : Bytes) : (s.answer m i j a d).objLive = s.objLive := by obtain ⟨_, _, h⟩ := s.answer_frame m i j a d; rw [h]
@[simp] theorem State.answer_watch (m : Mgmt) (i j a : Nat) (d : Bytes) : (s.answer m i j a d).watch = s.watch := by obtain ⟨_, _, h⟩ := s.answer_frame m i j a d; rw [h]
@[simp] theorem State.answer_trans (m : Mgmt) (i j a : Nat) (d : Bytes) : (s.answer m i j a d).trans = s.trans := by obtain ⟨_, _, h⟩ := s.answer_frame m i j a d; rw [h]
@[simp] theorem State.answer_tlb1 (m : Mgmt) (i j a : Nat) (d : Bytes) : (s.answer m i j a d).tlb1 = s.tlb1 := by obtain ⟨_, _, h⟩ := s.answer_frame m i j a d; rw [h]
@[simp] theorem State.answer_tlb2 (m : Mgmt) (i j a : Nat) (d : Bytes) : (s.answer m i j a d).tlb2 = s.tlb2 := by obtain ⟨_, _, h⟩ := s.answer_frame m i j a d; rw [h]
@[simp] theorem State.answer_walks (m : Mgmt) (i j a : Nat) (d : Bytes) : (s.answer m i j a d).walks = s.walks := by obtain ⟨_, _, h⟩ := s.answer_frame m i j a d; rw [h]
@[simp] theorem State.answer_walkTurn (m : Mgmt) (i j a : Nat) (d : Bytes) : (s.answer m i j a d).walkTurn = s.walkTurn := by obtain ⟨_, _, h⟩ := s.answer_frame m i j a d; rw [h]
@[simp] theorem State.answer_clock (m : Mgmt) (i j a : Nat) (d : Bytes) : (s.answer m i j a d).clock = s.clock := by obtain ⟨_, _, h⟩ := s.answer_frame m i j a d; rw [h]
@[simp] theorem State.answer_mapJob (m : Mgmt) (i j a : Nat) (d : Bytes) : (s.answer m i j a d).mapJob = s.mapJob := by obtain ⟨_, _, h⟩ := s.answer_frame m i j a d; rw [h]
@[simp] theorem State.answer_auOwner (m : Mgmt) (i j a : Nat) (d : Bytes) : (s.answer m i j a d).auOwner = s.auOwner := by obtain ⟨_, _, h⟩ := s.answer_frame m i j a d; rw [h]
@[simp] theorem State.answer_auQueue (m : Mgmt) (i j a : Nat) (d : Bytes) : (s.answer m i j a d).auQueue = s.auQueue := by obtain ⟨_, _, h⟩ := s.answer_frame m i j a d; rw [h]
@[simp] theorem State.answer_auLastCtx (m : Mgmt) (i j a : Nat) (d : Bytes) : (s.answer m i j a d).auLastCtx = s.auLastCtx := by obtain ⟨_, _, h⟩ := s.answer_frame m i j a d; rw [h]
@[simp] theorem State.answer_samplerPart (m : Mgmt) (i j a : Nat) (d : Bytes) : (s.answer m i j a d).samplerPart = s.samplerPart := by obtain ⟨_, _, h⟩ := s.answer_frame m i j a d; rw [h]
@[simp] theorem State.answer_samplerFifo (m : Mgmt) (i j a : Nat) (d : Bytes) : (s.answer m i j a d).samplerFifo = s.samplerFifo := by obtain ⟨_, _, h⟩ := s.answer_frame m i j a d; rw [h]
@[simp] theorem State.answer_samplerTurn (m : Mgmt) (i j a : Nat) (d : Bytes) : (s.answer m i j a d).samplerTurn = s.samplerTurn := by obtain ⟨_, _, h⟩ := s.answer_frame m i j a d; rw [h]
@[simp] theorem State.answer_samplerCmd (m : Mgmt) (i j a : Nat) (d : Bytes) : (s.answer m i j a d).samplerCmd = s.samplerCmd := by obtain ⟨_, _, h⟩ := s.answer_frame m i j a d; rw [h]
@[simp] theorem State.answer_samplers (m : Mgmt) (i j a : Nat) (d : Bytes) : (s.answer m i j a d).samplers = s.samplers := by obtain ⟨_, _, h⟩ := s.answer_frame m i j a d; rw [h]
@[simp] theorem State.answer_lanesTurn (m : Mgmt) (i j a : Nat) (d : Bytes) : (s.answer m i j a d).lanesTurn = s.lanesTurn := by obtain ⟨_, _, h⟩ := s.answer_frame m i j a d; rw [h]

/-! ## endWrite -/

theorem State.endWrite_frame (m : Mgmt) (i j : Nat) (v : Bytes) (r : Role) (key a : Nat) : ∃ x0 x1 x2, s.endWrite m i j v r key a = { s with agent := x0, ctr := x1, out := x2 } := by
  unfold State.endWrite
  have hx : ∀ t : State, (∃ x0 x1, t = { s with agent := x0, ctr := x1 }) →
      ∃ x0 x1 x2, t.answer m i j a [] = { s with agent := x0, ctr := x1, out := x2 } := by
    rintro t ⟨g, c, rfl⟩
    exact ⟨_, _, _, rfl⟩
  exact hx _ (pred_ite (P := fun t => ∃ x0 x1, t = { s with agent := x0, ctr := x1 })
    (s.audit_frame (if a = 0 then 1 else 2) (roleNum r) (sessionNum m) i j a (auditValue v) key) ⟨_, _, rfl⟩)

@[simp] theorem State.endWrite_cfg (m : Mgmt) (i j : Nat) (v : Bytes) (r : Role) (key a : Nat) : (s.endWrite m i j v r key a).cfg = s.cfg := by obtain ⟨_, _, _, h⟩ := s.endWrite_frame m i j v r key a; rw [h]
@[simp] theorem State.endWrite_pending (m : Mgmt) (i j : Nat) (v : Bytes) (r : Role) (key a : Nat) : (s.endWrite m i j v r key a).pending = s.pending := by obtain ⟨_, _, _, h⟩ := s.endWrite_frame m i j v r key a; rw [h]
@[simp] theorem State.endWrite_due (m : Mgmt) (i j : Nat) (v : Bytes) (r : Role) (key a : Nat) : (s.endWrite m i j v r key a).due = s.due := by obtain ⟨_, _, _, h⟩ := s.endWrite_frame m i j v r key a; rw [h]
@[simp] theorem State.endWrite_freeCount (m : Mgmt) (i j : Nat) (v : Bytes) (r : Role) (key a : Nat) : (s.endWrite m i j v r key a).freeCount = s.freeCount := by obtain ⟨_, _, _, h⟩ := s.endWrite_frame m i j v r key a; rw [h]
@[simp] theorem State.endWrite_loc (m : Mgmt) (i j : Nat) (v : Bytes) (r : Role) (key a : Nat) : (s.endWrite m i j v r key a).loc = s.loc := by obtain ⟨_, _, _, h⟩ := s.endWrite_frame m i j v r key a; rw [h]
@[simp] theorem State.endWrite_settings (m : Mgmt) (i j : Nat) (v : Bytes) (r : Role) (key a : Nat) : (s.endWrite m i j v r key a).settings = s.settings := by obtain ⟨_, _, _, h⟩ := s.endWrite_frame m i j v r key a; rw [h]
@[simp] theorem State.endWrite_fuses (m : Mgmt) (i j : Nat) (v : Bytes) (r : Role) (key a : Nat) : (s.endWrite m i j v r key a).fuses = s.fuses := by obtain ⟨_, _, _, h⟩ := s.endWrite_frame m i j v r key a; rw [h]
@[simp] theorem State.endWrite_bring (m : Mgmt) (i j : Nat) (v : Bytes) (r : Role) (key a : Nat) : (s.endWrite m i j v r key a).bring = s.bring := by obtain ⟨_, _, _, h⟩ := s.endWrite_frame m i j v r key a; rw [h]
@[simp] theorem State.endWrite_power (m : Mgmt) (i j : Nat) (v : Bytes) (r : Role) (key a : Nat) : (s.endWrite m i j v r key a).power = s.power := by obtain ⟨_, _, _, h⟩ := s.endWrite_frame m i j v r key a; rw [h]
@[simp] theorem State.endWrite_fw (m : Mgmt) (i j : Nat) (v : Bytes) (r : Role) (key a : Nat) : (s.endWrite m i j v r key a).fw = s.fw := by obtain ⟨_, _, _, h⟩ := s.endWrite_frame m i j v r key a; rw [h]
@[simp] theorem State.endWrite_life (m : Mgmt) (i j : Nat) (v : Bytes) (r : Role) (key a : Nat) : (s.endWrite m i j v r key a).life = s.life := by obtain ⟨_, _, _, h⟩ := s.endWrite_frame m i j v r key a; rw [h]
@[simp] theorem State.endWrite_alarms (m : Mgmt) (i j : Nat) (v : Bytes) (r : Role) (key a : Nat) : (s.endWrite m i j v r key a).alarms = s.alarms := by obtain ⟨_, _, _, h⟩ := s.endWrite_frame m i j v r key a; rw [h]
@[simp] theorem State.endWrite_faults (m : Mgmt) (i j : Nat) (v : Bytes) (r : Role) (key a : Nat) : (s.endWrite m i j v r key a).faults = s.faults := by obtain ⟨_, _, _, h⟩ := s.endWrite_frame m i j v r key a; rw [h]
@[simp] theorem State.endWrite_records (m : Mgmt) (i j : Nat) (v : Bytes) (r : Role) (key a : Nat) : (s.endWrite m i j v r key a).records = s.records := by obtain ⟨_, _, _, h⟩ := s.endWrite_frame m i j v r key a; rw [h]
@[simp] theorem State.endWrite_keys (m : Mgmt) (i j : Nat) (v : Bytes) (r : Role) (key a : Nat) : (s.endWrite m i j v r key a).keys = s.keys := by obtain ⟨_, _, _, h⟩ := s.endWrite_frame m i j v r key a; rw [h]
@[simp] theorem State.endWrite_gce (m : Mgmt) (i j : Nat) (v : Bytes) (r : Role) (key a : Nat) : (s.endWrite m i j v r key a).gce = s.gce := by obtain ⟨_, _, _, h⟩ := s.endWrite_frame m i j v r key a; rw [h]
@[simp] theorem State.endWrite_random (m : Mgmt) (i j : Nat) (v : Bytes) (r : Role) (key a : Nat) : (s.endWrite m i j v r key a).random = s.random := by obtain ⟨_, _, _, h⟩ := s.endWrite_frame m i j v r key a; rw [h]
@[simp] theorem State.endWrite_mem (m : Mgmt) (i j : Nat) (v : Bytes) (r : Role) (key a : Nat) : (s.endWrite m i j v r key a).mem = s.mem := by obtain ⟨_, _, _, h⟩ := s.endWrite_frame m i j v r key a; rw [h]
@[simp] theorem State.endWrite_links (m : Mgmt) (i j : Nat) (v : Bytes) (r : Role) (key a : Nat) : (s.endWrite m i j v r key a).links = s.links := by obtain ⟨_, _, _, h⟩ := s.endWrite_frame m i j v r key a; rw [h]
@[simp] theorem State.endWrite_chips (m : Mgmt) (i j : Nat) (v : Bytes) (r : Role) (key a : Nat) : (s.endWrite m i j v r key a).chips = s.chips := by obtain ⟨_, _, _, h⟩ := s.endWrite_frame m i j v r key a; rw [h]
@[simp] theorem State.endWrite_hosts (m : Mgmt) (i j : Nat) (v : Bytes) (r : Role) (key a : Nat) : (s.endWrite m i j v r key a).hosts = s.hosts := by obtain ⟨_, _, _, h⟩ := s.endWrite_frame m i j v r key a; rw [h]
@[simp] theorem State.endWrite_slots (m : Mgmt) (i j : Nat) (v : Bytes) (r : Role) (key a : Nat) : (s.endWrite m i j v r key a).slots = s.slots := by obtain ⟨_, _, _, h⟩ := s.endWrite_frame m i j v r key a; rw [h]
@[simp] theorem State.endWrite_tdis (m : Mgmt) (i j : Nat) (v : Bytes) (r : Role) (key a : Nat) : (s.endWrite m i j v r key a).tdis = s.tdis := by obtain ⟨_, _, _, h⟩ := s.endWrite_frame m i j v r key a; rw [h]
@[simp] theorem State.endWrite_stagingRoutes (m : Mgmt) (i j : Nat) (v : Bytes) (r : Role) (key a : Nat) : (s.endWrite m i j v r key a).stagingRoutes = s.stagingRoutes := by obtain ⟨_, _, _, h⟩ := s.endWrite_frame m i j v r key a; rw [h]
@[simp] theorem State.endWrite_liveRoutes (m : Mgmt) (i j : Nat) (v : Bytes) (r : Role) (key a : Nat) : (s.endWrite m i j v r key a).liveRoutes = s.liveRoutes := by obtain ⟨_, _, _, h⟩ := s.endWrite_frame m i j v r key a; rw [h]
@[simp] theorem State.endWrite_routeHold (m : Mgmt) (i j : Nat) (v : Bytes) (r : Role) (key a : Nat) : (s.endWrite m i j v r key a).routeHold = s.routeHold := by obtain ⟨_, _, _, h⟩ := s.endWrite_frame m i j v r key a; rw [h]
@[simp] theorem State.endWrite_routeHeld (m : Mgmt) (i j : Nat) (v : Bytes) (r : Role) (key a : Nat) : (s.endWrite m i j v r key a).routeHeld = s.routeHeld := by obtain ⟨_, _, _, h⟩ := s.endWrite_frame m i j v r key a; rw [h]
@[simp] theorem State.endWrite_otags (m : Mgmt) (i j : Nat) (v : Bytes) (r : Role) (key a : Nat) : (s.endWrite m i j v r key a).otags = s.otags := by obtain ⟨_, _, _, h⟩ := s.endWrite_frame m i j v r key a; rw [h]
@[simp] theorem State.endWrite_otagNext (m : Mgmt) (i j : Nat) (v : Bytes) (r : Role) (key a : Nat) : (s.endWrite m i j v r key a).otagNext = s.otagNext := by obtain ⟨_, _, _, h⟩ := s.endWrite_frame m i j v r key a; rw [h]
@[simp] theorem State.endWrite_heldOps (m : Mgmt) (i j : Nat) (v : Bytes) (r : Role) (key a : Nat) : (s.endWrite m i j v r key a).heldOps = s.heldOps := by obtain ⟨_, _, _, h⟩ := s.endWrite_frame m i j v r key a; rw [h]
@[simp] theorem State.endWrite_rcache (m : Mgmt) (i j : Nat) (v : Bytes) (r : Role) (key a : Nat) : (s.endWrite m i j v r key a).rcache = s.rcache := by obtain ⟨_, _, _, h⟩ := s.endWrite_frame m i j v r key a; rw [h]
@[simp] theorem State.endWrite_comb (m : Mgmt) (i j : Nat) (v : Bytes) (r : Role) (key a : Nat) : (s.endWrite m i j v r key a).comb = s.comb := by obtain ⟨_, _, _, h⟩ := s.endWrite_frame m i j v r key a; rw [h]
@[simp] theorem State.endWrite_rslots (m : Mgmt) (i j : Nat) (v : Bytes) (r : Role) (key a : Nat) : (s.endWrite m i j v r key a).rslots = s.rslots := by obtain ⟨_, _, _, h⟩ := s.endWrite_frame m i j v r key a; rw [h]
@[simp] theorem State.endWrite_early (m : Mgmt) (i j : Nat) (v : Bytes) (r : Role) (key a : Nat) : (s.endWrite m i j v r key a).early = s.early := by obtain ⟨_, _, _, h⟩ := s.endWrite_frame m i j v r key a; rw [h]
@[simp] theorem State.endWrite_chunkRecs (m : Mgmt) (i j : Nat) (v : Bytes) (r : Role) (key a : Nat) : (s.endWrite m i j v r key a).chunkRecs = s.chunkRecs := by obtain ⟨_, _, _, h⟩ := s.endWrite_frame m i j v r key a; rw [h]
@[simp] theorem State.endWrite_parts (m : Mgmt) (i j : Nat) (v : Bytes) (r : Role) (key a : Nat) : (s.endWrite m i j v r key a).parts = s.parts := by obtain ⟨_, _, _, h⟩ := s.endWrite_frame m i j v r key a; rw [h]
@[simp] theorem State.endWrite_ctxs (m : Mgmt) (i j : Nat) (v : Bytes) (r : Role) (key a : Nat) : (s.endWrite m i j v r key a).ctxs = s.ctxs := by obtain ⟨_, _, _, h⟩ := s.endWrite_frame m i j v r key a; rw [h]
@[simp] theorem State.endWrite_queues (m : Mgmt) (i j : Nat) (v : Bytes) (r : Role) (key a : Nat) : (s.endWrite m i j v r key a).queues = s.queues := by obtain ⟨_, _, _, h⟩ := s.endWrite_frame m i j v r key a; rw [h]
@[simp] theorem State.endWrite_cmds (m : Mgmt) (i j : Nat) (v : Bytes) (r : Role) (key a : Nat) : (s.endWrite m i j v r key a).cmds = s.cmds := by obtain ⟨_, _, _, h⟩ := s.endWrite_frame m i j v r key a; rw [h]
@[simp] theorem State.endWrite_cmdNext (m : Mgmt) (i j : Nat) (v : Bytes) (r : Role) (key a : Nat) : (s.endWrite m i j v r key a).cmdNext = s.cmdNext := by obtain ⟨_, _, _, h⟩ := s.endWrite_frame m i j v r key a; rw [h]
@[simp] theorem State.endWrite_objs (m : Mgmt) (i j : Nat) (v : Bytes) (r : Role) (key a : Nat) : (s.endWrite m i j v r key a).objs = s.objs := by obtain ⟨_, _, _, h⟩ := s.endWrite_frame m i j v r key a; rw [h]
@[simp] theorem State.endWrite_objLive (m : Mgmt) (i j : Nat) (v : Bytes) (r : Role) (key a : Nat) : (s.endWrite m i j v r key a).objLive = s.objLive := by obtain ⟨_, _, _, h⟩ := s.endWrite_frame m i j v r key a; rw [h]
@[simp] theorem State.endWrite_watch (m : Mgmt) (i j : Nat) (v : Bytes) (r : Role) (key a : Nat) : (s.endWrite m i j v r key a).watch = s.watch := by obtain ⟨_, _, _, h⟩ := s.endWrite_frame m i j v r key a; rw [h]
@[simp] theorem State.endWrite_trans (m : Mgmt) (i j : Nat) (v : Bytes) (r : Role) (key a : Nat) : (s.endWrite m i j v r key a).trans = s.trans := by obtain ⟨_, _, _, h⟩ := s.endWrite_frame m i j v r key a; rw [h]
@[simp] theorem State.endWrite_tlb1 (m : Mgmt) (i j : Nat) (v : Bytes) (r : Role) (key a : Nat) : (s.endWrite m i j v r key a).tlb1 = s.tlb1 := by obtain ⟨_, _, _, h⟩ := s.endWrite_frame m i j v r key a; rw [h]
@[simp] theorem State.endWrite_tlb2 (m : Mgmt) (i j : Nat) (v : Bytes) (r : Role) (key a : Nat) : (s.endWrite m i j v r key a).tlb2 = s.tlb2 := by obtain ⟨_, _, _, h⟩ := s.endWrite_frame m i j v r key a; rw [h]
@[simp] theorem State.endWrite_walks (m : Mgmt) (i j : Nat) (v : Bytes) (r : Role) (key a : Nat) : (s.endWrite m i j v r key a).walks = s.walks := by obtain ⟨_, _, _, h⟩ := s.endWrite_frame m i j v r key a; rw [h]
@[simp] theorem State.endWrite_walkTurn (m : Mgmt) (i j : Nat) (v : Bytes) (r : Role) (key a : Nat) : (s.endWrite m i j v r key a).walkTurn = s.walkTurn := by obtain ⟨_, _, _, h⟩ := s.endWrite_frame m i j v r key a; rw [h]
@[simp] theorem State.endWrite_clock (m : Mgmt) (i j : Nat) (v : Bytes) (r : Role) (key a : Nat) : (s.endWrite m i j v r key a).clock = s.clock := by obtain ⟨_, _, _, h⟩ := s.endWrite_frame m i j v r key a; rw [h]
@[simp] theorem State.endWrite_mapJob (m : Mgmt) (i j : Nat) (v : Bytes) (r : Role) (key a : Nat) : (s.endWrite m i j v r key a).mapJob = s.mapJob := by obtain ⟨_, _, _, h⟩ := s.endWrite_frame m i j v r key a; rw [h]
@[simp] theorem State.endWrite_auOwner (m : Mgmt) (i j : Nat) (v : Bytes) (r : Role) (key a : Nat) : (s.endWrite m i j v r key a).auOwner = s.auOwner := by obtain ⟨_, _, _, h⟩ := s.endWrite_frame m i j v r key a; rw [h]
@[simp] theorem State.endWrite_auQueue (m : Mgmt) (i j : Nat) (v : Bytes) (r : Role) (key a : Nat) : (s.endWrite m i j v r key a).auQueue = s.auQueue := by obtain ⟨_, _, _, h⟩ := s.endWrite_frame m i j v r key a; rw [h]
@[simp] theorem State.endWrite_auLastCtx (m : Mgmt) (i j : Nat) (v : Bytes) (r : Role) (key a : Nat) : (s.endWrite m i j v r key a).auLastCtx = s.auLastCtx := by obtain ⟨_, _, _, h⟩ := s.endWrite_frame m i j v r key a; rw [h]
@[simp] theorem State.endWrite_samplerPart (m : Mgmt) (i j : Nat) (v : Bytes) (r : Role) (key a : Nat) : (s.endWrite m i j v r key a).samplerPart = s.samplerPart := by obtain ⟨_, _, _, h⟩ := s.endWrite_frame m i j v r key a; rw [h]
@[simp] theorem State.endWrite_samplerFifo (m : Mgmt) (i j : Nat) (v : Bytes) (r : Role) (key a : Nat) : (s.endWrite m i j v r key a).samplerFifo = s.samplerFifo := by obtain ⟨_, _, _, h⟩ := s.endWrite_frame m i j v r key a; rw [h]
@[simp] theorem State.endWrite_samplerTurn (m : Mgmt) (i j : Nat) (v : Bytes) (r : Role) (key a : Nat) : (s.endWrite m i j v r key a).samplerTurn = s.samplerTurn := by obtain ⟨_, _, _, h⟩ := s.endWrite_frame m i j v r key a; rw [h]
@[simp] theorem State.endWrite_samplerCmd (m : Mgmt) (i j : Nat) (v : Bytes) (r : Role) (key a : Nat) : (s.endWrite m i j v r key a).samplerCmd = s.samplerCmd := by obtain ⟨_, _, _, h⟩ := s.endWrite_frame m i j v r key a; rw [h]
@[simp] theorem State.endWrite_samplers (m : Mgmt) (i j : Nat) (v : Bytes) (r : Role) (key a : Nat) : (s.endWrite m i j v r key a).samplers = s.samplers := by obtain ⟨_, _, _, h⟩ := s.endWrite_frame m i j v r key a; rw [h]
@[simp] theorem State.endWrite_lanesTurn (m : Mgmt) (i j : Nat) (v : Bytes) (r : Role) (key a : Nat) : (s.endWrite m i j v r key a).lanesTurn = s.lanesTurn := by obtain ⟨_, _, _, h⟩ := s.endWrite_frame m i j v r key a; rw [h]

/-! ## reply -/

theorem State.reply_frame (r : ReplyTo) (c : Code) (e : Nat) (d : Bytes) : ∃ x0, s.reply r c e d = { s with due := x0 } := by
  unfold State.reply
  split
  · exact ⟨_, rfl⟩
  · exact ⟨_, rfl⟩

@[simp] theorem State.reply_cfg (r : ReplyTo) (c : Code) (e : Nat) (d : Bytes) : (s.reply r c e d).cfg = s.cfg := by obtain ⟨_, h⟩ := s.reply_frame r c e d; rw [h]
@[simp] theorem State.reply_pending (r : ReplyTo) (c : Code) (e : Nat) (d : Bytes) : (s.reply r c e d).pending = s.pending := by obtain ⟨_, h⟩ := s.reply_frame r c e d; rw [h]
@[simp] theorem State.reply_out (r : ReplyTo) (c : Code) (e : Nat) (d : Bytes) : (s.reply r c e d).out = s.out := by obtain ⟨_, h⟩ := s.reply_frame r c e d; rw [h]
@[simp] theorem State.reply_freeCount (r : ReplyTo) (c : Code) (e : Nat) (d : Bytes) : (s.reply r c e d).freeCount = s.freeCount := by obtain ⟨_, h⟩ := s.reply_frame r c e d; rw [h]
@[simp] theorem State.reply_loc (r : ReplyTo) (c : Code) (e : Nat) (d : Bytes) : (s.reply r c e d).loc = s.loc := by obtain ⟨_, h⟩ := s.reply_frame r c e d; rw [h]
@[simp] theorem State.reply_ctr (r : ReplyTo) (c : Code) (e : Nat) (d : Bytes) : (s.reply r c e d).ctr = s.ctr := by obtain ⟨_, h⟩ := s.reply_frame r c e d; rw [h]
@[simp] theorem State.reply_settings (r : ReplyTo) (c : Code) (e : Nat) (d : Bytes) : (s.reply r c e d).settings = s.settings := by obtain ⟨_, h⟩ := s.reply_frame r c e d; rw [h]
@[simp] theorem State.reply_fuses (r : ReplyTo) (c : Code) (e : Nat) (d : Bytes) : (s.reply r c e d).fuses = s.fuses := by obtain ⟨_, h⟩ := s.reply_frame r c e d; rw [h]
@[simp] theorem State.reply_bring (r : ReplyTo) (c : Code) (e : Nat) (d : Bytes) : (s.reply r c e d).bring = s.bring := by obtain ⟨_, h⟩ := s.reply_frame r c e d; rw [h]
@[simp] theorem State.reply_power (r : ReplyTo) (c : Code) (e : Nat) (d : Bytes) : (s.reply r c e d).power = s.power := by obtain ⟨_, h⟩ := s.reply_frame r c e d; rw [h]
@[simp] theorem State.reply_agent (r : ReplyTo) (c : Code) (e : Nat) (d : Bytes) : (s.reply r c e d).agent = s.agent := by obtain ⟨_, h⟩ := s.reply_frame r c e d; rw [h]
@[simp] theorem State.reply_fw (r : ReplyTo) (c : Code) (e : Nat) (d : Bytes) : (s.reply r c e d).fw = s.fw := by obtain ⟨_, h⟩ := s.reply_frame r c e d; rw [h]
@[simp] theorem State.reply_life (r : ReplyTo) (c : Code) (e : Nat) (d : Bytes) : (s.reply r c e d).life = s.life := by obtain ⟨_, h⟩ := s.reply_frame r c e d; rw [h]
@[simp] theorem State.reply_alarms (r : ReplyTo) (c : Code) (e : Nat) (d : Bytes) : (s.reply r c e d).alarms = s.alarms := by obtain ⟨_, h⟩ := s.reply_frame r c e d; rw [h]
@[simp] theorem State.reply_faults (r : ReplyTo) (c : Code) (e : Nat) (d : Bytes) : (s.reply r c e d).faults = s.faults := by obtain ⟨_, h⟩ := s.reply_frame r c e d; rw [h]
@[simp] theorem State.reply_records (r : ReplyTo) (c : Code) (e : Nat) (d : Bytes) : (s.reply r c e d).records = s.records := by obtain ⟨_, h⟩ := s.reply_frame r c e d; rw [h]
@[simp] theorem State.reply_keys (r : ReplyTo) (c : Code) (e : Nat) (d : Bytes) : (s.reply r c e d).keys = s.keys := by obtain ⟨_, h⟩ := s.reply_frame r c e d; rw [h]
@[simp] theorem State.reply_gce (r : ReplyTo) (c : Code) (e : Nat) (d : Bytes) : (s.reply r c e d).gce = s.gce := by obtain ⟨_, h⟩ := s.reply_frame r c e d; rw [h]
@[simp] theorem State.reply_random (r : ReplyTo) (c : Code) (e : Nat) (d : Bytes) : (s.reply r c e d).random = s.random := by obtain ⟨_, h⟩ := s.reply_frame r c e d; rw [h]
@[simp] theorem State.reply_mem (r : ReplyTo) (c : Code) (e : Nat) (d : Bytes) : (s.reply r c e d).mem = s.mem := by obtain ⟨_, h⟩ := s.reply_frame r c e d; rw [h]
@[simp] theorem State.reply_links (r : ReplyTo) (c : Code) (e : Nat) (d : Bytes) : (s.reply r c e d).links = s.links := by obtain ⟨_, h⟩ := s.reply_frame r c e d; rw [h]
@[simp] theorem State.reply_chips (r : ReplyTo) (c : Code) (e : Nat) (d : Bytes) : (s.reply r c e d).chips = s.chips := by obtain ⟨_, h⟩ := s.reply_frame r c e d; rw [h]
@[simp] theorem State.reply_hosts (r : ReplyTo) (c : Code) (e : Nat) (d : Bytes) : (s.reply r c e d).hosts = s.hosts := by obtain ⟨_, h⟩ := s.reply_frame r c e d; rw [h]
@[simp] theorem State.reply_slots (r : ReplyTo) (c : Code) (e : Nat) (d : Bytes) : (s.reply r c e d).slots = s.slots := by obtain ⟨_, h⟩ := s.reply_frame r c e d; rw [h]
@[simp] theorem State.reply_tdis (r : ReplyTo) (c : Code) (e : Nat) (d : Bytes) : (s.reply r c e d).tdis = s.tdis := by obtain ⟨_, h⟩ := s.reply_frame r c e d; rw [h]
@[simp] theorem State.reply_stagingRoutes (r : ReplyTo) (c : Code) (e : Nat) (d : Bytes) : (s.reply r c e d).stagingRoutes = s.stagingRoutes := by obtain ⟨_, h⟩ := s.reply_frame r c e d; rw [h]
@[simp] theorem State.reply_liveRoutes (r : ReplyTo) (c : Code) (e : Nat) (d : Bytes) : (s.reply r c e d).liveRoutes = s.liveRoutes := by obtain ⟨_, h⟩ := s.reply_frame r c e d; rw [h]
@[simp] theorem State.reply_routeHold (r : ReplyTo) (c : Code) (e : Nat) (d : Bytes) : (s.reply r c e d).routeHold = s.routeHold := by obtain ⟨_, h⟩ := s.reply_frame r c e d; rw [h]
@[simp] theorem State.reply_routeHeld (r : ReplyTo) (c : Code) (e : Nat) (d : Bytes) : (s.reply r c e d).routeHeld = s.routeHeld := by obtain ⟨_, h⟩ := s.reply_frame r c e d; rw [h]
@[simp] theorem State.reply_otags (r : ReplyTo) (c : Code) (e : Nat) (d : Bytes) : (s.reply r c e d).otags = s.otags := by obtain ⟨_, h⟩ := s.reply_frame r c e d; rw [h]
@[simp] theorem State.reply_otagNext (r : ReplyTo) (c : Code) (e : Nat) (d : Bytes) : (s.reply r c e d).otagNext = s.otagNext := by obtain ⟨_, h⟩ := s.reply_frame r c e d; rw [h]
@[simp] theorem State.reply_heldOps (r : ReplyTo) (c : Code) (e : Nat) (d : Bytes) : (s.reply r c e d).heldOps = s.heldOps := by obtain ⟨_, h⟩ := s.reply_frame r c e d; rw [h]
@[simp] theorem State.reply_rcache (r : ReplyTo) (c : Code) (e : Nat) (d : Bytes) : (s.reply r c e d).rcache = s.rcache := by obtain ⟨_, h⟩ := s.reply_frame r c e d; rw [h]
@[simp] theorem State.reply_comb (r : ReplyTo) (c : Code) (e : Nat) (d : Bytes) : (s.reply r c e d).comb = s.comb := by obtain ⟨_, h⟩ := s.reply_frame r c e d; rw [h]
@[simp] theorem State.reply_rslots (r : ReplyTo) (c : Code) (e : Nat) (d : Bytes) : (s.reply r c e d).rslots = s.rslots := by obtain ⟨_, h⟩ := s.reply_frame r c e d; rw [h]
@[simp] theorem State.reply_early (r : ReplyTo) (c : Code) (e : Nat) (d : Bytes) : (s.reply r c e d).early = s.early := by obtain ⟨_, h⟩ := s.reply_frame r c e d; rw [h]
@[simp] theorem State.reply_chunkRecs (r : ReplyTo) (c : Code) (e : Nat) (d : Bytes) : (s.reply r c e d).chunkRecs = s.chunkRecs := by obtain ⟨_, h⟩ := s.reply_frame r c e d; rw [h]
@[simp] theorem State.reply_parts (r : ReplyTo) (c : Code) (e : Nat) (d : Bytes) : (s.reply r c e d).parts = s.parts := by obtain ⟨_, h⟩ := s.reply_frame r c e d; rw [h]
@[simp] theorem State.reply_ctxs (r : ReplyTo) (c : Code) (e : Nat) (d : Bytes) : (s.reply r c e d).ctxs = s.ctxs := by obtain ⟨_, h⟩ := s.reply_frame r c e d; rw [h]
@[simp] theorem State.reply_queues (r : ReplyTo) (c : Code) (e : Nat) (d : Bytes) : (s.reply r c e d).queues = s.queues := by obtain ⟨_, h⟩ := s.reply_frame r c e d; rw [h]
@[simp] theorem State.reply_cmds (r : ReplyTo) (c : Code) (e : Nat) (d : Bytes) : (s.reply r c e d).cmds = s.cmds := by obtain ⟨_, h⟩ := s.reply_frame r c e d; rw [h]
@[simp] theorem State.reply_cmdNext (r : ReplyTo) (c : Code) (e : Nat) (d : Bytes) : (s.reply r c e d).cmdNext = s.cmdNext := by obtain ⟨_, h⟩ := s.reply_frame r c e d; rw [h]
@[simp] theorem State.reply_objs (r : ReplyTo) (c : Code) (e : Nat) (d : Bytes) : (s.reply r c e d).objs = s.objs := by obtain ⟨_, h⟩ := s.reply_frame r c e d; rw [h]
@[simp] theorem State.reply_objLive (r : ReplyTo) (c : Code) (e : Nat) (d : Bytes) : (s.reply r c e d).objLive = s.objLive := by obtain ⟨_, h⟩ := s.reply_frame r c e d; rw [h]
@[simp] theorem State.reply_watch (r : ReplyTo) (c : Code) (e : Nat) (d : Bytes) : (s.reply r c e d).watch = s.watch := by obtain ⟨_, h⟩ := s.reply_frame r c e d; rw [h]
@[simp] theorem State.reply_trans (r : ReplyTo) (c : Code) (e : Nat) (d : Bytes) : (s.reply r c e d).trans = s.trans := by obtain ⟨_, h⟩ := s.reply_frame r c e d; rw [h]
@[simp] theorem State.reply_tlb1 (r : ReplyTo) (c : Code) (e : Nat) (d : Bytes) : (s.reply r c e d).tlb1 = s.tlb1 := by obtain ⟨_, h⟩ := s.reply_frame r c e d; rw [h]
@[simp] theorem State.reply_tlb2 (r : ReplyTo) (c : Code) (e : Nat) (d : Bytes) : (s.reply r c e d).tlb2 = s.tlb2 := by obtain ⟨_, h⟩ := s.reply_frame r c e d; rw [h]
@[simp] theorem State.reply_walks (r : ReplyTo) (c : Code) (e : Nat) (d : Bytes) : (s.reply r c e d).walks = s.walks := by obtain ⟨_, h⟩ := s.reply_frame r c e d; rw [h]
@[simp] theorem State.reply_walkTurn (r : ReplyTo) (c : Code) (e : Nat) (d : Bytes) : (s.reply r c e d).walkTurn = s.walkTurn := by obtain ⟨_, h⟩ := s.reply_frame r c e d; rw [h]
@[simp] theorem State.reply_clock (r : ReplyTo) (c : Code) (e : Nat) (d : Bytes) : (s.reply r c e d).clock = s.clock := by obtain ⟨_, h⟩ := s.reply_frame r c e d; rw [h]
@[simp] theorem State.reply_mapJob (r : ReplyTo) (c : Code) (e : Nat) (d : Bytes) : (s.reply r c e d).mapJob = s.mapJob := by obtain ⟨_, h⟩ := s.reply_frame r c e d; rw [h]
@[simp] theorem State.reply_auOwner (r : ReplyTo) (c : Code) (e : Nat) (d : Bytes) : (s.reply r c e d).auOwner = s.auOwner := by obtain ⟨_, h⟩ := s.reply_frame r c e d; rw [h]
@[simp] theorem State.reply_auQueue (r : ReplyTo) (c : Code) (e : Nat) (d : Bytes) : (s.reply r c e d).auQueue = s.auQueue := by obtain ⟨_, h⟩ := s.reply_frame r c e d; rw [h]
@[simp] theorem State.reply_auLastCtx (r : ReplyTo) (c : Code) (e : Nat) (d : Bytes) : (s.reply r c e d).auLastCtx = s.auLastCtx := by obtain ⟨_, h⟩ := s.reply_frame r c e d; rw [h]
@[simp] theorem State.reply_samplerPart (r : ReplyTo) (c : Code) (e : Nat) (d : Bytes) : (s.reply r c e d).samplerPart = s.samplerPart := by obtain ⟨_, h⟩ := s.reply_frame r c e d; rw [h]
@[simp] theorem State.reply_samplerFifo (r : ReplyTo) (c : Code) (e : Nat) (d : Bytes) : (s.reply r c e d).samplerFifo = s.samplerFifo := by obtain ⟨_, h⟩ := s.reply_frame r c e d; rw [h]
@[simp] theorem State.reply_samplerTurn (r : ReplyTo) (c : Code) (e : Nat) (d : Bytes) : (s.reply r c e d).samplerTurn = s.samplerTurn := by obtain ⟨_, h⟩ := s.reply_frame r c e d; rw [h]
@[simp] theorem State.reply_samplerCmd (r : ReplyTo) (c : Code) (e : Nat) (d : Bytes) : (s.reply r c e d).samplerCmd = s.samplerCmd := by obtain ⟨_, h⟩ := s.reply_frame r c e d; rw [h]
@[simp] theorem State.reply_samplers (r : ReplyTo) (c : Code) (e : Nat) (d : Bytes) : (s.reply r c e d).samplers = s.samplers := by obtain ⟨_, h⟩ := s.reply_frame r c e d; rw [h]
@[simp] theorem State.reply_lanesTurn (r : ReplyTo) (c : Code) (e : Nat) (d : Bytes) : (s.reply r c e d).lanesTurn = s.lanesTurn := by obtain ⟨_, h⟩ := s.reply_frame r c e d; rw [h]

/-! ## Transmission on a host port -/

theorem State.ideSeal_frame (h x b : Nat) (hdr text : Bytes) {ct mac : Bytes} {t : State} (he : s.ideSeal h x b hdr text = some (ct, mac, t)) :
    ∃ x0, t = { s with slots := x0 } := by
  unfold State.ideSeal at he
  repeat' split at he
  · cases he
  · cases he
  · cases he
    exact ⟨_, rfl⟩

theorem State.sendTlp_frame (h fn : Nat) (w : Bool) (a : Nat) (d : Bytes) (x g : Nat) {t : State} (he : s.sendTlp h fn w a d x g = some t) :
    ∃ x0 x1, t = { s with out := x0, slots := x1 } := by
  unfold State.sendTlp at he
  repeat' split at he
  · cases he
  · next hs =>
    obtain ⟨_, rfl⟩ := s.ideSeal_frame _ _ _ _ _ hs
    cases he
    exact ⟨_, _, rfl⟩
  · cases he

theorem State.sendMsix_frame (h fn v : Nat) (x : Option Nat) : ∃ x0 x1, s.sendMsix h fn v x = { s with out := x0, slots := x1 } := by
  unfold State.sendMsix
  split
  · simp only
    split <;> exact ⟨_, _, rfl⟩
  · simp only
    generalize he : s.sendTlp _ _ _ _ _ _ _ = o
    cases o with
    | none => exact ⟨_, _, rfl⟩
    | some t => exact s.sendTlp_frame _ _ _ _ _ _ _ he

/-! ## sendVector -/

theorem State.sendVector_frame (n v : Nat) : ∃ x0 x1, s.sendVector n v = { s with out := x0, slots := x1 } := by
  unfold State.sendVector
  repeat' split
  · exact s.sendMsix_frame _ _ _ _
  · exact s.sendMsix_frame _ _ _ _
  · exact ⟨_, _, rfl⟩

@[simp] theorem State.sendVector_cfg (n v : Nat) : (s.sendVector n v).cfg = s.cfg := by obtain ⟨_, _, h⟩ := s.sendVector_frame n v; rw [h]
@[simp] theorem State.sendVector_pending (n v : Nat) : (s.sendVector n v).pending = s.pending := by obtain ⟨_, _, h⟩ := s.sendVector_frame n v; rw [h]
@[simp] theorem State.sendVector_due (n v : Nat) : (s.sendVector n v).due = s.due := by obtain ⟨_, _, h⟩ := s.sendVector_frame n v; rw [h]
@[simp] theorem State.sendVector_freeCount (n v : Nat) : (s.sendVector n v).freeCount = s.freeCount := by obtain ⟨_, _, h⟩ := s.sendVector_frame n v; rw [h]
@[simp] theorem State.sendVector_loc (n v : Nat) : (s.sendVector n v).loc = s.loc := by obtain ⟨_, _, h⟩ := s.sendVector_frame n v; rw [h]
@[simp] theorem State.sendVector_ctr (n v : Nat) : (s.sendVector n v).ctr = s.ctr := by obtain ⟨_, _, h⟩ := s.sendVector_frame n v; rw [h]
@[simp] theorem State.sendVector_settings (n v : Nat) : (s.sendVector n v).settings = s.settings := by obtain ⟨_, _, h⟩ := s.sendVector_frame n v; rw [h]
@[simp] theorem State.sendVector_fuses (n v : Nat) : (s.sendVector n v).fuses = s.fuses := by obtain ⟨_, _, h⟩ := s.sendVector_frame n v; rw [h]
@[simp] theorem State.sendVector_bring (n v : Nat) : (s.sendVector n v).bring = s.bring := by obtain ⟨_, _, h⟩ := s.sendVector_frame n v; rw [h]
@[simp] theorem State.sendVector_power (n v : Nat) : (s.sendVector n v).power = s.power := by obtain ⟨_, _, h⟩ := s.sendVector_frame n v; rw [h]
@[simp] theorem State.sendVector_agent (n v : Nat) : (s.sendVector n v).agent = s.agent := by obtain ⟨_, _, h⟩ := s.sendVector_frame n v; rw [h]
@[simp] theorem State.sendVector_fw (n v : Nat) : (s.sendVector n v).fw = s.fw := by obtain ⟨_, _, h⟩ := s.sendVector_frame n v; rw [h]
@[simp] theorem State.sendVector_life (n v : Nat) : (s.sendVector n v).life = s.life := by obtain ⟨_, _, h⟩ := s.sendVector_frame n v; rw [h]
@[simp] theorem State.sendVector_alarms (n v : Nat) : (s.sendVector n v).alarms = s.alarms := by obtain ⟨_, _, h⟩ := s.sendVector_frame n v; rw [h]
@[simp] theorem State.sendVector_faults (n v : Nat) : (s.sendVector n v).faults = s.faults := by obtain ⟨_, _, h⟩ := s.sendVector_frame n v; rw [h]
@[simp] theorem State.sendVector_records (n v : Nat) : (s.sendVector n v).records = s.records := by obtain ⟨_, _, h⟩ := s.sendVector_frame n v; rw [h]
@[simp] theorem State.sendVector_keys (n v : Nat) : (s.sendVector n v).keys = s.keys := by obtain ⟨_, _, h⟩ := s.sendVector_frame n v; rw [h]
@[simp] theorem State.sendVector_gce (n v : Nat) : (s.sendVector n v).gce = s.gce := by obtain ⟨_, _, h⟩ := s.sendVector_frame n v; rw [h]
@[simp] theorem State.sendVector_random (n v : Nat) : (s.sendVector n v).random = s.random := by obtain ⟨_, _, h⟩ := s.sendVector_frame n v; rw [h]
@[simp] theorem State.sendVector_mem (n v : Nat) : (s.sendVector n v).mem = s.mem := by obtain ⟨_, _, h⟩ := s.sendVector_frame n v; rw [h]
@[simp] theorem State.sendVector_links (n v : Nat) : (s.sendVector n v).links = s.links := by obtain ⟨_, _, h⟩ := s.sendVector_frame n v; rw [h]
@[simp] theorem State.sendVector_chips (n v : Nat) : (s.sendVector n v).chips = s.chips := by obtain ⟨_, _, h⟩ := s.sendVector_frame n v; rw [h]
@[simp] theorem State.sendVector_hosts (n v : Nat) : (s.sendVector n v).hosts = s.hosts := by obtain ⟨_, _, h⟩ := s.sendVector_frame n v; rw [h]
@[simp] theorem State.sendVector_tdis (n v : Nat) : (s.sendVector n v).tdis = s.tdis := by obtain ⟨_, _, h⟩ := s.sendVector_frame n v; rw [h]
@[simp] theorem State.sendVector_stagingRoutes (n v : Nat) : (s.sendVector n v).stagingRoutes = s.stagingRoutes := by obtain ⟨_, _, h⟩ := s.sendVector_frame n v; rw [h]
@[simp] theorem State.sendVector_liveRoutes (n v : Nat) : (s.sendVector n v).liveRoutes = s.liveRoutes := by obtain ⟨_, _, h⟩ := s.sendVector_frame n v; rw [h]
@[simp] theorem State.sendVector_routeHold (n v : Nat) : (s.sendVector n v).routeHold = s.routeHold := by obtain ⟨_, _, h⟩ := s.sendVector_frame n v; rw [h]
@[simp] theorem State.sendVector_routeHeld (n v : Nat) : (s.sendVector n v).routeHeld = s.routeHeld := by obtain ⟨_, _, h⟩ := s.sendVector_frame n v; rw [h]
@[simp] theorem State.sendVector_otags (n v : Nat) : (s.sendVector n v).otags = s.otags := by obtain ⟨_, _, h⟩ := s.sendVector_frame n v; rw [h]
@[simp] theorem State.sendVector_otagNext (n v : Nat) : (s.sendVector n v).otagNext = s.otagNext := by obtain ⟨_, _, h⟩ := s.sendVector_frame n v; rw [h]
@[simp] theorem State.sendVector_heldOps (n v : Nat) : (s.sendVector n v).heldOps = s.heldOps := by obtain ⟨_, _, h⟩ := s.sendVector_frame n v; rw [h]
@[simp] theorem State.sendVector_rcache (n v : Nat) : (s.sendVector n v).rcache = s.rcache := by obtain ⟨_, _, h⟩ := s.sendVector_frame n v; rw [h]
@[simp] theorem State.sendVector_comb (n v : Nat) : (s.sendVector n v).comb = s.comb := by obtain ⟨_, _, h⟩ := s.sendVector_frame n v; rw [h]
@[simp] theorem State.sendVector_rslots (n v : Nat) : (s.sendVector n v).rslots = s.rslots := by obtain ⟨_, _, h⟩ := s.sendVector_frame n v; rw [h]
@[simp] theorem State.sendVector_early (n v : Nat) : (s.sendVector n v).early = s.early := by obtain ⟨_, _, h⟩ := s.sendVector_frame n v; rw [h]
@[simp] theorem State.sendVector_chunkRecs (n v : Nat) : (s.sendVector n v).chunkRecs = s.chunkRecs := by obtain ⟨_, _, h⟩ := s.sendVector_frame n v; rw [h]
@[simp] theorem State.sendVector_parts (n v : Nat) : (s.sendVector n v).parts = s.parts := by obtain ⟨_, _, h⟩ := s.sendVector_frame n v; rw [h]
@[simp] theorem State.sendVector_ctxs (n v : Nat) : (s.sendVector n v).ctxs = s.ctxs := by obtain ⟨_, _, h⟩ := s.sendVector_frame n v; rw [h]
@[simp] theorem State.sendVector_queues (n v : Nat) : (s.sendVector n v).queues = s.queues := by obtain ⟨_, _, h⟩ := s.sendVector_frame n v; rw [h]
@[simp] theorem State.sendVector_cmds (n v : Nat) : (s.sendVector n v).cmds = s.cmds := by obtain ⟨_, _, h⟩ := s.sendVector_frame n v; rw [h]
@[simp] theorem State.sendVector_cmdNext (n v : Nat) : (s.sendVector n v).cmdNext = s.cmdNext := by obtain ⟨_, _, h⟩ := s.sendVector_frame n v; rw [h]
@[simp] theorem State.sendVector_objs (n v : Nat) : (s.sendVector n v).objs = s.objs := by obtain ⟨_, _, h⟩ := s.sendVector_frame n v; rw [h]
@[simp] theorem State.sendVector_objLive (n v : Nat) : (s.sendVector n v).objLive = s.objLive := by obtain ⟨_, _, h⟩ := s.sendVector_frame n v; rw [h]
@[simp] theorem State.sendVector_watch (n v : Nat) : (s.sendVector n v).watch = s.watch := by obtain ⟨_, _, h⟩ := s.sendVector_frame n v; rw [h]
@[simp] theorem State.sendVector_trans (n v : Nat) : (s.sendVector n v).trans = s.trans := by obtain ⟨_, _, h⟩ := s.sendVector_frame n v; rw [h]
@[simp] theorem State.sendVector_tlb1 (n v : Nat) : (s.sendVector n v).tlb1 = s.tlb1 := by obtain ⟨_, _, h⟩ := s.sendVector_frame n v; rw [h]
@[simp] theorem State.sendVector_tlb2 (n v : Nat) : (s.sendVector n v).tlb2 = s.tlb2 := by obtain ⟨_, _, h⟩ := s.sendVector_frame n v; rw [h]
@[simp] theorem State.sendVector_walks (n v : Nat) : (s.sendVector n v).walks = s.walks := by obtain ⟨_, _, h⟩ := s.sendVector_frame n v; rw [h]
@[simp] theorem State.sendVector_walkTurn (n v : Nat) : (s.sendVector n v).walkTurn = s.walkTurn := by obtain ⟨_, _, h⟩ := s.sendVector_frame n v; rw [h]
@[simp] theorem State.sendVector_clock (n v : Nat) : (s.sendVector n v).clock = s.clock := by obtain ⟨_, _, h⟩ := s.sendVector_frame n v; rw [h]
@[simp] theorem State.sendVector_mapJob (n v : Nat) : (s.sendVector n v).mapJob = s.mapJob := by obtain ⟨_, _, h⟩ := s.sendVector_frame n v; rw [h]
@[simp] theorem State.sendVector_auOwner (n v : Nat) : (s.sendVector n v).auOwner = s.auOwner := by obtain ⟨_, _, h⟩ := s.sendVector_frame n v; rw [h]
@[simp] theorem State.sendVector_auQueue (n v : Nat) : (s.sendVector n v).auQueue = s.auQueue := by obtain ⟨_, _, h⟩ := s.sendVector_frame n v; rw [h]
@[simp] theorem State.sendVector_auLastCtx (n v : Nat) : (s.sendVector n v).auLastCtx = s.auLastCtx := by obtain ⟨_, _, h⟩ := s.sendVector_frame n v; rw [h]
@[simp] theorem State.sendVector_samplerPart (n v : Nat) : (s.sendVector n v).samplerPart = s.samplerPart := by obtain ⟨_, _, h⟩ := s.sendVector_frame n v; rw [h]
@[simp] theorem State.sendVector_samplerFifo (n v : Nat) : (s.sendVector n v).samplerFifo = s.samplerFifo := by obtain ⟨_, _, h⟩ := s.sendVector_frame n v; rw [h]
@[simp] theorem State.sendVector_samplerTurn (n v : Nat) : (s.sendVector n v).samplerTurn = s.samplerTurn := by obtain ⟨_, _, h⟩ := s.sendVector_frame n v; rw [h]
@[simp] theorem State.sendVector_samplerCmd (n v : Nat) : (s.sendVector n v).samplerCmd = s.samplerCmd := by obtain ⟨_, _, h⟩ := s.sendVector_frame n v; rw [h]
@[simp] theorem State.sendVector_samplers (n v : Nat) : (s.sendVector n v).samplers = s.samplers := by obtain ⟨_, _, h⟩ := s.sendVector_frame n v; rw [h]
@[simp] theorem State.sendVector_lanesTurn (n v : Nat) : (s.sendVector n v).lanesTurn = s.lanesTurn := by obtain ⟨_, _, h⟩ := s.sendVector_frame n v; rw [h]

/-! ## ctxFault -/

theorem State.ctxFault_frame (n e q d : Nat) : ∃ x0 x1 x2 x3 x4, s.ctxFault n e q d = { s with agent := x0, ctr := x1, out := x2, ctxs := x3, slots := x4 } := by
  have hn : ∀ t : State, (∃ x0 x1 x2 x3 x4, t = { s with agent := x0, ctr := x1, out := x2, ctxs := x3, slots := x4 }) → ∀ k sc e p c a b,
      ∃ x0 x1 x2 x3 x4, t.note k sc e p c a b = { s with agent := x0, ctr := x1, out := x2, ctxs := x3, slots := x4 } := by
    rintro t ⟨g, c, o, x, y, rfl⟩ k sc e p c' a b
    obtain ⟨g2, c2, h⟩ := State.note_frame { s with agent := g, ctr := c, out := o, ctxs := x, slots := y } k sc e p c' a b
    exact ⟨g2, c2, o, x, y, by rw [h]⟩
  have hv : ∀ t : State, (∃ x0 x1 x2 x3 x4, t = { s with agent := x0, ctr := x1, out := x2, ctxs := x3, slots := x4 }) → ∀ v,
      ∃ x0 x1 x2 x3 x4, t.sendVector n v = { s with agent := x0, ctr := x1, out := x2, ctxs := x3, slots := x4 } := by
    rintro t ⟨g, c, o, x, y, rfl⟩ v
    obtain ⟨o2, y2, h⟩ := State.sendVector_frame { s with agent := g, ctr := c, out := o, ctxs := x, slots := y } n v
    exact ⟨g, c, o2, x, y2, by rw [h]⟩
  have hm : ∀ t : State, (∃ x0 x1 x2 x3 x4, t = { s with agent := x0, ctr := x1, out := x2, ctxs := x3, slots := x4 }) → ∀ f,
      ∃ x0 x1 x2 x3 x4, t.modCtx n f = { s with agent := x0, ctr := x1, out := x2, ctxs := x3, slots := x4 } := by
    rintro t ⟨g, c, o, x, y, rfl⟩ f
    exact ⟨_, _, _, _, _, rfl⟩
  have h0 : ∃ x0 x1 x2 x3 x4, (s.modCtx n fun c => { c with fault := true, faultErr := e, faults := sat32 (c.faults + 1), faultsSinceReset := c.faultsSinceReset + 1 }).bump 0x6000 1 =
      { s with agent := x0, ctr := x1, out := x2, ctxs := x3, slots := x4 } := ⟨_, _, _, _, _, rfl⟩
  have h2 := hv _ (hn _ h0 1 1 e (some (s.ctx n).part) n q d) (s.ctx n).faultVec
  exact pred_ite (P := fun t => ∃ x0 x1 x2 x3 x4, t = { s with agent := x0, ctr := x1, out := x2, ctxs := x3, slots := x4 })
    (hm _ (hn _ h2 1 1 0xA007 (some (s.ctx n).part) n 0 0) _) h2

@[simp] theorem State.ctxFault_cfg (n e q d : Nat) : (s.ctxFault n e q d).cfg = s.cfg := by obtain ⟨_, _, _, _, _, h⟩ := s.ctxFault_frame n e q d; rw [h]
@[simp] theorem State.ctxFault_pending (n e q d : Nat) : (s.ctxFault n e q d).pending = s.pending := by obtain ⟨_, _, _, _, _, h⟩ := s.ctxFault_frame n e q d; rw [h]
@[simp] theorem State.ctxFault_due (n e q d : Nat) : (s.ctxFault n e q d).due = s.due := by obtain ⟨_, _, _, _, _, h⟩ := s.ctxFault_frame n e q d; rw [h]
@[simp] theorem State.ctxFault_freeCount (n e q d : Nat) : (s.ctxFault n e q d).freeCount = s.freeCount := by obtain ⟨_, _, _, _, _, h⟩ := s.ctxFault_frame n e q d; rw [h]
@[simp] theorem State.ctxFault_loc (n e q d : Nat) : (s.ctxFault n e q d).loc = s.loc := by obtain ⟨_, _, _, _, _, h⟩ := s.ctxFault_frame n e q d; rw [h]
@[simp] theorem State.ctxFault_settings (n e q d : Nat) : (s.ctxFault n e q d).settings = s.settings := by obtain ⟨_, _, _, _, _, h⟩ := s.ctxFault_frame n e q d; rw [h]
@[simp] theorem State.ctxFault_fuses (n e q d : Nat) : (s.ctxFault n e q d).fuses = s.fuses := by obtain ⟨_, _, _, _, _, h⟩ := s.ctxFault_frame n e q d; rw [h]
@[simp] theorem State.ctxFault_bring (n e q d : Nat) : (s.ctxFault n e q d).bring = s.bring := by obtain ⟨_, _, _, _, _, h⟩ := s.ctxFault_frame n e q d; rw [h]
@[simp] theorem State.ctxFault_power (n e q d : Nat) : (s.ctxFault n e q d).power = s.power := by obtain ⟨_, _, _, _, _, h⟩ := s.ctxFault_frame n e q d; rw [h]
@[simp] theorem State.ctxFault_fw (n e q d : Nat) : (s.ctxFault n e q d).fw = s.fw := by obtain ⟨_, _, _, _, _, h⟩ := s.ctxFault_frame n e q d; rw [h]
@[simp] theorem State.ctxFault_life (n e q d : Nat) : (s.ctxFault n e q d).life = s.life := by obtain ⟨_, _, _, _, _, h⟩ := s.ctxFault_frame n e q d; rw [h]
@[simp] theorem State.ctxFault_alarms (n e q d : Nat) : (s.ctxFault n e q d).alarms = s.alarms := by obtain ⟨_, _, _, _, _, h⟩ := s.ctxFault_frame n e q d; rw [h]
@[simp] theorem State.ctxFault_faults (n e q d : Nat) : (s.ctxFault n e q d).faults = s.faults := by obtain ⟨_, _, _, _, _, h⟩ := s.ctxFault_frame n e q d; rw [h]
@[simp] theorem State.ctxFault_records (n e q d : Nat) : (s.ctxFault n e q d).records = s.records := by obtain ⟨_, _, _, _, _, h⟩ := s.ctxFault_frame n e q d; rw [h]
@[simp] theorem State.ctxFault_keys (n e q d : Nat) : (s.ctxFault n e q d).keys = s.keys := by obtain ⟨_, _, _, _, _, h⟩ := s.ctxFault_frame n e q d; rw [h]
@[simp] theorem State.ctxFault_gce (n e q d : Nat) : (s.ctxFault n e q d).gce = s.gce := by obtain ⟨_, _, _, _, _, h⟩ := s.ctxFault_frame n e q d; rw [h]
@[simp] theorem State.ctxFault_random (n e q d : Nat) : (s.ctxFault n e q d).random = s.random := by obtain ⟨_, _, _, _, _, h⟩ := s.ctxFault_frame n e q d; rw [h]
@[simp] theorem State.ctxFault_mem (n e q d : Nat) : (s.ctxFault n e q d).mem = s.mem := by obtain ⟨_, _, _, _, _, h⟩ := s.ctxFault_frame n e q d; rw [h]
@[simp] theorem State.ctxFault_links (n e q d : Nat) : (s.ctxFault n e q d).links = s.links := by obtain ⟨_, _, _, _, _, h⟩ := s.ctxFault_frame n e q d; rw [h]
@[simp] theorem State.ctxFault_chips (n e q d : Nat) : (s.ctxFault n e q d).chips = s.chips := by obtain ⟨_, _, _, _, _, h⟩ := s.ctxFault_frame n e q d; rw [h]
@[simp] theorem State.ctxFault_hosts (n e q d : Nat) : (s.ctxFault n e q d).hosts = s.hosts := by obtain ⟨_, _, _, _, _, h⟩ := s.ctxFault_frame n e q d; rw [h]
@[simp] theorem State.ctxFault_tdis (n e q d : Nat) : (s.ctxFault n e q d).tdis = s.tdis := by obtain ⟨_, _, _, _, _, h⟩ := s.ctxFault_frame n e q d; rw [h]
@[simp] theorem State.ctxFault_stagingRoutes (n e q d : Nat) : (s.ctxFault n e q d).stagingRoutes = s.stagingRoutes := by obtain ⟨_, _, _, _, _, h⟩ := s.ctxFault_frame n e q d; rw [h]
@[simp] theorem State.ctxFault_liveRoutes (n e q d : Nat) : (s.ctxFault n e q d).liveRoutes = s.liveRoutes := by obtain ⟨_, _, _, _, _, h⟩ := s.ctxFault_frame n e q d; rw [h]
@[simp] theorem State.ctxFault_routeHold (n e q d : Nat) : (s.ctxFault n e q d).routeHold = s.routeHold := by obtain ⟨_, _, _, _, _, h⟩ := s.ctxFault_frame n e q d; rw [h]
@[simp] theorem State.ctxFault_routeHeld (n e q d : Nat) : (s.ctxFault n e q d).routeHeld = s.routeHeld := by obtain ⟨_, _, _, _, _, h⟩ := s.ctxFault_frame n e q d; rw [h]
@[simp] theorem State.ctxFault_otags (n e q d : Nat) : (s.ctxFault n e q d).otags = s.otags := by obtain ⟨_, _, _, _, _, h⟩ := s.ctxFault_frame n e q d; rw [h]
@[simp] theorem State.ctxFault_otagNext (n e q d : Nat) : (s.ctxFault n e q d).otagNext = s.otagNext := by obtain ⟨_, _, _, _, _, h⟩ := s.ctxFault_frame n e q d; rw [h]
@[simp] theorem State.ctxFault_heldOps (n e q d : Nat) : (s.ctxFault n e q d).heldOps = s.heldOps := by obtain ⟨_, _, _, _, _, h⟩ := s.ctxFault_frame n e q d; rw [h]
@[simp] theorem State.ctxFault_rcache (n e q d : Nat) : (s.ctxFault n e q d).rcache = s.rcache := by obtain ⟨_, _, _, _, _, h⟩ := s.ctxFault_frame n e q d; rw [h]
@[simp] theorem State.ctxFault_comb (n e q d : Nat) : (s.ctxFault n e q d).comb = s.comb := by obtain ⟨_, _, _, _, _, h⟩ := s.ctxFault_frame n e q d; rw [h]
@[simp] theorem State.ctxFault_rslots (n e q d : Nat) : (s.ctxFault n e q d).rslots = s.rslots := by obtain ⟨_, _, _, _, _, h⟩ := s.ctxFault_frame n e q d; rw [h]
@[simp] theorem State.ctxFault_early (n e q d : Nat) : (s.ctxFault n e q d).early = s.early := by obtain ⟨_, _, _, _, _, h⟩ := s.ctxFault_frame n e q d; rw [h]
@[simp] theorem State.ctxFault_chunkRecs (n e q d : Nat) : (s.ctxFault n e q d).chunkRecs = s.chunkRecs := by obtain ⟨_, _, _, _, _, h⟩ := s.ctxFault_frame n e q d; rw [h]
@[simp] theorem State.ctxFault_parts (n e q d : Nat) : (s.ctxFault n e q d).parts = s.parts := by obtain ⟨_, _, _, _, _, h⟩ := s.ctxFault_frame n e q d; rw [h]
@[simp] theorem State.ctxFault_queues (n e q d : Nat) : (s.ctxFault n e q d).queues = s.queues := by obtain ⟨_, _, _, _, _, h⟩ := s.ctxFault_frame n e q d; rw [h]
@[simp] theorem State.ctxFault_cmds (n e q d : Nat) : (s.ctxFault n e q d).cmds = s.cmds := by obtain ⟨_, _, _, _, _, h⟩ := s.ctxFault_frame n e q d; rw [h]
@[simp] theorem State.ctxFault_cmdNext (n e q d : Nat) : (s.ctxFault n e q d).cmdNext = s.cmdNext := by obtain ⟨_, _, _, _, _, h⟩ := s.ctxFault_frame n e q d; rw [h]
@[simp] theorem State.ctxFault_objs (n e q d : Nat) : (s.ctxFault n e q d).objs = s.objs := by obtain ⟨_, _, _, _, _, h⟩ := s.ctxFault_frame n e q d; rw [h]
@[simp] theorem State.ctxFault_objLive (n e q d : Nat) : (s.ctxFault n e q d).objLive = s.objLive := by obtain ⟨_, _, _, _, _, h⟩ := s.ctxFault_frame n e q d; rw [h]
@[simp] theorem State.ctxFault_watch (n e q d : Nat) : (s.ctxFault n e q d).watch = s.watch := by obtain ⟨_, _, _, _, _, h⟩ := s.ctxFault_frame n e q d; rw [h]
@[simp] theorem State.ctxFault_trans (n e q d : Nat) : (s.ctxFault n e q d).trans = s.trans := by obtain ⟨_, _, _, _, _, h⟩ := s.ctxFault_frame n e q d; rw [h]
@[simp] theorem State.ctxFault_tlb1 (n e q d : Nat) : (s.ctxFault n e q d).tlb1 = s.tlb1 := by obtain ⟨_, _, _, _, _, h⟩ := s.ctxFault_frame n e q d; rw [h]
@[simp] theorem State.ctxFault_tlb2 (n e q d : Nat) : (s.ctxFault n e q d).tlb2 = s.tlb2 := by obtain ⟨_, _, _, _, _, h⟩ := s.ctxFault_frame n e q d; rw [h]
@[simp] theorem State.ctxFault_walks (n e q d : Nat) : (s.ctxFault n e q d).walks = s.walks := by obtain ⟨_, _, _, _, _, h⟩ := s.ctxFault_frame n e q d; rw [h]
@[simp] theorem State.ctxFault_walkTurn (n e q d : Nat) : (s.ctxFault n e q d).walkTurn = s.walkTurn := by obtain ⟨_, _, _, _, _, h⟩ := s.ctxFault_frame n e q d; rw [h]
@[simp] theorem State.ctxFault_clock (n e q d : Nat) : (s.ctxFault n e q d).clock = s.clock := by obtain ⟨_, _, _, _, _, h⟩ := s.ctxFault_frame n e q d; rw [h]
@[simp] theorem State.ctxFault_mapJob (n e q d : Nat) : (s.ctxFault n e q d).mapJob = s.mapJob := by obtain ⟨_, _, _, _, _, h⟩ := s.ctxFault_frame n e q d; rw [h]
@[simp] theorem State.ctxFault_auOwner (n e q d : Nat) : (s.ctxFault n e q d).auOwner = s.auOwner := by obtain ⟨_, _, _, _, _, h⟩ := s.ctxFault_frame n e q d; rw [h]
@[simp] theorem State.ctxFault_auQueue (n e q d : Nat) : (s.ctxFault n e q d).auQueue = s.auQueue := by obtain ⟨_, _, _, _, _, h⟩ := s.ctxFault_frame n e q d; rw [h]
@[simp] theorem State.ctxFault_auLastCtx (n e q d : Nat) : (s.ctxFault n e q d).auLastCtx = s.auLastCtx := by obtain ⟨_, _, _, _, _, h⟩ := s.ctxFault_frame n e q d; rw [h]
@[simp] theorem State.ctxFault_samplerPart (n e q d : Nat) : (s.ctxFault n e q d).samplerPart = s.samplerPart := by obtain ⟨_, _, _, _, _, h⟩ := s.ctxFault_frame n e q d; rw [h]
@[simp] theorem State.ctxFault_samplerFifo (n e q d : Nat) : (s.ctxFault n e q d).samplerFifo = s.samplerFifo := by obtain ⟨_, _, _, _, _, h⟩ := s.ctxFault_frame n e q d; rw [h]
@[simp] theorem State.ctxFault_samplerTurn (n e q d : Nat) : (s.ctxFault n e q d).samplerTurn = s.samplerTurn := by obtain ⟨_, _, _, _, _, h⟩ := s.ctxFault_frame n e q d; rw [h]
@[simp] theorem State.ctxFault_samplerCmd (n e q d : Nat) : (s.ctxFault n e q d).samplerCmd = s.samplerCmd := by obtain ⟨_, _, _, _, _, h⟩ := s.ctxFault_frame n e q d; rw [h]
@[simp] theorem State.ctxFault_samplers (n e q d : Nat) : (s.ctxFault n e q d).samplers = s.samplers := by obtain ⟨_, _, _, _, _, h⟩ := s.ctxFault_frame n e q d; rw [h]
@[simp] theorem State.ctxFault_lanesTurn (n e q d : Nat) : (s.ctxFault n e q d).lanesTurn = s.lanesTurn := by obtain ⟨_, _, _, _, _, h⟩ := s.ctxFault_frame n e q d; rw [h]

/-! ## linkError -/

theorem State.linkError_frame (l e a : Nat) : ∃ x0 x1 x2, s.linkError l e a = { s with records := x0, ctr := x1, links := x2 } := by
  unfold State.linkError
  obtain ⟨r, c, h⟩ := State.error_frame (s.modLink l fun k => { k with lastErr := e }) 2 l none e a
  exact ⟨_, _, _, h⟩

@[simp] theorem State.linkError_cfg (l e a : Nat) : (s.linkError l e a).cfg = s.cfg := by obtain ⟨_, _, _, h⟩ := s.linkError_frame l e a; rw [h]
@[simp] theorem State.linkError_pending (l e a : Nat) : (s.linkError l e a).pending = s.pending := by obtain ⟨_, _, _, h⟩ := s.linkError_frame l e a; rw [h]
@[simp] theorem State.linkError_out (l e a : Nat) : (s.linkError l e a).out = s.out := by obtain ⟨_, _, _, h⟩ := s.linkError_frame l e a; rw [h]
@[simp] theorem State.linkError_due (l e a : Nat) : (s.linkError l e a).due = s.due := by obtain ⟨_, _, _, h⟩ := s.linkError_frame l e a; rw [h]
@[simp] theorem State.linkError_freeCount (l e a : Nat) : (s.linkError l e a).freeCount = s.freeCount := by obtain ⟨_, _, _, h⟩ := s.linkError_frame l e a; rw [h]
@[simp] theorem State.linkError_loc (l e a : Nat) : (s.linkError l e a).loc = s.loc := by obtain ⟨_, _, _, h⟩ := s.linkError_frame l e a; rw [h]
@[simp] theorem State.linkError_settings (l e a : Nat) : (s.linkError l e a).settings = s.settings := by obtain ⟨_, _, _, h⟩ := s.linkError_frame l e a; rw [h]
@[simp] theorem State.linkError_fuses (l e a : Nat) : (s.linkError l e a).fuses = s.fuses := by obtain ⟨_, _, _, h⟩ := s.linkError_frame l e a; rw [h]
@[simp] theorem State.linkError_bring (l e a : Nat) : (s.linkError l e a).bring = s.bring := by obtain ⟨_, _, _, h⟩ := s.linkError_frame l e a; rw [h]
@[simp] theorem State.linkError_power (l e a : Nat) : (s.linkError l e a).power = s.power := by obtain ⟨_, _, _, h⟩ := s.linkError_frame l e a; rw [h]
@[simp] theorem State.linkError_agent (l e a : Nat) : (s.linkError l e a).agent = s.agent := by obtain ⟨_, _, _, h⟩ := s.linkError_frame l e a; rw [h]
@[simp] theorem State.linkError_fw (l e a : Nat) : (s.linkError l e a).fw = s.fw := by obtain ⟨_, _, _, h⟩ := s.linkError_frame l e a; rw [h]
@[simp] theorem State.linkError_life (l e a : Nat) : (s.linkError l e a).life = s.life := by obtain ⟨_, _, _, h⟩ := s.linkError_frame l e a; rw [h]
@[simp] theorem State.linkError_alarms (l e a : Nat) : (s.linkError l e a).alarms = s.alarms := by obtain ⟨_, _, _, h⟩ := s.linkError_frame l e a; rw [h]
@[simp] theorem State.linkError_faults (l e a : Nat) : (s.linkError l e a).faults = s.faults := by obtain ⟨_, _, _, h⟩ := s.linkError_frame l e a; rw [h]
@[simp] theorem State.linkError_keys (l e a : Nat) : (s.linkError l e a).keys = s.keys := by obtain ⟨_, _, _, h⟩ := s.linkError_frame l e a; rw [h]
@[simp] theorem State.linkError_gce (l e a : Nat) : (s.linkError l e a).gce = s.gce := by obtain ⟨_, _, _, h⟩ := s.linkError_frame l e a; rw [h]
@[simp] theorem State.linkError_random (l e a : Nat) : (s.linkError l e a).random = s.random := by obtain ⟨_, _, _, h⟩ := s.linkError_frame l e a; rw [h]
@[simp] theorem State.linkError_mem (l e a : Nat) : (s.linkError l e a).mem = s.mem := by obtain ⟨_, _, _, h⟩ := s.linkError_frame l e a; rw [h]
@[simp] theorem State.linkError_chips (l e a : Nat) : (s.linkError l e a).chips = s.chips := by obtain ⟨_, _, _, h⟩ := s.linkError_frame l e a; rw [h]
@[simp] theorem State.linkError_hosts (l e a : Nat) : (s.linkError l e a).hosts = s.hosts := by obtain ⟨_, _, _, h⟩ := s.linkError_frame l e a; rw [h]
@[simp] theorem State.linkError_slots (l e a : Nat) : (s.linkError l e a).slots = s.slots := by obtain ⟨_, _, _, h⟩ := s.linkError_frame l e a; rw [h]
@[simp] theorem State.linkError_tdis (l e a : Nat) : (s.linkError l e a).tdis = s.tdis := by obtain ⟨_, _, _, h⟩ := s.linkError_frame l e a; rw [h]
@[simp] theorem State.linkError_stagingRoutes (l e a : Nat) : (s.linkError l e a).stagingRoutes = s.stagingRoutes := by obtain ⟨_, _, _, h⟩ := s.linkError_frame l e a; rw [h]
@[simp] theorem State.linkError_liveRoutes (l e a : Nat) : (s.linkError l e a).liveRoutes = s.liveRoutes := by obtain ⟨_, _, _, h⟩ := s.linkError_frame l e a; rw [h]
@[simp] theorem State.linkError_routeHold (l e a : Nat) : (s.linkError l e a).routeHold = s.routeHold := by obtain ⟨_, _, _, h⟩ := s.linkError_frame l e a; rw [h]
@[simp] theorem State.linkError_routeHeld (l e a : Nat) : (s.linkError l e a).routeHeld = s.routeHeld := by obtain ⟨_, _, _, h⟩ := s.linkError_frame l e a; rw [h]
@[simp] theorem State.linkError_otags (l e a : Nat) : (s.linkError l e a).otags = s.otags := by obtain ⟨_, _, _, h⟩ := s.linkError_frame l e a; rw [h]
@[simp] theorem State.linkError_otagNext (l e a : Nat) : (s.linkError l e a).otagNext = s.otagNext := by obtain ⟨_, _, _, h⟩ := s.linkError_frame l e a; rw [h]
@[simp] theorem State.linkError_heldOps (l e a : Nat) : (s.linkError l e a).heldOps = s.heldOps := by obtain ⟨_, _, _, h⟩ := s.linkError_frame l e a; rw [h]
@[simp] theorem State.linkError_rcache (l e a : Nat) : (s.linkError l e a).rcache = s.rcache := by obtain ⟨_, _, _, h⟩ := s.linkError_frame l e a; rw [h]
@[simp] theorem State.linkError_comb (l e a : Nat) : (s.linkError l e a).comb = s.comb := by obtain ⟨_, _, _, h⟩ := s.linkError_frame l e a; rw [h]
@[simp] theorem State.linkError_rslots (l e a : Nat) : (s.linkError l e a).rslots = s.rslots := by obtain ⟨_, _, _, h⟩ := s.linkError_frame l e a; rw [h]
@[simp] theorem State.linkError_early (l e a : Nat) : (s.linkError l e a).early = s.early := by obtain ⟨_, _, _, h⟩ := s.linkError_frame l e a; rw [h]
@[simp] theorem State.linkError_chunkRecs (l e a : Nat) : (s.linkError l e a).chunkRecs = s.chunkRecs := by obtain ⟨_, _, _, h⟩ := s.linkError_frame l e a; rw [h]
@[simp] theorem State.linkError_parts (l e a : Nat) : (s.linkError l e a).parts = s.parts := by obtain ⟨_, _, _, h⟩ := s.linkError_frame l e a; rw [h]
@[simp] theorem State.linkError_ctxs (l e a : Nat) : (s.linkError l e a).ctxs = s.ctxs := by obtain ⟨_, _, _, h⟩ := s.linkError_frame l e a; rw [h]
@[simp] theorem State.linkError_queues (l e a : Nat) : (s.linkError l e a).queues = s.queues := by obtain ⟨_, _, _, h⟩ := s.linkError_frame l e a; rw [h]
@[simp] theorem State.linkError_cmds (l e a : Nat) : (s.linkError l e a).cmds = s.cmds := by obtain ⟨_, _, _, h⟩ := s.linkError_frame l e a; rw [h]
@[simp] theorem State.linkError_cmdNext (l e a : Nat) : (s.linkError l e a).cmdNext = s.cmdNext := by obtain ⟨_, _, _, h⟩ := s.linkError_frame l e a; rw [h]
@[simp] theorem State.linkError_objs (l e a : Nat) : (s.linkError l e a).objs = s.objs := by obtain ⟨_, _, _, h⟩ := s.linkError_frame l e a; rw [h]
@[simp] theorem State.linkError_objLive (l e a : Nat) : (s.linkError l e a).objLive = s.objLive := by obtain ⟨_, _, _, h⟩ := s.linkError_frame l e a; rw [h]
@[simp] theorem State.linkError_watch (l e a : Nat) : (s.linkError l e a).watch = s.watch := by obtain ⟨_, _, _, h⟩ := s.linkError_frame l e a; rw [h]
@[simp] theorem State.linkError_trans (l e a : Nat) : (s.linkError l e a).trans = s.trans := by obtain ⟨_, _, _, h⟩ := s.linkError_frame l e a; rw [h]
@[simp] theorem State.linkError_tlb1 (l e a : Nat) : (s.linkError l e a).tlb1 = s.tlb1 := by obtain ⟨_, _, _, h⟩ := s.linkError_frame l e a; rw [h]
@[simp] theorem State.linkError_tlb2 (l e a : Nat) : (s.linkError l e a).tlb2 = s.tlb2 := by obtain ⟨_, _, _, h⟩ := s.linkError_frame l e a; rw [h]
@[simp] theorem State.linkError_walks (l e a : Nat) : (s.linkError l e a).walks = s.walks := by obtain ⟨_, _, _, h⟩ := s.linkError_frame l e a; rw [h]
@[simp] theorem State.linkError_walkTurn (l e a : Nat) : (s.linkError l e a).walkTurn = s.walkTurn := by obtain ⟨_, _, _, h⟩ := s.linkError_frame l e a; rw [h]
@[simp] theorem State.linkError_clock (l e a : Nat) : (s.linkError l e a).clock = s.clock := by obtain ⟨_, _, _, h⟩ := s.linkError_frame l e a; rw [h]
@[simp] theorem State.linkError_mapJob (l e a : Nat) : (s.linkError l e a).mapJob = s.mapJob := by obtain ⟨_, _, _, h⟩ := s.linkError_frame l e a; rw [h]
@[simp] theorem State.linkError_auOwner (l e a : Nat) : (s.linkError l e a).auOwner = s.auOwner := by obtain ⟨_, _, _, h⟩ := s.linkError_frame l e a; rw [h]
@[simp] theorem State.linkError_auQueue (l e a : Nat) : (s.linkError l e a).auQueue = s.auQueue := by obtain ⟨_, _, _, h⟩ := s.linkError_frame l e a; rw [h]
@[simp] theorem State.linkError_auLastCtx (l e a : Nat) : (s.linkError l e a).auLastCtx = s.auLastCtx := by obtain ⟨_, _, _, h⟩ := s.linkError_frame l e a; rw [h]
@[simp] theorem State.linkError_samplerPart (l e a : Nat) : (s.linkError l e a).samplerPart = s.samplerPart := by obtain ⟨_, _, _, h⟩ := s.linkError_frame l e a; rw [h]
@[simp] theorem State.linkError_samplerFifo (l e a : Nat) : (s.linkError l e a).samplerFifo = s.samplerFifo := by obtain ⟨_, _, _, h⟩ := s.linkError_frame l e a; rw [h]
@[simp] theorem State.linkError_samplerTurn (l e a : Nat) : (s.linkError l e a).samplerTurn = s.samplerTurn := by obtain ⟨_, _, _, h⟩ := s.linkError_frame l e a; rw [h]
@[simp] theorem State.linkError_samplerCmd (l e a : Nat) : (s.linkError l e a).samplerCmd = s.samplerCmd := by obtain ⟨_, _, _, h⟩ := s.linkError_frame l e a; rw [h]
@[simp] theorem State.linkError_samplers (l e a : Nat) : (s.linkError l e a).samplers = s.samplers := by obtain ⟨_, _, _, h⟩ := s.linkError_frame l e a; rw [h]
@[simp] theorem State.linkError_lanesTurn (l e a : Nat) : (s.linkError l e a).lanesTurn = s.lanesTurn := by obtain ⟨_, _, _, h⟩ := s.linkError_frame l e a; rw [h]

/-! ## linkIntegrity -/

theorem State.linkIntegrity_frame (l e a : Nat) : ∃ x0 x1 x2 x3 x4, s.linkIntegrity l e a = { s with ctr := x0, records := x1, agent := x2, alarms := x3, links := x4 } := by
  unfold State.linkIntegrity
  obtain ⟨c, r, g, al, h⟩ := State.integrity_frame (s.modLink l fun k => { k with lastErr := e }) 0x3203 (l + 1) 2 l none e a 7
  exact ⟨_, _, _, _, _, h⟩

@[simp] theorem State.linkIntegrity_cfg (l e a : Nat) : (s.linkIntegrity l e a).cfg = s.cfg := by obtain ⟨_, _, _, _, _, h⟩ := s.linkIntegrity_frame l e a; rw [h]
@[simp] theorem State.linkIntegrity_pending (l e a : Nat) : (s.linkIntegrity l e a).pending = s.pending := by obtain ⟨_, _, _, _, _, h⟩ := s.linkIntegrity_frame l e a; rw [h]
@[simp] theorem State.linkIntegrity_out (l e a : Nat) : (s.linkIntegrity l e a).out = s.out := by obtain ⟨_, _, _, _, _, h⟩ := s.linkIntegrity_frame l e a; rw [h]
@[simp] theorem State.linkIntegrity_due (l e a : Nat) : (s.linkIntegrity l e a).due = s.due := by obtain ⟨_, _, _, _, _, h⟩ := s.linkIntegrity_frame l e a; rw [h]
@[simp] theorem State.linkIntegrity_freeCount (l e a : Nat) : (s.linkIntegrity l e a).freeCount = s.freeCount := by obtain ⟨_, _, _, _, _, h⟩ := s.linkIntegrity_frame l e a; rw [h]
@[simp] theorem State.linkIntegrity_loc (l e a : Nat) : (s.linkIntegrity l e a).loc = s.loc := by obtain ⟨_, _, _, _, _, h⟩ := s.linkIntegrity_frame l e a; rw [h]
@[simp] theorem State.linkIntegrity_settings (l e a : Nat) : (s.linkIntegrity l e a).settings = s.settings := by obtain ⟨_, _, _, _, _, h⟩ := s.linkIntegrity_frame l e a; rw [h]
@[simp] theorem State.linkIntegrity_fuses (l e a : Nat) : (s.linkIntegrity l e a).fuses = s.fuses := by obtain ⟨_, _, _, _, _, h⟩ := s.linkIntegrity_frame l e a; rw [h]
@[simp] theorem State.linkIntegrity_bring (l e a : Nat) : (s.linkIntegrity l e a).bring = s.bring := by obtain ⟨_, _, _, _, _, h⟩ := s.linkIntegrity_frame l e a; rw [h]
@[simp] theorem State.linkIntegrity_power (l e a : Nat) : (s.linkIntegrity l e a).power = s.power := by obtain ⟨_, _, _, _, _, h⟩ := s.linkIntegrity_frame l e a; rw [h]
@[simp] theorem State.linkIntegrity_fw (l e a : Nat) : (s.linkIntegrity l e a).fw = s.fw := by obtain ⟨_, _, _, _, _, h⟩ := s.linkIntegrity_frame l e a; rw [h]
@[simp] theorem State.linkIntegrity_life (l e a : Nat) : (s.linkIntegrity l e a).life = s.life := by obtain ⟨_, _, _, _, _, h⟩ := s.linkIntegrity_frame l e a; rw [h]
@[simp] theorem State.linkIntegrity_faults (l e a : Nat) : (s.linkIntegrity l e a).faults = s.faults := by obtain ⟨_, _, _, _, _, h⟩ := s.linkIntegrity_frame l e a; rw [h]
@[simp] theorem State.linkIntegrity_keys (l e a : Nat) : (s.linkIntegrity l e a).keys = s.keys := by obtain ⟨_, _, _, _, _, h⟩ := s.linkIntegrity_frame l e a; rw [h]
@[simp] theorem State.linkIntegrity_gce (l e a : Nat) : (s.linkIntegrity l e a).gce = s.gce := by obtain ⟨_, _, _, _, _, h⟩ := s.linkIntegrity_frame l e a; rw [h]
@[simp] theorem State.linkIntegrity_random (l e a : Nat) : (s.linkIntegrity l e a).random = s.random := by obtain ⟨_, _, _, _, _, h⟩ := s.linkIntegrity_frame l e a; rw [h]
@[simp] theorem State.linkIntegrity_mem (l e a : Nat) : (s.linkIntegrity l e a).mem = s.mem := by obtain ⟨_, _, _, _, _, h⟩ := s.linkIntegrity_frame l e a; rw [h]
@[simp] theorem State.linkIntegrity_chips (l e a : Nat) : (s.linkIntegrity l e a).chips = s.chips := by obtain ⟨_, _, _, _, _, h⟩ := s.linkIntegrity_frame l e a; rw [h]
@[simp] theorem State.linkIntegrity_hosts (l e a : Nat) : (s.linkIntegrity l e a).hosts = s.hosts := by obtain ⟨_, _, _, _, _, h⟩ := s.linkIntegrity_frame l e a; rw [h]
@[simp] theorem State.linkIntegrity_slots (l e a : Nat) : (s.linkIntegrity l e a).slots = s.slots := by obtain ⟨_, _, _, _, _, h⟩ := s.linkIntegrity_frame l e a; rw [h]
@[simp] theorem State.linkIntegrity_tdis (l e a : Nat) : (s.linkIntegrity l e a).tdis = s.tdis := by obtain ⟨_, _, _, _, _, h⟩ := s.linkIntegrity_frame l e a; rw [h]
@[simp] theorem State.linkIntegrity_stagingRoutes (l e a : Nat) : (s.linkIntegrity l e a).stagingRoutes = s.stagingRoutes := by obtain ⟨_, _, _, _, _, h⟩ := s.linkIntegrity_frame l e a; rw [h]
@[simp] theorem State.linkIntegrity_liveRoutes (l e a : Nat) : (s.linkIntegrity l e a).liveRoutes = s.liveRoutes := by obtain ⟨_, _, _, _, _, h⟩ := s.linkIntegrity_frame l e a; rw [h]
@[simp] theorem State.linkIntegrity_routeHold (l e a : Nat) : (s.linkIntegrity l e a).routeHold = s.routeHold := by obtain ⟨_, _, _, _, _, h⟩ := s.linkIntegrity_frame l e a; rw [h]
@[simp] theorem State.linkIntegrity_routeHeld (l e a : Nat) : (s.linkIntegrity l e a).routeHeld = s.routeHeld := by obtain ⟨_, _, _, _, _, h⟩ := s.linkIntegrity_frame l e a; rw [h]
@[simp] theorem State.linkIntegrity_otags (l e a : Nat) : (s.linkIntegrity l e a).otags = s.otags := by obtain ⟨_, _, _, _, _, h⟩ := s.linkIntegrity_frame l e a; rw [h]
@[simp] theorem State.linkIntegrity_otagNext (l e a : Nat) : (s.linkIntegrity l e a).otagNext = s.otagNext := by obtain ⟨_, _, _, _, _, h⟩ := s.linkIntegrity_frame l e a; rw [h]
@[simp] theorem State.linkIntegrity_heldOps (l e a : Nat) : (s.linkIntegrity l e a).heldOps = s.heldOps := by obtain ⟨_, _, _, _, _, h⟩ := s.linkIntegrity_frame l e a; rw [h]
@[simp] theorem State.linkIntegrity_rcache (l e a : Nat) : (s.linkIntegrity l e a).rcache = s.rcache := by obtain ⟨_, _, _, _, _, h⟩ := s.linkIntegrity_frame l e a; rw [h]
@[simp] theorem State.linkIntegrity_comb (l e a : Nat) : (s.linkIntegrity l e a).comb = s.comb := by obtain ⟨_, _, _, _, _, h⟩ := s.linkIntegrity_frame l e a; rw [h]
@[simp] theorem State.linkIntegrity_rslots (l e a : Nat) : (s.linkIntegrity l e a).rslots = s.rslots := by obtain ⟨_, _, _, _, _, h⟩ := s.linkIntegrity_frame l e a; rw [h]
@[simp] theorem State.linkIntegrity_early (l e a : Nat) : (s.linkIntegrity l e a).early = s.early := by obtain ⟨_, _, _, _, _, h⟩ := s.linkIntegrity_frame l e a; rw [h]
@[simp] theorem State.linkIntegrity_chunkRecs (l e a : Nat) : (s.linkIntegrity l e a).chunkRecs = s.chunkRecs := by obtain ⟨_, _, _, _, _, h⟩ := s.linkIntegrity_frame l e a; rw [h]
@[simp] theorem State.linkIntegrity_parts (l e a : Nat) : (s.linkIntegrity l e a).parts = s.parts := by obtain ⟨_, _, _, _, _, h⟩ := s.linkIntegrity_frame l e a; rw [h]
@[simp] theorem State.linkIntegrity_ctxs (l e a : Nat) : (s.linkIntegrity l e a).ctxs = s.ctxs := by obtain ⟨_, _, _, _, _, h⟩ := s.linkIntegrity_frame l e a; rw [h]
@[simp] theorem State.linkIntegrity_queues (l e a : Nat) : (s.linkIntegrity l e a).queues = s.queues := by obtain ⟨_, _, _, _, _, h⟩ := s.linkIntegrity_frame l e a; rw [h]
@[simp] theorem State.linkIntegrity_cmds (l e a : Nat) : (s.linkIntegrity l e a).cmds = s.cmds := by obtain ⟨_, _, _, _, _, h⟩ := s.linkIntegrity_frame l e a; rw [h]
@[simp] theorem State.linkIntegrity_cmdNext (l e a : Nat) : (s.linkIntegrity l e a).cmdNext = s.cmdNext := by obtain ⟨_, _, _, _, _, h⟩ := s.linkIntegrity_frame l e a; rw [h]
@[simp] theorem State.linkIntegrity_objs (l e a : Nat) : (s.linkIntegrity l e a).objs = s.objs := by obtain ⟨_, _, _, _, _, h⟩ := s.linkIntegrity_frame l e a; rw [h]
@[simp] theorem State.linkIntegrity_objLive (l e a : Nat) : (s.linkIntegrity l e a).objLive = s.objLive := by obtain ⟨_, _, _, _, _, h⟩ := s.linkIntegrity_frame l e a; rw [h]
@[simp] theorem State.linkIntegrity_watch (l e a : Nat) : (s.linkIntegrity l e a).watch = s.watch := by obtain ⟨_, _, _, _, _, h⟩ := s.linkIntegrity_frame l e a; rw [h]
@[simp] theorem State.linkIntegrity_trans (l e a : Nat) : (s.linkIntegrity l e a).trans = s.trans := by obtain ⟨_, _, _, _, _, h⟩ := s.linkIntegrity_frame l e a; rw [h]
@[simp] theorem State.linkIntegrity_tlb1 (l e a : Nat) : (s.linkIntegrity l e a).tlb1 = s.tlb1 := by obtain ⟨_, _, _, _, _, h⟩ := s.linkIntegrity_frame l e a; rw [h]
@[simp] theorem State.linkIntegrity_tlb2 (l e a : Nat) : (s.linkIntegrity l e a).tlb2 = s.tlb2 := by obtain ⟨_, _, _, _, _, h⟩ := s.linkIntegrity_frame l e a; rw [h]
@[simp] theorem State.linkIntegrity_walks (l e a : Nat) : (s.linkIntegrity l e a).walks = s.walks := by obtain ⟨_, _, _, _, _, h⟩ := s.linkIntegrity_frame l e a; rw [h]
@[simp] theorem State.linkIntegrity_walkTurn (l e a : Nat) : (s.linkIntegrity l e a).walkTurn = s.walkTurn := by obtain ⟨_, _, _, _, _, h⟩ := s.linkIntegrity_frame l e a; rw [h]
@[simp] theorem State.linkIntegrity_clock (l e a : Nat) : (s.linkIntegrity l e a).clock = s.clock := by obtain ⟨_, _, _, _, _, h⟩ := s.linkIntegrity_frame l e a; rw [h]
@[simp] theorem State.linkIntegrity_mapJob (l e a : Nat) : (s.linkIntegrity l e a).mapJob = s.mapJob := by obtain ⟨_, _, _, _, _, h⟩ := s.linkIntegrity_frame l e a; rw [h]
@[simp] theorem State.linkIntegrity_auOwner (l e a : Nat) : (s.linkIntegrity l e a).auOwner = s.auOwner := by obtain ⟨_, _, _, _, _, h⟩ := s.linkIntegrity_frame l e a; rw [h]
@[simp] theorem State.linkIntegrity_auQueue (l e a : Nat) : (s.linkIntegrity l e a).auQueue = s.auQueue := by obtain ⟨_, _, _, _, _, h⟩ := s.linkIntegrity_frame l e a; rw [h]
@[simp] theorem State.linkIntegrity_auLastCtx (l e a : Nat) : (s.linkIntegrity l e a).auLastCtx = s.auLastCtx := by obtain ⟨_, _, _, _, _, h⟩ := s.linkIntegrity_frame l e a; rw [h]
@[simp] theorem State.linkIntegrity_samplerPart (l e a : Nat) : (s.linkIntegrity l e a).samplerPart = s.samplerPart := by obtain ⟨_, _, _, _, _, h⟩ := s.linkIntegrity_frame l e a; rw [h]
@[simp] theorem State.linkIntegrity_samplerFifo (l e a : Nat) : (s.linkIntegrity l e a).samplerFifo = s.samplerFifo := by obtain ⟨_, _, _, _, _, h⟩ := s.linkIntegrity_frame l e a; rw [h]
@[simp] theorem State.linkIntegrity_samplerTurn (l e a : Nat) : (s.linkIntegrity l e a).samplerTurn = s.samplerTurn := by obtain ⟨_, _, _, _, _, h⟩ := s.linkIntegrity_frame l e a; rw [h]
@[simp] theorem State.linkIntegrity_samplerCmd (l e a : Nat) : (s.linkIntegrity l e a).samplerCmd = s.samplerCmd := by obtain ⟨_, _, _, _, _, h⟩ := s.linkIntegrity_frame l e a; rw [h]
@[simp] theorem State.linkIntegrity_samplers (l e a : Nat) : (s.linkIntegrity l e a).samplers = s.samplers := by obtain ⟨_, _, _, _, _, h⟩ := s.linkIntegrity_frame l e a; rw [h]
@[simp] theorem State.linkIntegrity_lanesTurn (l e a : Nat) : (s.linkIntegrity l e a).lanesTurn = s.lanesTurn := by obtain ⟨_, _, _, _, _, h⟩ := s.linkIntegrity_frame l e a; rw [h]

end Sys2Proof.Machine
end

