-- ==== Sys2Proof/Laws/Tables.lean ====
section
/-! SUPPORT. Sys2Proof/Laws/Tables.lean: a read after a write of a sparse table, and that every write keeps the keys
rising. -/
namespace Sys2Proof.Machine

variable {α : Type}

@[simp] theorem tblFind_put_same (t : Tbl α) (k : Nat) (v : α) : tblFind (tblPut t k v) k = some v := by
  induction t with
  | nil => simp [tblPut, tblFind]
  | cons x xs ih =>
    obtain ⟨i, w⟩ := x
    by_cases h1 : k < i
    · simp [tblPut, tblFind, h1]
    · by_cases h2 : k = i
      · simp [tblPut, tblFind, h2]
      · have h3 : ¬ i = k := fun h => h2 h.symm
        simp [tblPut, tblFind, h1, h2, h3, ih]

theorem tblFind_put_ne (t : Tbl α) {j k : Nat} (v : α) (h : j ≠ k) : tblFind (tblPut t k v) j = tblFind t j := by
  have hkj : ¬ k = j := fun e => h e.symm
  induction t with
  | nil => simp [tblPut, tblFind, hkj]
  | cons x xs ih =>
    obtain ⟨i, w⟩ := x
    by_cases h1 : k < i
    · simp [tblPut, tblFind, h1, hkj]
    · by_cases h2 : k = i
      · subst h2
        simp [tblPut, tblFind, hkj]
      · simp [tblPut, tblFind, h1, h2, ih]

@[simp] theorem tblFind_del_same (t : Tbl α) (k : Nat) : tblFind (tblDel t k) k = none := by
  induction t with
  | nil => rfl
  | cons x xs ih =>
    obtain ⟨i, w⟩ := x
    by_cases h : i = k
    · simp [tblDel, h, ih]
    · simp [tblDel, tblFind, h, ih]

theorem tblFind_del_ne (t : Tbl α) {j k : Nat} (h : j ≠ k) : tblFind (tblDel t k) j = tblFind t j := by
  have hkj : ¬ k = j := fun e => h e.symm
  induction t with
  | nil => rfl
  | cons x xs ih =>
    obtain ⟨i, w⟩ := x
    by_cases hi : i = k
    · subst hi
      simp [tblDel, tblFind, hkj, ih]
    · simp [tblDel, tblFind, hi, ih]

section
variable [DecidableEq α]

@[simp] theorem tblGet_set_same (t : Tbl α) (k : Nat) (v d : α) : tblGet (tblSet t k v d) k d = v := by
  by_cases h : v = d <;> simp [tblGet, tblSet, h]

theorem tblGet_set_ne (t : Tbl α) {j k : Nat} (v d e : α) (h : j ≠ k) : tblGet (tblSet t k v d) j e = tblGet t j e := by
  by_cases hv : v = d <;> simp [tblGet, tblSet, hv, tblFind_put_ne _ _ h, tblFind_del_ne _ h]

@[simp] theorem tblGet_mod_same (t : Tbl α) (k : Nat) (f : α → α) (d : α) : tblGet (tblMod t k f d) k d = f (tblGet t k d) := by
  simp [tblMod]

theorem tblGet_mod_ne (t : Tbl α) {j k : Nat} (f : α → α) (d e : α) (h : j ≠ k) : tblGet (tblMod t k f d) j e = tblGet t j e := by
  simp [tblMod, tblGet_set_ne _ _ _ _ h]

end

/-- Every key of a table is above `b`. -/
def tblAbove (b : Nat) (t : Tbl α) : Prop := ∀ x ∈ t, b < x.1

theorem tblRising_cons {i : Nat} {w : α} {t : Tbl α} : tblRising ((i, w) :: t) = true ↔ tblAbove i t ∧ tblRising t = true := by
  induction t generalizing i w with
  | nil => simp [tblRising, tblAbove]
  | cons x xs ih =>
    obtain ⟨j, u⟩ := x
    constructor
    · intro h
      simp only [tblRising, Bool.and_eq_true, decide_eq_true_eq] at h
      refine ⟨?_, h.2⟩
      intro y hy
      rcases List.mem_cons.1 hy with rfl | hy
      · exact h.1
      · exact Nat.lt_trans h.1 ((ih.1 h.2).1 y hy)
    · intro h
      simp only [tblRising, Bool.and_eq_true, decide_eq_true_eq]
      exact ⟨h.1 _ List.mem_cons_self, h.2⟩

theorem tblAbove_put {b k : Nat} {t : Tbl α} {v : α} (h : tblAbove b t) (hk : b < k) : tblAbove b (tblPut t k v) := by
  induction t with
  | nil => intro x hx; simp [tblPut] at hx; subst hx; exact hk
  | cons y ys ih =>
    obtain ⟨i, w⟩ := y
    have hy : tblAbove b ys := fun x hx => h x (List.mem_cons_of_mem _ hx)
    have hi : b < i := h (i, w) List.mem_cons_self
    intro x hx
    by_cases h1 : k < i
    · simp only [tblPut, h1, if_true, List.mem_cons] at hx
      rcases hx with rfl | rfl | hx
      all_goals first | exact hk | exact hi | exact hy x hx
    · by_cases h2 : k = i
      · simp only [tblPut, h2, Nat.lt_irrefl, if_false, if_true, List.mem_cons] at hx
        rcases hx with rfl | hx
        all_goals first | exact hi | exact hy x hx
      · simp only [tblPut, h1, h2, if_false, List.mem_cons] at hx
        rcases hx with rfl | hx
        all_goals first | exact hi | exact ih hy x hx

theorem tblRising_put {k : Nat} {t : Tbl α} {v : α} (h : tblRising t = true) : tblRising (tblPut t k v) = true := by
  induction t with
  | nil => rfl
  | cons y ys ih =>
    obtain ⟨i, w⟩ := y
    have h0 := tblRising_cons.1 h
    by_cases h1 : k < i
    · simp only [tblPut, h1, if_true]
      refine tblRising_cons.2 ⟨?_, h⟩
      intro x hx
      rcases List.mem_cons.1 hx with rfl | hx
      all_goals first | exact h1 | exact Nat.lt_trans h1 (h0.1 x hx)
    · by_cases h2 : k = i
      · subst h2
        simp only [tblPut, Nat.lt_irrefl, if_false, if_true]
        exact tblRising_cons.2 h0
      · simp only [tblPut, h1, h2, if_false]
        exact tblRising_cons.2 ⟨tblAbove_put h0.1 (by omega), ih h0.2⟩

theorem tblAbove_del {b k : Nat} {t : Tbl α} (h : tblAbove b t) : tblAbove b (tblDel t k) := by
  induction t with
  | nil => exact h
  | cons y ys ih =>
    obtain ⟨i, w⟩ := y
    have hy : tblAbove b ys := fun x hx => h x (List.mem_cons_of_mem _ hx)
    by_cases hi : i = k
    · simpa [tblDel, hi] using ih hy
    · intro x hx
      simp only [tblDel, hi, if_false, List.mem_cons] at hx
      rcases hx with rfl | hx
      all_goals first | exact h _ List.mem_cons_self | exact ih hy x hx

theorem tblRising_del {k : Nat} {t : Tbl α} (h : tblRising t = true) : tblRising (tblDel t k) = true := by
  induction t with
  | nil => rfl
  | cons y ys ih =>
    obtain ⟨i, w⟩ := y
    have h0 := tblRising_cons.1 h
    by_cases hi : i = k
    · simpa [tblDel, hi] using ih h0.2
    · simp only [tblDel, hi, if_false]
      exact tblRising_cons.2 ⟨tblAbove_del h0.1, ih h0.2⟩

theorem tblRising_set [DecidableEq α] {k : Nat} {t : Tbl α} {v d : α} (h : tblRising t = true) : tblRising (tblSet t k v d) = true := by
  by_cases hv : v = d
  · simpa [tblSet, hv] using tblRising_del h
  · simpa [tblSet, hv] using tblRising_put h

theorem tblRising_mod [DecidableEq α] {k : Nat} {t : Tbl α} {f : α → α} {d : α} (h : tblRising t = true) :
    tblRising (tblMod t k f d) = true := tblRising_set h

end Sys2Proof.Machine
end

