-- ==== Sys2Proof/Laws/Rows.lean ====
section
/-! SUPPORT. Sys2Proof/Laws/Rows.lean: what the shared ends of the rows answer: delivery where nothing is due, rows of a unit,
and the one path of every dictionary write (R454, R460, R461). -/
namespace Sys2Proof.Machine

variable (s : State)

/-- With no outcome due, delivery changes nothing. -/
theorem settle_of_due (h : s.due = []) : s.settle = s := by
  show settleOn (999999 + 1) s = s
  simp only [settleOn, h]

theorem doneS_of_due (h : s.due = []) : doneS s = .next s := by simp [doneS, settle_of_due s h]

@[simp] theorem withUnit_true (o : Host.Outcome State Fault Refusal) : withUnit true o = o := rfl

@[simp] theorem withUnit_false (o : Host.Outcome State Fault Refusal) : withUnit false o = .fault .absentUnit := rfl

theorem whenAlive_of (f : State → State) (h : s.alive = true) : s.whenAlive f = f s := by simp [State.whenAlive, h]

theorem whenRunning_of (f : State → State) (h : s.running = true) : s.whenRunning f = f s := by simp [State.whenRunning, h]

theorem portRow_of {m : Nat} {f : State → State} (hm : m < s.cfg.memPorts) (h : s.alive = true) (hk : s.sealing = true)
    (hd : (f s).due = []) : s.portRow m f = .next (f s) := by
  simp [State.portRow, hm, whenAlive_of s _ h, hk, doneS_of_due _ hd]

/-- In S0 every unit is clocked: a dictionary request wakes nothing. -/
theorem wakeFor_of_S0 (i : Nat) (h : s.power.state = 0) : s.wakeFor i = s := by simp [State.wakeFor, h]

theorem wakeWrite_of_S0 (i j : Nat) (h : s.power.state = 0) : s.wakeWrite i j = s := by simp [State.wakeWrite, State.wakeFor, h]

/-- A write that every gate passes and whose effect is `u` ends with its audit record and its answer. -/
theorem dictWrite_ok {m : Mgmt} {i j : Nat} {v : Bytes} {act : State → Except Nat State} {u : State} {e : Entry}
    (hs : s.serving = true) (hg : s.writeGate m i j = 0) (hb : (s.session (sessionNum m)).buffer = none)
    (he : entryRow i j = some e) (hl : lengthOk e 0 true v = true) (hp : s.faults.phase = 0) (hc : s.life.confirm ≠ 2)
    (ha : act (s.wakeWrite i j) = .ok u) :
    s.dictWrite m i j v act = u.endWrite m i j v (s.roleOf m) (s.keyIdOf m) 0 := by
  simp [State.dictWrite, State.dictSegment, hs, hg, hb, he, hl, hp, hc, ha, segmentGate]

/-- A write that every gate passes and whose own checks refuse it changes nothing but the log, the counts and the answer. -/
theorem dictWrite_refused {m : Mgmt} {i j a : Nat} {v : Bytes} {act : State → Except Nat State} {e : Entry}
    (hs : s.serving = true) (hg : s.writeGate m i j = 0) (hb : (s.session (sessionNum m)).buffer = none)
    (he : entryRow i j = some e) (hl : lengthOk e 0 true v = true) (hp : s.faults.phase = 0) (hc : s.life.confirm ≠ 2)
    (ha : act (s.wakeWrite i j) = .error a) (h403 : a ≠ 0x0403) (hsmall : a < 65536) :
    s.dictWrite m i j v act = s.endWrite m i j v (s.roleOf m) (s.keyIdOf m) a := by
  simp [State.dictWrite, State.dictSegment, hs, hg, hb, he, hl, hp, hc, ha, segmentGate, h403, hsmall, Nat.mod_eq_of_lt hsmall]

/-- A write that role, existence or rights refuse (steps 3 to 5 of R460). -/
theorem dictWrite_gated {m : Mgmt} {i j : Nat} {v : Bytes} {act : State → Except Nat State}
    (hs : s.serving = true) (hg : s.writeGate m i j ≠ 0) :
    s.dictWrite m i j v act = s.endWrite m i j v (s.roleOf m) (s.keyIdOf m) (s.writeGate m i j) := by
  have hw : s.writeGate m i j ≠ 0x0403 ∧ s.writeGate m i j < 65536 := by
    unfold State.writeGate
    repeat' split
    all_goals decide
  simp [State.dictWrite, State.dictSegment, hs, hg, hw.1, hw.2, Nat.mod_eq_of_lt hw.2]

/-! ## Reads after writes of the keyed tables -/

@[simp] theorem modPort_port (m : Nat) (f : MemPort → MemPort) : (s.modPort m f).port m = f (s.port m) := by simp [State.port]
@[simp] theorem modLink_link (l : Nat) (f : Link → Link) : (s.modLink l f).link l = f (s.link l) := by simp [State.link]
@[simp] theorem modChip_chip (c : Nat) (f : Chip → Chip) : (s.modChip c f).chip c = f (s.chip c) := by simp [State.chip]
@[simp] theorem modHost_host (h : Nat) (f : HostPort → HostPort) : (s.modHost h f).host h = f (s.host h) := by simp [State.host]
@[simp] theorem modSlot_hslot (i : Nat) (f : HostSlot → HostSlot) : (s.modSlot i f).hslot i = f (s.hslot i) := by simp [State.hslot]
@[simp] theorem modCtx_ctx (n : Nat) (f : Ctx → Ctx) : (s.modCtx n f).ctx n = f (s.ctx n) := by simp [State.ctx]
@[simp] theorem modPart_partn (p : Nat) (f : Part → Part) : (s.modPart p f).partn p = f (s.partn p) := by simp [State.partn]
@[simp] theorem modQueue_queue (q : Nat) (f : Queue → Queue) : (s.modQueue q f).queue q = f (s.queue q) := by simp [State.queue]
@[simp] theorem modCmd_cmd (c : Nat) (f : Cmd → Cmd) : (s.modCmd c f).cmd c = f (s.cmd c) := by simp [State.cmd]
@[simp] theorem modTdi_tdi (k : Nat) (f : Tdi → Tdi) : (s.modTdi k f).tdi k = f (s.tdi k) := by simp [State.tdi]
@[simp] theorem modTrans_transOf (p : Nat) (f : Trans → Trans) : (s.modTrans p f).transOf p = f (s.transOf p) := by simp [State.transOf]
@[simp] theorem putSlot_slot (i : Nat) (k : KeySlot) : (s.putSlot i k).slot i = s.placed i k := by simp [State.slot]
@[simp] theorem modSession_session (n : Nat) (f : MgmtSession → MgmtSession) : (s.modSession n f).session n = f (s.session n) := by
  simp [State.session]
@[simp] theorem setSetting_setting (i j v : Nat) : (s.setSetting i j v).setting i j = v := by simp [State.setting]
@[simp] theorem setCount_count (i j v : Nat) : (s.setCount i j v).count i j = v := by simp [State.count]
@[simp] theorem bumpBy_count (i j n : Nat) : (s.bumpBy i j n).count i j = if s.countsNow i then capTo 64 (s.count i j + n) else s.count i j := by
  simp only [State.count, State.bumpBy_ctr]
  split <;> simp
@[simp] theorem bump_count (i j : Nat) : (s.bump i j).count i j = if s.countsNow i then capTo 64 (s.count i j + 1) else s.count i j := bumpBy_count s i j 1

theorem modPort_port_ne {m k : Nat} (f : MemPort → MemPort) (h : k ≠ m) : (s.modPort m f).port k = s.port k := by
  simp [State.port, tblGet_mod_ne _ _ _ _ h]
theorem modLink_link_ne {m k : Nat} (f : Link → Link) (h : k ≠ m) : (s.modLink m f).link k = s.link k := by
  simp [State.link, tblGet_mod_ne _ _ _ _ h]
theorem modChip_chip_ne {m k : Nat} (f : Chip → Chip) (h : k ≠ m) : (s.modChip m f).chip k = s.chip k := by
  simp [State.chip, tblGet_mod_ne _ _ _ _ h]
theorem modQueue_queue_ne {m k : Nat} (f : Queue → Queue) (h : k ≠ m) : (s.modQueue m f).queue k = s.queue k := by
  simp [State.queue, tblGet_mod_ne _ _ _ _ h]
theorem modCtx_ctx_ne {m k : Nat} (f : Ctx → Ctx) (h : k ≠ m) : (s.modCtx m f).ctx k = s.ctx k := by
  simp [State.ctx, tblGet_mod_ne _ _ _ _ h]
theorem modPart_partn_ne {m k : Nat} (f : Part → Part) (h : k ≠ m) : (s.modPart m f).partn k = s.partn k := by
  simp [State.partn, tblGet_mod_ne _ _ _ _ h]
theorem modCmd_cmd_ne {m k : Nat} (f : Cmd → Cmd) (h : k ≠ m) : (s.modCmd m f).cmd k = s.cmd k := by
  simp [State.cmd, tblGet_mod_ne _ _ _ _ h]
theorem putSlot_slot_ne {m i : Nat} (k : KeySlot) (h : i ≠ m) : (s.putSlot m k).slot i = s.slot i := by
  simp [State.slot, tblGet_set_ne _ _ _ _ h]

end Sys2Proof.Machine
end

