-- ==== Sys2Proof/Laws/Counts.lean ====
section
/-! SUPPORT. Sys2Proof/Laws/Counts.lean: which counters the shared operations leave alone. -/
namespace Sys2Proof.Machine

variable (s : State)

theorem bumpBy_count_ne {i j i' j' n : Nat} (h : ekey i j ≠ ekey i' j') : (s.bumpBy i' j' n).count i j = s.count i j := by
  simp only [State.count, State.bumpBy_ctr]
  split <;> simp [tblGet_mod_ne _ _ _ _ h]

theorem bump_count_ne {i j i' j' : Nat} (h : ekey i j ≠ ekey i' j') : (s.bump i' j').count i j = s.count i j :=
  bumpBy_count_ne s h

/-- A trace record counts only the records it had to discard (0x6220.06 and .07). -/
theorem trace_count {i j ty k u : Nat} {p : Option Nat} {c : Nat} {w : List Nat} (h6 : ekey i j ≠ ekey 0x6220 6)
    (h7 : ekey i j ≠ ekey 0x6220 7) : (s.trace ty k u p c w).count i j = s.count i j := by
  have hr : ∀ (t : State) (ws : List Nat), (t.traceRegion ws).count i j = t.count i j := fun t ws =>
    pred_ite (P := fun u => u.count i j = t.count i j) rfl (bump_count_ne _ h6)
  have hp : ∀ (t : State) (ws : List Nat), (t.tracePort ws).count i j = t.count i j := fun t ws =>
    pred_ite (P := fun u => u.count i j = t.count i j)
      (pred_ite (P := fun u => u.count i j = t.count i j) rfl (bump_count_ne _ h7)) rfl
  refine pred_ite (P := fun u => u.count i j = s.count i j) ?_ rfl
  show (State.tracePort _ _).count i j = _
  rw [hp]
  exact pred_ite (P := fun u => u.count i j = s.count i j) rfl (hr s _)

/-- Recording an error counts it in 0x6206.01. -/
theorem error_count {i j k u : Nat} {p : Option Nat} {e a : Nat} (h1 : ekey i j ≠ ekey 0x6206 1) (h6 : ekey i j ≠ ekey 0x6220 6)
    (h7 : ekey i j ≠ ekey 0x6220 7) : (s.error k u p e a).count i j = s.count i j := by
  unfold State.error
  rw [trace_count _ h6 h7, bump_count_ne _ h1]

/-- A notice counts only the one that it pushed out (0x6000.08). -/
theorem note_count {i j k sc e : Nat} {p : Option Nat} {c a b : Nat} (h : ekey i j ≠ ekey 0x6000 8) :
    (s.note k sc e p c a b).count i j = s.count i j := by
  exact pred_ite (P := fun u => u.count i j = s.count i j) rfl (bump_count_ne _ h)

theorem audit_count {i j ev ro se x y c v key : Nat} (h : ekey i j ≠ ekey 0x6000 8) :
    (s.audit ev ro se x y c v key).count i j = s.count i j := by
  exact pred_ite (P := fun u => u.count i j = s.count i j) (note_count _ h) rfl

/-- The end of a dictionary write counts the request (0x1121). -/
theorem endWrite_count {i j x y a key : Nat} {m : Mgmt} {v : Bytes} {r : Role} (h : ekey i j ≠ ekey 0x6000 8)
    (h1 : ekey i j ≠ ekey 0x1121 1) (h2 : ekey i j ≠ ekey 0x1121 2) : (s.endWrite m x y v r key a).count i j = s.count i j := by
  have hb : ∀ t : State, (t.bump 0x1121 (if a = 0 then 1 else 2)).count i j = t.count i j := by
    intro t
    split
    · exact bump_count_ne _ h1
    · exact bump_count_ne _ h2
  show (State.bump _ _ _).count i j = _
  rw [hb]
  exact pred_ite (P := fun u => u.count i j = s.count i j) (audit_count _ h) rfl

end Sys2Proof.Machine
end

