-- ==== Sys2Proof/Laws/Crypto.lean ====
section
/-! SUPPORT. Sys2Proof/Laws/Crypto.lean: the lengths of byte strings, hashes, tags and IDE MACs. -/
namespace Sys2Proof.Machine

@[simp] theorem leBytes_length (n v : Nat) : (leBytes n v).length = n := by
  induction n generalizing v with
  | zero => rfl
  | succ n ih => simp [leBytes, ih]

@[simp] theorem beBytes_length (n v : Nat) : (beBytes n v).length = n := by simp [beBytes]

@[simp] theorem padTo_length (n : Nat) (b : Bytes) : (padTo n b).length = n := by
  simp [padTo]
  omega

@[simp] theorem xorBytes_length (a b : Bytes) : (xorBytes a b).length = min a.length b.length := by simp [xorBytes]

@[simp] theorem ghash_length (h a t : Bytes) : (ghash h a t).length = 16 := by
  unfold ghash ghashRun
  generalize chunks 16 _ = l
  rcases List.eq_nil_or_concat l with rfl | ⟨l, x, rfl⟩
  · simp
  · simp [ghashMul]

/-- A GCM tag has sixteen bytes, as the counter block it is masked with has. -/
theorem gcmTag_length {key iv : Bytes} (hk : (aesEnc key (iv ++ [0#8, 0#8, 0#8, 1#8])).length = 16) (a t : Bytes) :
    (gcmTag key iv a t).length = 16 := by simp [gcmTag, hk]

theorem ideMac_length {key : Bytes} {n : Nat} (hk : (aesEnc key (ideIv n ++ [0#8, 0#8, 0#8, 1#8])).length = 16) (a t : Bytes) :
    (ideMac key n a t).length = 12 := by simp [ideMac, gcmTag_length hk]

/-- What an IDE check answers on the stream of a slot whose key is at hand: with the MAC its text, and the invocation counted. -/
theorem ideOpen_passed {s : State} {h stream sub i : Nat} {k : HostSlot} {key hdr ct mac : Bytes} (hs : s.streamSlot h stream = some (i, k))
    (hk : s.ideKey k sub true = some key) (hp : s.takeInjection 0x14 h = none) (hm : ideMac key (tblGet k.rxCount sub 0) hdr ct = mac) {text : Bytes}
    (ht : s.pcrcTake h stream (gcmCrypt key (ideIv (tblGet k.rxCount sub 0)) ct) = some text) :
    s.ideOpen h stream sub hdr ct mac = (.passed text,
      s.modSlot i fun y => { y with rxCount := tblSet y.rxCount sub (tblGet k.rxCount sub 0 + 1) 0 }) := by
  simp only [State.ideOpen, hs, hk, hp, hm, ht, if_true]

/-- Without the MAC it fails and releases nothing. -/
theorem ideOpen_failed {s : State} {h stream sub i : Nat} {k : HostSlot} {key hdr ct mac : Bytes} (hs : s.streamSlot h stream = some (i, k))
    (hk : s.ideKey k sub true = some key) (hp : s.takeInjection 0x14 h = none) (hm : ideMac key (tblGet k.rxCount sub 0) hdr ct ≠ mac) :
    s.ideOpen h stream sub hdr ct mac = (.failed, s) := by
  simp [State.ideOpen, hs, hk, hp, hm]

end Sys2Proof.Machine
end

