-- ==== Sys2Proof/Laws/Keys.lean ====
section
/-! SUPPORT. Sys2Proof/Laws/Keys.lean: everything the end of a key-slot port command changes, where the key store did the
command and where it refused it, and what a trace record of a state change or a line access changes. -/
namespace Sys2Proof.Machine

variable (s : State)

/-- A command that the key store did: the port's registers, the trace, and nothing of the counters 0x4000.03 and .04. -/
theorem State.kspDone_ok (t : State) (op slot kind arg ctx : Nat) :
    ∃ r c, s.kspDone op slot kind arg ctx (.ok t) =
      { t with keys := { t.keys with cmd := op + kind * 2 ^ 8, slotReg := slot, arg := arg, ctx := ctx, seed := [], done := true }, records := r, ctr := c } ∧
      tblGet c (ekey 0x4000 3) 0 = t.count 0x4000 3 ∧ tblGet c (ekey 0x4000 4) 0 = t.count 0x4000 4 := by
  let u := t.modKeys fun ks => { ks with cmd := op + kind * 2 ^ 8, slotReg := slot, arg, ctx, seed := [], done := true }
  let w := [slot + op * 2 ^ 16 + (t.slot slot).gen * 2 ^ 32]
  obtain ⟨r, c, h⟩ := State.trace_frame u 9 8 0 none 0 w
  refine ⟨r, c, by simp only [State.kspDone]; exact h, ?_, ?_⟩
  · have := trace_count (i := 0x4000) (j := 3) u (ty := 9) (k := 8) (u := 0) (p := none) (c := 0) (w := w) (by decide) (by decide)
    rw [h] at this; exact this
  · have := trace_count (i := 0x4000) (j := 4) u (ty := 9) (k := 8) (u := 0) (p := none) (c := 0) (w := w) (by decide) (by decide)
    rw [h] at this; exact this

/-- A command that the key store refused with cause `e`: no slot changes. -/
theorem State.kspDone_error (op slot kind arg ctx e : Nat) :
    ∃ r c, s.kspDone op slot kind arg ctx (.error e) =
      { s with keys := { s.keys with cmd := op + kind * 2 ^ 8, slotReg := slot, arg := arg, ctx := ctx, seed := [], err := true,
                                     cause := if (op = 3 || op = 4) && e = 1 then 6 else e }, records := r, ctr := c } := by
  simp only [State.kspDone, State.keyRefused, State.refuseUse]
  let u := s.modKeys fun ks =>
    { ks with cmd := op + kind * 2 ^ 8, slotReg := slot, arg, ctx, seed := [], err := true, cause := if (op = 3 || op = 4) && e = 1 then 6 else e }
  split
  · obtain ⟨r, c, h⟩ := State.error_frame (u.bump 0x4000 4) 8 0 none 0x8001 0
    exact ⟨r, c, h⟩
  · obtain ⟨r, c, h⟩ := State.error_frame u 8 0 none (0x8000 + e) 0
    exact ⟨r, c, h⟩

/-- A record of a state change touches the trace and its loss counters alone. -/
theorem State.stateTrace_frame (k u a b : Nat) : ∃ r c, s.stateTrace k u a b = { s with records := r, ctr := c } := by
  unfold State.stateTrace
  split
  · exact ⟨s.records, s.ctr, rfl⟩
  · exact State.trace_frame s 8 k u none 0 _

/-- A record of a line access touches the trace and its loss counters alone. -/
theorem State.accessTrace_frame (m p l k : Nat) : ∃ r c, s.accessTrace m p l k = { s with records := r, ctr := c } :=
  State.trace_frame s 4 0 m (some p) 0 _

/-- What a sampler's hand-off changes: the counters alone. -/
theorem State.samplerFreed_frame (id : Nat) : ∃ c, s.samplerFreed id = { s with ctr := c } := by
  unfold State.samplerFreed
  split
  · exact ⟨_, rfl⟩
  · exact ⟨s.ctr, rfl⟩

end Sys2Proof.Machine
end

