-- ==== Sys2Proof/WellFormed.lean ====
section
/-! DEFINITION. Sys2Proof/WellFormed.lean: which commands can be sent at all: every unit number within the largest
configuration of Table 2.1, every register image of its width. What a command asks is judged by its meaning. -/
namespace Sys2Proof

/-- A request's session number: four management sessions at most (R351). -/
def Mgmt.wf (m : Mgmt) : Bool := m.session.all fun n => decide (n < 4)

/-- A frame port that Table 2.1 can give. -/
def FramePort.wf : FramePort → Bool
  | .link l => decide (l < 32)
  | .chip c => decide (c < 8)

/-- A peer that Table 14.1 can give. -/
def Peer.wf : Peer → Bool
  | .host h _ => decide (h < 4)
  | .mgmt n => n.all fun n => decide (n < 4)
  | .chip c => decide (c < 8)
  | .link l => decide (l < 32)

/-- A sender of doorbells. -/
def Ringer.wf : Ringer → Bool
  | .host h fn => decide (h < 4) && decide (fn < 4096)
  | .chip c => decide (c < 8)

/-- The well-formed commands. -/
def Instr.wf : Instr → Bool
  | .powerOnReset _ _ | .blockReset _ | .powerStateEntry | .wakeEvent _ | .exitComplete | .regulationWindow _ _ |
    .alarmEvent _ | .alarmWindow | .debugPortAccess _ | .routeHoldExpiry | .earlyArrivalExpiry _ |
    .slotIdleExpiry _ | .nop _ | .fenceBase _ | .ctxReset _ | .objCreate _ | .objFree _ | .freeQuiescence _ |
    .attentionStep _ | .shardMerge _ | .kvAppend _ | .sample _ | .bridgeStream _ | .reduce _ | .merge _ |
    .invalidateCommand _ | .mapDone | .walk | .kspStatusClear _ | .scrubberVisit | .masterReseed |
    .childReseed _ | .drbgStop | .gceKeysel _ | .loadH | .shaInit | .drbg | .shaClear | .gceStatusClear _ |
    .commitDone | .confirmationTimeout | .clearing | .clearingDone | .loginHoldoffExpiry | .vigilScan |
    .blockFault _ | .snapshotTimeout | .abortWaitExpiry | .holdExpiry | .harvestSample | .block _ _ _ | .go _ |
    .status _ | .imageVerified | .joinBoundExpiry | .powerOnResetAssert | .traceStreamTransfer |
    .entropyWord _ => true
  | .portPhysicalReset _ i | .portResetRelease _ i => decide (i < 32)
  | .functionLevelReset h fn | .hpCfgAccess h fn _ _ _ _ => decide (h < 4) && decide (fn < 4096)
  | .releaseFencedPartition m p | .translationRecordWrite m p _ | .partitionCreate m p _ |
    .partitionResize m p _ | .partitionRemove m p _ | .guaranteeWrite m _ p _ |
    .jobAbort m p => m.wf && decide (p < 64)
  | .lineRequestIssue port lane | .lineResponse port lane _ _ _ | .lineBoundExpiry port lane _ |
    .laneWaitTimeout port lane => decide (port < 8) && decide (lane < 8)
  | .controllerUp port | .controllerDown port | .orderPointTake port _ | .moveReadRetry port _ |
    .writeBack port _ | .writeBackRetry port _ | .counterLineRetry port _ | .formatComplete port |
    .regionInitComplete port | .scrubComplete port | .automaticInterval port | .sweepStart port |
    .readAhead port | .readAheadRetry port _ | .edgeStep port | .sweepComplete port => decide (port < 8)
  | .format m port _ => m.wf && decide (port < 8)
  | .regionCreate m port region _ | .regionRemove m port region _ | .regionScrub m port region |
    .sweepQueue m port region => m.wf && decide (port < 8) && decide (region < 256)
  | .regionRemovalDone port region => decide (port < 8) && decide (region < 256)
  | .pcsUp l | .pcsDown l _ | .hello l | .helloTimer l | .linkAttestationStart l | .frameReceived l _ _ |
    .plainFrame l _ | .frameTransmit l | .silenceTimeout l | .linkBoundExpiry l | .attestationHoldoff l |
    .linkIdle l | .linkIdleAck l | .wakeFrame l | .wakeRepeat l | .wakeUnanswered l | .domainAbort l |
    .invalidateMessage l | .readData l | .completion l | .atomicData l | .chunkAck l |
    .joinGrant l _ _ _ _ => decide (l < 32)
  | .nak p | .nakHoldoffExpiry p | .keepalive p | .keyUpdateComplete p | .read p | .write p | .writePartial p |
    .atomic p | .chunk p | .getVersion p | .getCapabilities p | .negotiateAlgorithms p _ |
    .getCertificate p _ _ _ | .challenge p _ _ | .getMeasurements p _ _ _ | .keyExchange p _ | .finish p _ |
    .heartbeat p | .keyUpdate p | .endSession p | .getPqSignature p | .getPqChain p _ _ | .spdmResponse p _ |
    .heartbeatTimeout p => p.wf
  | .keyUpdateStart p m => p.wf && (m.all Mgmt.wf)
  | .routeCommit m _ | .levelWrite m _ | .map m _ | .unmap m _ | .randomRead m _ _ | .formatPermitWrite m _ _ _ |
    .tdiRecordWrite m _ _ _ | .imageBlock m _ | .stage m | .commit m | .discard m | .certificateChainWrite m _ _ |
    .generateSecret m _ | .serialWrite m _ | .debugKeyDigestWrite m _ | .targetState m _ | .confirmation m _ |
    .debugChallenge m | .submit m | .openInTest m | .closeByBlockReset m | .dictionaryRead m _ |
    .dictionaryWrite m _ | .describe m _ | .roleChallenge m _ | .roleLogin m _ _ _ _ | .roleLogout m |
    .auditRead m _ _ | .notice m | .auditCheckpoint m _ _ | .blockFaultCommand m _ | .injectionArm m _ |
    .harvestListWrite m _ _ | .harvestSelect m _ | .traceEnable m _ | .gateOpen m _ | .found m |
    .joinCommand m => m.wf
  | .linkDisable m l _ => m.wf && decide (l < 32)
  | .combiningWindowExpiry e | .combinedDeparture e => decide (e < 4096)
  | .fabricTimeout otag | .otagRelease otag => decide (otag < 8192)
  | .ctxFaultClear h fn ctx _ | .queueRead h fn ctx | .queueEnable h fn ctx |
    .queueDisable h fn ctx => decide (h < 4) && decide (fn < 4096) && decide (ctx < 16384)
  | .doorbell r q _ _ => r.wf && decide (q < 262144)
  | .queueDisabled q | .descriptorAccept q | .commandStart q | .fenceSignal q | .fenceReread q |
    .fencePoll q => decide (q < 262144)
  | .contextCreate m ctx _ | .contextUpdate m ctx _ | .contextDestroy m ctx _ => m.wf && decide (ctx < 16384)
  | .contextReset ctx | .contextResetDone ctx => decide (ctx < 16384)
  | .partitionReset p | .partitionResetDone p | .tableZeroingDone p | .walkComplete p _ | .resizeComplete p |
    .removalComplete p => decide (p < 64)
  | .sliceBoundary au => decide (au < 32)
  | .samplerDispatch sampler => decide (sampler < 4)
  | .bridgeLaneService c | .chipletActive c _ | .moduleLeavesActive c | .chipletAdmissionStart c |
    .admission c _ | .admissionBoundExpiry c | .refusalHoldoffExpiry c | .chipletFrame c _ |
    .chipletFrameTransmit c | .standbyAck c | .standbyAckTimeout c | .standbyRetry c | .chipletWakeFrame c |
    .chipletWakeTimeout c => decide (c < 8)
  | .createDerived slot _ _ _ _ | .createSeed slot _ _ _ _ _ | .setNext slot _ | .advance slot |
    .invalidate slot | .retire slot | .setUse slot _ | .readDir slot => decide (slot < 65856)
  | .enc din | .dec din => decide (din.length = 16)
  | .ctrEnc r _ | .ghash r => decide (r.din.length = 16) && r.reg.all fun b => decide (b.length = 16)
  | .shaBlock blk => decide (blk.length = 128)
  | .partitionBind m c p => m.wf && decide (c < 8) && decide (p < 256)
  | .hostTlp h _ | .hostDmaCompletion h _ _ _ => decide (h < 4)
  | .keyProg h slot _ _ _ _ _ | .kSetGo h slot _ _ | .kSetStop h slot _ | .query h slot |
    .lockInterface h slot _ | .getDeviceInterfaceReport h slot _ | .startInterface h slot _ |
    .stopInterface h slot _ | .getDeviceInterfaceState h slot _ | .getTdispVersion h slot _ |
    .getTdispCapabilities h slot _ => decide (h < 4) && decide (slot < 1024)
  | .join l member => decide (l < 32) && decide (member < 4096)

end Sys2Proof
end

