-- ==== Sys2Proof/Tests/Slice0.lean ====
section
/-! SUPPORT. Sys2Proof/Tests/Slice0.lean: ill-formed commands that the check refuses, the manual's worked examples, and,
for every statement with hypotheses, states and operands that meet the hypotheses of each of its clauses together. -/
namespace Sys2Proof.Tests
open Sys2Proof.Machine Sys2Proof.Ob
set_option Elab.async false

/-! ## Helpers: ways to meet a hypothesis by evaluation -/

theorem passes_of {s : State} {m : Mgmt} {i j : Nat} {v : Bytes} (h : (s.serving && decide (s.due = []) && decide (s.writeGate m i j = 0) &&
    (s.session (sessionNum m)).buffer.isNone && ((entryRow i j).any fun e => lengthOk e 0 true v) && decide (s.faults.phase = 0) &&
    decide (s.life.confirm ≠ 2)) = true) : passes s m i j v := by
  simp only [Bool.and_eq_true, decide_eq_true_eq, Option.isNone_iff_eq_none, Option.any_eq_true] at h
  obtain ⟨⟨⟨⟨⟨⟨a, b⟩, c⟩, d⟩, e⟩, f⟩, g⟩ := h
  exact ⟨a, b, c, d, e, f, g⟩

theorem granted_of {s : State} {m : Mgmt} {i j : Nat} {v : Bytes} (h : ((s.serving && decide (s.due = []) && decide (s.writeGate m i j = 0) &&
    (s.session (sessionNum m)).buffer.isNone && ((entryRow i j).any fun e => lengthOk e 0 true v) && decide (s.faults.phase = 0) &&
    decide (s.life.confirm ≠ 2)) && decide (s.power.state = 0)) = true) : granted s m i j v := by
  rw [Bool.and_eq_true, decide_eq_true_eq] at h
  exact ⟨passes_of h.1, by simp [State.wakeWrite, State.wakeFor, h.2]⟩

theorem some_ab {α β : Type} {o : Option (α × β)} (h : o.isSome = true) : ∃ (a : α) (b : β), o = some (a, b) := by
  cases o with
  | none => cases h
  | some x => exact ⟨x.1, x.2, rfl⟩

theorem some_ba {α β : Type} {o : Option (α × β)} (h : o.isSome = true) : ∃ (b : β) (a : α), o = some (a, b) := by
  obtain ⟨a, b, h⟩ := some_ab h
  exact ⟨b, a, h⟩

theorem some_abc {α β γ : Type} {o : Option (α × β × γ)} (h : o.isSome = true) : ∃ (a : α) (b : β) (c : γ), o = some (a, b, c) := by
  obtain ⟨a, b, h⟩ := some_ab h
  exact ⟨a, b.1, b.2, h⟩

theorem some_a {α : Type} {o : Option α} (h : o.isSome = true) : ∃ a : α, o = some a := Option.isSome_iff_exists.mp h

theorem ok_u {α ε : Type} {o : Except ε α} (h : o.isOk = true) : ∃ a : α, o = .ok a := by
  cases o with
  | error => cases h
  | ok x => exact ⟨x, rfl⟩

theorem ok_ku {α β ε : Type} {o : Except ε (α × β)} (h : o.isOk = true) : ∃ (a : α) (b : β), o = .ok (a, b) := by
  obtain ⟨x, h⟩ := ok_u h
  exact ⟨x.1, x.2, h⟩

theorem ok_uk {α β ε : Type} {o : Except ε (α × β)} (h : o.isOk = true) : ∃ (b : β) (a : α), o = .ok (a, b) := by
  obtain ⟨x, h⟩ := ok_u h
  exact ⟨x.2, x.1, h⟩

theorem is_ok {α ε : Type} [DecidableEq α] {o : Except ε α} {x : α} (h : (match o with | .ok y => decide (y = x) | .error _ => false) = true) : o = .ok x := by
  cases o with
  | error => cases h
  | ok y => rw [of_decide_eq_true h]

theorem is_err {α ε : Type} [DecidableEq ε] {o : Except ε α} {x : ε} (h : (match o with | .ok _ => false | .error y => decide (y = x)) = true) : o = .error x := by
  cases o with
  | ok => cases h
  | error y => rw [of_decide_eq_true h]

/-- Did a command answer a next state. -/
def isNext (x : Host.Outcome State Fault Refusal) : Bool := match x with | .next _ => true | _ => false

theorem next_of {x : Host.Outcome State Fault Refusal} (h : isNext x = true) : ∃ t : State, x = .next t := by
  cases x with
  | next t => exact ⟨t, rfl⟩
  | _ => cases h

/-- What holds of the default and of every listed value holds of every value of a table. -/
theorem every {α : Type} {t : Tbl α} {d : α} {p : α → Bool} (h : (p d && t.all fun kv => p kv.2) = true) (k : Nat) : p (tblGet t k d) = true := by
  simp only [Bool.and_eq_true] at h
  obtain ⟨hd, ht⟩ := h
  induction t with
  | nil => exact hd
  | cons a t ih =>
    simp only [List.all_cons, Bool.and_eq_true] at ht
    unfold tblGet at ih ⊢
    unfold tblFind
    split
    · exact ht.1
    · exact ih ht.2

theorem noTraffic_of {s : State} (h : ((s.links.all fun kv => kv.2.rx.isEmpty) && decide (s.faults.phase = 0)) = true) : noTraffic s := by
  simp only [Bool.and_eq_true, decide_eq_true_eq] at h
  refine ⟨fun l => ?_, h.2⟩
  have := every (t := s.links) (d := ({} : Link)) (p := fun k => k.rx.isEmpty) (by simpa using h.1) l
  show (tblGet s.links l {}).rx = []
  simpa using this

/-! ## Small states -/

/-- An established management session of a role. -/
def sessOf (r : Role) : MgmtSession := { spdm := { stage := 5 }, role := r, keyId := 7 }

/-- Requests in the sessions of the Maker, the Installer and the Operator, in one without a role, and unsecured. -/
def mk : Mgmt := ⟨some 0, 1⟩
def ins : Mgmt := ⟨some 1, 2⟩
def opr : Mgmt := ⟨some 2, 3⟩
def plain : Mgmt := ⟨none, 4⟩

/-- A key slot of a kind under a parent. -/
def slotOf (kind parent : Nat) : KeySlot :=
  { state := 1, kind := kind, parent := parent, use := 0x3FF, dfltUse := 0x3FF, cell := List.replicate 32 3#8 }

/-- Key slots: three leaves (a region's, a firmware leaf, a link's), the root, the domain, partition 1. -/
def slots0 : Tbl KeySlot :=
  [(3, slotOf 1 1), (4, slotOf 6 0x41), (5, slotOf 4 0x41), (0x10000, { state := 1 }), (0x10001, { state := 1, parent := 0x41 }), (0x10101, { state := 1, parent := 0x40 })]

/-- A hub core in Test that serves: gate open, member of a domain, sessions of the three roles, randomness, the upper key slots. -/
def up : State := { State.reset with bring := { por := false, ready := true, phase := 8, gate := true, member := true, memberId := 9, domain := 77 }, life := { state := .test }, agent := { sessions := [(0, sessOf .maker), (1, sessOf .installer), (2, sessOf .operator)] }, random := { inst := [(0, { live := true, key := [], v := [] }), (46, { live := true, key := [], v := [] })] }, keys := { slots := slots0 }, fw := { source := 1 } }

/-- The same hub, not a member, with no domain key. -/
def alone : State := { up with bring := { up.bring with member := false }, keys := { slots := [(0x10000, { state := 1 })] } }

/-- A blank hub that serves. -/
def blank : State := { State.reset with bring := { por := false, ready := true, phase := 8 }, random := { inst := [(0, { live := true, key := [], v := [] })] } }

/-- The same hub in Production. -/
def prod : State := { up with life := { state := .production } }

/-- Change a slot of `up`. -/
def withSlot (i : Nat) (k : KeySlot) : State := { up with keys := { slots := tblPut slots0 i k } }

/-- The row of an entry. -/
def row (i j : Nat) : Entry := (entryRow i j).getD ⟨0, 0, 0, 0, 0, 0, 0, 0, 0, 0, false, false, .special⟩

/-- A dictionary message for an entry. -/
def msg (i j : Nat) (data : Bytes) : DictMsg := ⟨2, true, i, j, true, 0, data.length, data⟩

/-- A hub in reset. -/
def off : State := State.reset

/-- A memory port that is ready in the mode of tags alone, with region 1 of partition 1 over pages 0 and 1. -/
def port2 : MemPort := { state := 3, ctrlUp := true, mode := 2, dcap := 2 ^ 21, regions := [(1, { pages := 2, part := 1, state := 2, slot := 3 })], cache := [(tagLine (2 ^ 21) 0, { data := List.replicate 128 0#8 })] }

/-- The hub with memory port 0 in a state. -/
def withPort (p : MemPort) : State := { up with mem := [(0, p)], parts := [(1, { state := 1 })] }

/-- A request of context-less software for line 0, and a write offered for it. -/
def req (a : Access) : LineReq := ⟨0, a, 1, 0, 0, .none, 0, false, 0⟩
def laneWrite (w : LanePurpose) : LaneReq := { write := true, addr := 0, mdata := false, data := [], why := w }

/-- A port whose region 1 is being swept: the key slot has its next generation. -/
def sweeping (w : Sweep) : State := { withPort { port2 with regions := [(1, { pages := 2, part := 1, state := 3, slot := 3 })], sweep := { w with region := 1 } } with keys := { slots := tblPut slots0 3 { slotOf 1 1 with next := true } } }

/-- The hub with link 0, or link l, in a state, and partition 1 created. -/
def withLink (k : Link) : State := { up with links := [(0, k)], parts := [(1, { state := 1 })] }

/-- A keyed link whose key slot is 5, in its session's responder. -/
def keyed : Link := { state := 4, pcsUp := true, slot := some 5, session := { stage := 5 }, peer := some { member := 12, isMember := true, domain := 77 } }

/-- A HELLO of a member of the domain, as a message. -/
def helloMsg : Msg := { mtype := 0x31, body := leBytes 16 (12 + 2 ^ 16 + 2 * 2 ^ 56 + 77 * 2 ^ 64) }

/-- A message for a member, from a member of the same partition generation. -/
def linkMsg (t addr : Nat) (body : Bytes) : Msg := { mtype := t, addr := addr, src := 12, dst := 9, part := 1, body := body }

/-- The only frame in the output of a command. -/
def frameOf (x : Host.Outcome State Fault Refusal) : Bytes :=
  match x with
  | .next t => (match t.out with | [.frame _ b] => b | [.chipFrame _ _ b] => b | _ => [])
  | _ => []

/-- The plain frame that carries a HELLO, and the sealed idle frame of a requester. -/
def helloFrame : Bytes := frameOf (execHelloTimer 0 (withLink { state := 1 }))
def sealedFrame : Bytes := frameOf (execFrameTransmit 0 (withLink { keyed with session := { stage := 5, requester := true }, asked := true }))

/-- The state that a row sees after it has taken the first message of a type. -/
def took (s : State) (l t : Nat) : State := match s.takeLinkMsg l t with | some x => x.2 | none => s
def tookChip (s : State) (c t : Nat) : State := match s.takeChipMsg c t with | some x => x.2 | none => s

/-- The key and salt of a link's direction, and the state with the engine's cache loaded. -/
def keyOf (s : State) (l g : Nat) (tx : Bool) : (Bytes × Bytes) × State := match s.linkKey l g tx with | .ok x => x | .error _ => (([], []), s)

/-- Leaf 5 with its next generation set. -/
def next5 : Tbl KeySlot := tblPut slots0 5 { slotOf 4 0x41 with next := true }

/-- The header of a sealed frame with a sequence, its HCRC right. -/
def plainHeader (seq : Nat) : Bytes := let h := leBytes 14 (1 + 0x3F * 2 ^ 8 + seq * 2 ^ 32); h ++ leBytes 2 (crc16 h)

/-- A hub with memory port 0 and keyed link 0, and a first message on that link; region 1 serves class 3 from other members. -/
def askedBy (m : Msg) : State := { withLink { keyed with rx := [m] } with mem := [(0, { port2 with regions := [(1, { pages := 2, kind := 2, part := 1, state := 2, slot := 3 })] })] }

/-- Two keyed links: link 0 with a first message, link 1 the way to member 13. -/
def twoLinks (rx : List Msg) : State := { withLink { keyed with rx := rx } with links := [(0, { keyed with rx := rx }), (1, { keyed with peer := some { member := 13, isMember := true, domain := 77 } })], liveRoutes := [(13, 2 ^ 11 + 2 ^ 10 + 2 ^ 5 + 1), (9, 2 ^ 10)] }

/-- A chunk for a member. -/
def chunkTo (home : Nat) : Chunk := { count := 1, elems := 4, home := home, part := 1, data := List.replicate 16 1#8 }

/-- A smaller configuration: four memory ports. -/
def smallCfg : Config := { State.reset.cfg with memPorts := 4, aus := 16 }

/-- Context 6 of partition 1 with queues 8 to 11, and a queue of a state. -/
def withQueue (k : Queue) : State := { up with parts := [(1, { state := 1, qbase := 8, qcount := 8 })], ctxs := [(6, { state := 1, part := 1, qbase := 8, qcount := 4, qcfgQ := 8, qcfgRing := 4096 + 4 * 2 ^ 48, qcfgCring := 20 * 2 ^ 48 + 0x7F * 2 ^ 53, scratch := 4, chipDb := 1 })], queues := [(8, k)] }

/-- A command of queue 8. -/
def cmdOf (op : Nat) : Cmd := { q := 8, ctx := 6, part := 1, opcode := op, phase := 1, reserved := true, desc := 2 ^ 10 }
def withCmd (c : Cmd) : State := { withQueue { state := 1, rlog := 4, clog := 4, reserved := 1, started := [5] } with cmds := [(5, c)], cmdNext := 6 }

/-- Partition 1 in a state, with queues 8 to 23 and context 6. -/
def withPart (k : Part) (c : Ctx) : State := { up with parts := [(1, { k with qbase := 8, qcount := 16 })], ctxs := [(6, c)] }
def ctx6 : Ctx := { state := 1, part := 1, qbase := 8, qcount := 4 }
/-- A context record: state, partition, scratch units, queues. -/
def ctxRec (st part scratch qbase qcount : Nat) : Bytes := leBytes 16 (st + part * 2 ^ 2 + scratch * 2 ^ 8 + qbase * 2 ^ 22 + qcount * 2 ^ 40)

/-- A translation record, a map request, a hub whose partition 1 translates, and one whose walks wait. -/
def transRec (pages : Nat) : Bytes := leBytes 16 (1 * 2 ^ 8 + pages * 2 ^ 16)
def mapRec (op pages : Nat) : Bytes := leBytes 16 (1 + op * 2 ^ 6 + pages * 2 ^ 8 + 2 ^ 64)
def withTrans (t : Trans) : State := { up with parts := [(1, { state := 1 })], mem := [(0, { port2 with regions := [(1, { pages := 2, kind := 3, part := 1, state := 2, slot := 3 })] })], trans := [(1, t)] }
def walkOf (r : Option Result) : Walk := { part := 1, page := 2, buf := 0, issued := false, again := false, line := r, waiting := [] }
def withWalk (w : Walk) : State := { withTrans { enable := true, dsize := 8, region := 1 } with walks := [w] }

/-- A partition record: state, queues, AUs, key generation. -/
def partRec (st qbase qcount mask kgen : Nat) : Bytes := leBytes 32 (st + qbase * 2 ^ 8 + qcount * 2 ^ 26 + mask * 2 ^ 48 + kgen * 2 ^ 96)
/-- Partition 1 with queues 64 to 127 and AU 0. -/
def owner : Part := { state := 1, qbase := 64, qcount := 64, auMask := 1 }
def withOwner (k : Part) : State := { up with parts := [(1, k)], auOwner := [(0, 1)] }

/-- Command 5 of a dedicated partition whose AU 0 has it queued, and whose chiplet port 0 is bound. -/
def eng (c : Cmd) : State := { withCmd c with parts := [(1, { state := 1, mode := 1, auMask := 1, qbase := 8, qcount := 8, staging := 4 })], auQueue := [(0, [5])], auOwner := [(0, 1)], chips := [(0, { state := 4, bound := some 1 })] }
/-- The same, with a region of a KIND on memory port 0. -/
def engAt (kind : Nat) (c : Cmd) : State := { eng c with mem := [(0, { port2 with regions := [(1, { pages := 2, kind := kind, part := 1, state := 2, slot := 3 })] })] }
/-- A command of an opcode at a stage; pages 0 of the operands are translated to this hub. -/
def opAt (op desc stage : Nat) (got : Tbl Bytes) : Cmd := { cmdOf op with desc := desc, stage := stage, got := got }
def pg0 (base : Nat) : Nat × Bytes := (pageKey 0, leBytes 8 (base + 1))
def ln (a : Nat) : Nat × Bytes := (a, List.replicate 128 0#8)
/-- An attention step: one member, one query vector, dimension 32, MXFP8 pages, its result delivered. -/
def aDesc : Nat := 2 ^ 328 + 2 ^ 320 + 2 ^ 312 + 8 * 2 ^ 288 + 3 * 2 ^ 296
def aSoft : Soft := ⟨0xFF800000, 0, List.replicate 32 0⟩
def aCmd (stage : Nat) (shards : List Shard) : Cmd := { opAt 0x21 aDesc stage [ln 0, ln 4096, ln 4224, ln 8320] with shards := shards, total := [aSoft] }
/-- A KV append of one token, dimension 32, FP32 to MXFP8. -/
def kDesc : Nat := 8 * 2 ^ 192 + 2 ^ 208
def kCmd (base : Nat) : Cmd := opAt 0x22 kDesc 1 [pg0 base, ln 0, ln 128]

/-- A bridge stream of one row of four FP32 elements, a reduction of a number of local operands of four elements, a merge of two sets. -/
def bCmd (stage : Nat) : Cmd := opAt 0x24 (2 ^ 224 + 4 * 2 ^ 184) stage [pg0 12, ln 0]
def rCmd (n expect stage : Nat) : Cmd := opAt 0x25 (n * 2 ^ 248 + expect * 2 ^ 280 + 4 * 2 ^ 256) stage [pg0 12, ln 0]
def mCmd (sets : Nat) : Cmd :=
  { opAt 0x26 (sets * 2 ^ 192 + 2 ^ 200) 1 [pg0 12, (0, leBytes 128 (0x1000 + 0x2000 * 2 ^ 64)), ln 0x1000, ln 0x1080] with setOrder := [0] }

/-- A hub with chiplet port 0. -/
def withChip (k : Chip) : State := { up with chips := [(0, k)], parts := [(1, { state := 1 })] }
def open4 : Chip := { state := 4, modules := 2, used := 1, bound := some 1, slot := some 5, session := { stage := 5 } }
/-- The key and salt of a chiplet port's direction, and the state with the engine's cache loaded. -/
def cKeyOf (s : State) (c g : Nat) (tx : Bool) : (Bytes × Bytes) × State := match s.chipKey c g tx with | .ok x => x | .error _ => (([], []), s)
theorem cKey_of {s : State} {c g : Nat} {tx : Bool} (h : (s.chipKey c g tx).isOk = true) : ∃ u, s.chipKey c g tx = .ok ((cKeyOf s c g tx).1, u) := by
  unfold cKeyOf
  cases hx : s.chipKey c g tx with
  | error => rw [hx] at h; cases h
  | ok x => exact ⟨x.2, rfl⟩
/-- The header of a chiplet frame, its HCRC right, and a sealed idle frame. -/
def chipHdr (kind gen seq : Nat) : Bytes := let h := leBytes 14 (kind + gen * 2 ^ 8 + seq * 2 ^ 40); h ++ leBytes 2 (crc16 h)
def chipSealed : Bytes := let k := (cKeyOf (withChip open4) 0 0 false).1; sealFrame k.1 k.2 0 (chipHdr 2 0 0) (List.replicate 224 0#8)
def admits (mods : Nat) : Bytes := leBytes 16 (mods * 2 ^ 40 + 256 * 2 ^ 48)
/-- Key slots with no leaf free. -/
def fullKeys : Tbl KeySlot := (List.range' 0 65536).map fun i => (i, { state := 1 })
theorem firstGap_range' {α : Type} (x : α) (k n : Nat) : firstGap ((List.range' n k).map fun i => (i, x)) n = n + k := by
  induction k generalizing n with
  | zero => rfl
  | succ k ih => rw [List.range'_succ, List.map_cons, firstGap, if_pos rfl, ih]; omega
theorem noLeaf {s : State} (h : s.keys.slots = fullKeys) : s.freeLeaf = none := by
  unfold State.freeLeaf
  rw [h, List.filter_eq_self.mpr]
  · unfold fullKeys
    rw [firstGap_range']
    rfl
  · intro kv hkv
    obtain ⟨i, hi, rfl⟩ := List.mem_map.mp hkv
    have := List.mem_range'_1.mp hi
    simp only [ne_eq, Nat.one_ne_zero, not_false_eq_true, decide_true, Bool.and_true, decide_eq_true_eq]
    omega

/-- A hub whose host port 0 holds session 3, its stream 4 secure, with context 6 bound to TDI 0 in a state. -/
def hslot3 : HostSlot := { held := true, port := 0, session := { stage := 5 }, stream := some 4, secure := true, leaf := 4, keyGen := some 0, binding := up.masked ((up.material 4 0).take 32) }
def withTdi (t : Tdi) : State := { up with slots := [(3, hslot3)], tdis := [(tdiKey 0 0, t)], parts := [(1, { state := 1, qbase := 8, qcount := 16 })], ctxs := [(6, { state := 1, part := 1, qbase := 8, qcount := 4 })] }
def tdi6 (st : Nat) : Tdi := { state := st, slot := 3, stream := 4, part := 1, ctxBase := 6, ctxCount := 1 }
/-- The same hub with the keys of the stream's active set, a DMA read outstanding, the completion that passes its check, and its parts. -/
def ideSlot : HostSlot := { hslot3 with activeSet := some 0, cells := (List.range 12).map fun i => (i, List.replicate 32 7#8) }
def ideRun : State := { withTdi (tdi6 2) with slots := [(3, ideSlot)], hosts := [(0, { dma := [(3, ⟨.none, 6, false⟩)] })] }
def dmaTaken : State := (ideRun.modHost 0 fun p => { p with dma := tblDel p.dma 3 }).touch 7 0
def ideKeyOf (sub : Nat) : Bytes := (ideRun.ideKey ideSlot sub true).getD []
def cplText : Bytes := List.replicate 16 5#8
def cplBody : Bytes := gcmCrypt (ideKeyOf 2) (ideIv 0) cplText
def cplMac (code : Nat) : Bytes := ideMac (ideKeyOf 2) 0 (ideHeader 2 1 0 code 3 4 16 true) cplBody
def cpl (code : Nat) : Bytes := cplBody ++ cplMac code
theorem cplBody_length : cplBody.length = 16 := by decide +kernel
theorem cplMac_length (code : Nat) : (cplMac code).length = 12 := ideMac_length (by decide +kernel) _ _
theorem cpl_body (code : Nat) : (cpl code).take ((cpl code).length - 12) = cplBody :=
  List.take_left' (by simp [cpl, cplBody_length, cplMac_length])
theorem cpl_mac (code : Nat) : (cpl code).drop ((cpl code).length - 12) = cplMac code :=
  List.drop_left' (by simp [cpl, cplBody_length, cplMac_length])
theorem cpl_slot : dmaTaken.streamSlot 0 4 = some (3, ideSlot) := by decide +kernel
theorem cpl_key : dmaTaken.ideKey ideSlot 2 true = some (ideKeyOf 2) := by decide +kernel
theorem cpl_plain : gcmCrypt (ideKeyOf 2) (ideIv 0) cplBody = cplText := by decide +kernel
theorem cpl_passes (code : Nat) : (dmaTaken.ideOpen 0 4 subCpl (ideHeader 2 (tdiKey 0 0 % 256 + 1) 0 code 3 4
    ((cpl code).take ((cpl code).length - 12)).length true) ((cpl code).take ((cpl code).length - 12)) ((cpl code).drop ((cpl code).length - 12))).1 = .passed cplText := by
  rw [cpl_body, cpl_mac, cplBody_length]
  have h := ideOpen_passed (s := dmaTaken) (h := 0) (stream := 4) (sub := 2) (i := 3) (k := ideSlot) (key := ideKeyOf 2) (ct := cplBody)
    (hdr := ideHeader 2 1 0 code 3 4 16 true) (mac := cplMac code) cpl_slot cpl_key (by decide +kernel) rfl
    (text := cplText) (by rw [show gcmCrypt (ideKeyOf 2) (ideIv (tblGet ideSlot.rxCount 2 0)) cplBody = cplText from cpl_plain]; decide +kernel)
  exact congrArg Prod.fst h
theorem cpl_fails : (dmaTaken.ideOpen 0 4 subCpl (ideHeader 2 (tdiKey 0 0 % 256 + 1) 0 0 3 4 (([] : Bytes).take (([] : Bytes).length - 12)).length true)
    (([] : Bytes).take (([] : Bytes).length - 12)) (([] : Bytes).drop (([] : Bytes).length - 12))).1 = .failed :=
  congrArg Prod.fst (ideOpen_failed (s := dmaTaken) (i := 3) (k := ideSlot) (key := ideKeyOf 2) cpl_slot cpl_key (by decide +kernel)
    fun h => absurd (congrArg List.length h) (by rw [ideMac_length (by decide +kernel)]; decide))
theorem macTooLong {key : Bytes} {n : Nat} {hdr ct : Bytes} : ideMac key n hdr ct ≠ List.replicate 13 0#8 := fun h => by
  have h2 : (ideMac key n hdr ct).length ≤ 12 := by unfold ideMac; exact List.length_take_le _ _
  rw [h] at h2; exact absurd h2 (by decide)
def tlp (fn addr : Nat) (write : Bool) : Tlp := ⟨fn, write, true, addr, 0xFF, leBytes 8 5, none, false, [], false, 2⟩

/-- Connections of the unsecured management transport and of host port 0 at a stage, with a chain, and SPDM sessions. -/
def atStage (n : Nat) : State := { up with fw := { source := 1, chainEc := [1#8, 2#8], chainPq := [3#8], conns := [(peerNum (.mgmt none), { stage := n, heldPq := if n = 3 then some (1, [9#8]) else none }), (peerNum (.host 0 none), { stage := n })] } }
def sess3 (n : Nat) : State := { up with agent := { sessions := [(3, { spdm := { stage := n } })] } }
def hostAt (n : Nat) : State := { up with slots := [(3, { held := true, port := 0, session := { stage := n } })] }
def linkAt (req : Bool) : State := withLink { keyed with session := { stage := 5, requester := req } }
/-- A chiplet port whose chain is asked for, in a stage of its session. -/
def asking (n : Nat) : State := { withChip { state := 2, modules := 1, session := { stage := n, requester := true } } with settings := [(ekey 0x3303 1, leNat (sha384 [])), (ekey 0x3304 1, leNat (sha384 []))] }

/-! ## Ill-formed commands, one for each check -/

theorem test_wf_session : Mgmt.wf ⟨some 4, 0⟩ = false ∧ (Instr.mapDone).wf = true := by decide
theorem test_wf_frame_port : FramePort.wf (.link 32) = false ∧ FramePort.wf (.chip 8) = false := by decide
theorem test_wf_peer : Peer.wf (.host 4 none) = false ∧ Peer.wf (.mgmt (some 4)) = false ∧ Peer.wf (.chip 8) = false ∧ Peer.wf (.link 32) = false := by decide
theorem test_wf_ringer : Ringer.wf (.host 0 4096) = false ∧ Ringer.wf (.chip 8) = false := by decide
theorem test_wf_reset : (Instr.portPhysicalReset .link 32).wf = false ∧ (Instr.functionLevelReset 4 0).wf = false := by decide
theorem test_wf_partition : (Instr.partitionRemove mk 64 []).wf = false ∧ (Instr.partitionReset 64).wf = false ∧ (Instr.partitionBind mk 0 256).wf = false := by decide
theorem test_wf_lane : (Instr.lineRequestIssue 8 0).wf = false ∧ (Instr.laneWaitTimeout 0 8).wf = false ∧ (Instr.controllerUp 8).wf = false := by decide
theorem test_wf_format : (Instr.format mk 8 0).wf = false := by decide
theorem test_wf_region : (Instr.regionScrub mk 0 256).wf = false ∧ (Instr.regionRemovalDone 0 256).wf = false := by decide
theorem test_wf_link : (Instr.helloTimer 32).wf = false ∧ (Instr.linkDisable mk 32 1).wf = false ∧ (Instr.join 0 4096).wf = false := by decide
theorem test_wf_row_peer : (Instr.keepalive (.link 32)).wf = false ∧ (Instr.getVersion (.chip 8)).wf = false ∧ (Instr.keyUpdateStart (.chip 8) none).wf = false := by decide
theorem test_wf_writer : (Instr.confirmation ⟨some 4, 0⟩ 0).wf = false ∧ (Instr.map ⟨some 4, 0⟩ []).wf = false := by decide
theorem test_wf_tag : (Instr.otagRelease 8192).wf = false ∧ (Instr.combinedDeparture 4096).wf = false := by decide
theorem test_wf_queue : (Instr.queueDisabled 262144).wf = false ∧ (Instr.doorbell (.chip 0) 262144 1 0).wf = false ∧ (Instr.queueRead 0 0 16384).wf = false := by decide
theorem test_wf_context : (Instr.contextCreate mk 16384 []).wf = false ∧ (Instr.contextReset 16384).wf = false := by decide
theorem test_wf_unit : (Instr.sliceBoundary 32).wf = false ∧ (Instr.samplerDispatch 4).wf = false ∧ (Instr.chipletActive 8 1).wf = false := by decide
theorem test_wf_key_slot : (Instr.invalidate 65856).wf = false := by decide
theorem test_wf_cipher_block : (Instr.enc []).wf = false ∧ (Instr.shaBlock []).wf = false := by decide
theorem test_wf_host : (Instr.hostDmaCompletion 4 0 0 []).wf = false ∧ (Instr.query 0 1024).wf = false := by decide

/-! ## Reset, the table's words, an empty queue -/

/-- The table gives no row bits, so no word spells a command. -/
theorem test_no_word : decodeTableWord 64 0 = none ∧ State.reset.withFetchWord 64 0 = State.reset := ⟨rfl, rfl⟩
theorem test_reset_held : State.reset.pending = [] ∧ State.reset.bring.por = true ∧ State.reset.alive = false := by decide +kernel
theorem test_reset_inv : tblRising State.reset.objs = true ∧ tblRising State.reset.tdis = true ∧ tblRising State.reset.keys.slots = true ∧ State.reset.due = [] := by
  decide +kernel
/-- Reset drives nothing, and what is commanded before its release leaves the block as it is (R53, R65). -/
theorem test_step_takes_first : (match step { State.reset with pending := [.mapDone, .walk] } with | .next t => t.pending | _ => []) = [.walk] := by
  decide +kernel

/-! ## The manual's worked examples -/

/-- Chapter 4: 0.3 and 500 in FP8-E4M3. -/
theorem test_fp8 : encodeFloat fmtE4m3 true none (f32 0x3E99999A) = (0x2A, false) ∧ (encodeFloat fmtE4m3 true none (f32 0x43FA0000)).1 = 0x7E := by
  decide +kernel
/-- Chapter 4: an MXFP4 element 0xD under S = 0x7A becomes 0x9C in FP8-E4M3. -/
theorem test_mxfp4_to_fp8 : (convertRow 12 3 32 true none (0x0D#8 :: List.replicate 15 0#8) [0x7A#8]).1.take 2 = [0x9C#8, 0#8] := by decide +kernel

/-- Table 4.6 as BF16 elements. -/
def table46 : Bytes := (List.range 32).flatMap fun i => leBytes 2 (match i with
  | 0 => 0x40A4 | 1 => 0xC038 | 2 => 0x3F30 | 8 => 0x3F90 | 9 => 0xBF10 | 16 => 0x4008 | 17 => 0x3EC0 | 24 => 0x3F60 | 25 => 0xBEA0 | _ => 0)
/-- Chapter 4: that block in YB4: scale, sub-scales and the stored elements. -/
theorem test_yb4_block : let r := convertRow 2 15 32 true none table46 []
    r.2.1 = [0x7F#8, 0xFC#8] ∧ [0, 1, 4, 8, 12, 15].map (r.1.getD · 0) = [0xD7#8, 0x01#8, 0xB5#8, 0x27#8, 0xA4#8, 0#8] := by decide +kernel
/-- Chapter 4: the same block in MXFP4. -/
theorem test_mxfp4_block : let r := convertRow 2 12 32 true none table46 []
    r.2.1 = [0x7F#8] ∧ [0, 4, 8, 12].map (r.1.getD · 0) = [0xD7#8, 0x92#8, 0x14#8, 0x92#8] := by decide +kernel

/-- Table 8.2: the layout of a 4 TB tree-mode port. -/
theorem test_tree_layout : (List.range 6).map (metaBase (2 ^ 42)) = [0x044000000000, 0x044800000000, 0x044880000000, 0x044888000000, 0x044888800000, 0x044888880000] := by
  decide +kernel
/-- R194's example: 48 GB in tag mode hold 46,260 MB of data. -/
theorem test_tag_capacity : dataCapacity false (49152 * 2 ^ 20) = 46260 * 2 ^ 20 := by decide +kernel
/-- Table 8.10: the metadata lines of data line 0x0012_3456_7880. -/
theorem test_lines_of_a_read : tagLine (2 ^ 42) 0x001234567880 = 0x040123456780 ∧ tagByte 0x001234567880 = 8 ∧
    metaChain (2 ^ 42) 0x001234567880 = [0x04402468AC80, 0x044802468A80, 0x044880246880, 0x044888024680, 0x044888802400] := by decide +kernel

/-- R247's example: the header of an 8-beat sealed frame, but for its HCRC. -/
theorem test_frame_header : leBytes 14 (1 + 0 * 2 ^ 2 + 7 * 2 ^ 4 + 1 * 2 ^ 7 + 5 * 2 ^ 8 + (0x2A1 * 4 + 1) * 2 ^ 16 + 0x12345 * 2 ^ 32 + 0x3120 * 2 ^ 96) =
    [0xF1#8, 0x05#8, 0x85#8, 0x0A#8, 0x45#8, 0x23#8, 0x01#8, 0#8, 0#8, 0#8, 0#8, 0#8, 0x20#8, 0x31#8] := by decide +kernel
/-- CRC-32 of the nine digits (IEEE 802.3). -/
theorem test_crc32 : crc32 (ascii "123456789") = 0xCBF43926 := by decide +kernel
/-- SHA-384 of three letters, its first bytes (FIPS 180-4). -/
theorem test_sha384 : (sha384 (ascii "abc")).take 4 = [0xCB#8, 0x00#8, 0x75#8, 0x3F#8] := by decide +kernel
/-- AES-256 of FIPS 197's example. -/
theorem test_aes : (aesEnc ((List.range 32).map (BitVec.ofNat 8)) ((List.range 16).map fun i => BitVec.ofNat 8 (17 * i))).take 4 = [0x8E#8, 0xA2#8, 0xB7#8, 0xCA#8] := by
  decide +kernel

/-- R71's example: two host ports' tolerances, and a clear requirement bit. -/
theorem test_tolerance : ltrTolerance 0x8846 = some 71680 ∧ ltrTolerance 0x8832 = some 51200 ∧ ltrTolerance 0x0846 = none := by decide +kernel
/-- R431's example: with a sweep and ln_derate 0xC7, memory port 0 offers 2,020,000 bytes a window. -/
theorem test_capacity : ({ up with mem := [(0, { derate := 0xC7, sweep := { state := 1 } })] } : State).capacity 0 = 2020000 := by decide +kernel
/-- Chapter 18's example: copies B and C hold Test. -/
theorem test_vote : voted [0x6A593C96, 0x00003C96, 0x00003C96] = some .test := by decide +kernel
/-- Chapter 22's example: word 0 of the trace record of a data tag failure. -/
theorem test_trace_word : (traceWords { up with records := { traceSeq := 0x04D2 } } 7 0 3 (some 2) 0x1001 [0x001234567880]).head? = some 0x04D2100142030207 := by
  decide +kernel
/-- Chapter 4, Table 4.7: the descriptor of MXFP4 starts with its code and class. -/
theorem test_descriptor : bits (fmtDescriptor 12) 7 0 = 12 ∧ bits (fmtDescriptor 12) 9 8 = 2 := by decide +kernel

/-- R454's and R470's example: the Operator's write of 0x3001.01 is refused with 0x0601. -/
theorem test_operator_write_refused : up.writeGate opr 0x3001 1 = 0x0601 ∧ up.writeGate ins 0x3001 1 = 0 := by decide +kernel

/-- The primes below a bound, by trial division. -/
def primesUpTo (n : Nat) : List Nat := (List.range n).filter fun p => decide (2 ≤ p) && (List.range p).all fun d => decide (d < 2) || p % d != 0
/-- FIPS 180-4: the constant of round r is the first 64 bits of the fraction of the cube root of the prime of index r. -/
theorem test_sha_roundKeys : (primesUpTo 410).length = 80 ∧
    (((primesUpTo 410).zip (List.range 80)).all fun (p, r) =>
      let whole := ((List.range 8).filter fun c => decide (c ^ 3 ≤ p)).length - 1
      let x := whole * 2 ^ 64 + shaKey r
      decide (x ^ 3 ≤ p * 2 ^ 192) && decide (p * 2 ^ 192 < (x + 1) ^ 3)) = true := by decide +kernel
/-- FIPS 180-4: and the initial value comes from the square roots of the primes of index 8 to 15. -/
theorem test_sha_init : ((((primesUpTo 54).drop 8).zip (List.range 8)).all fun (p, r) =>
      let whole := ((List.range 8).filter fun c => decide (c ^ 2 ≤ p)).length - 1
      let x := whole * 2 ^ 64 + shaInit.getD r 0
      decide (x ^ 2 ≤ p * 2 ^ 128) && decide (p * 2 ^ 128 < (x + 1) ^ 2)) = true := by decide +kernel

/-- R223: the product of x + 1, x + 2, x + 4 and x + 8 in the field of 0x11D, worked by hand. -/
theorem test_rs_generator : rsGenerator = [1, 15, 54, 120, 64] := by decide +kernel
/-- R223, R224: two altered symbols of a half-line are corrected, three are seen. -/
theorem test_rs_corrects_two : let line := (List.range 128).map (BitVec.ofNat 8)
    rsLine 0 line = some line ∧ rsLine 2 line = some line ∧ rsLine 3 line = none := by decide +kernel

/-! ## Witnesses -/

theorem witness_EmptyQueuePassesOneCycle :
    (∃ (s : State), (s.pending = []) ∧ (s.bring.por = true)) ∧
    (∃ (s : State), (s.pending = []) ∧ (s.bring.por = false)) :=
  ⟨⟨State.reset, (by decide +kernel), (by decide +kernel)⟩,
    ⟨up, (by decide +kernel), (by decide +kernel)⟩⟩

theorem witness_EveryCommandKeeps :
    (∃ (c : Instr) (s : State), (s.due = []) ∧ ∃ (t : State), (exec c s = .next t)) ∧
    (∃ (c : Instr) (s : State), (tblRising s.objs = true) ∧ ∃ (t : State), (exec c s = .next t)) ∧
    (∃ (c : Instr) (s : State), (tblRising s.tdis = true) ∧ ∃ (t : State), (exec c s = .next t)) ∧
    (∃ (c : Instr) (s : State), (tblRising s.keys.slots = true) ∧ ∃ (t : State), (exec c s = .next t)) :=
  ⟨⟨(.advance 3), up, (by decide +kernel), next_of (by decide +kernel)⟩,
    ⟨(.advance 3), up, (by decide +kernel), next_of (by decide +kernel)⟩,
    ⟨(.advance 3), up, (by decide +kernel), next_of (by decide +kernel)⟩,
    ⟨(.advance 3), up, (by decide +kernel), next_of (by decide +kernel)⟩⟩

theorem witness_KeySlotCreation :
    (∃ (s : State) (i : Nat) (kind : Nat) (parent : Nat), (s.alive = true) ∧ (i < 65536) ∧ ((s.slot i).state = 0) ∧ ((kind = 1 ∧ parent < 64 ∨ (kind = 2 ∨ kind = 6) ∧ parent = 0x41)) ∧ (s.usable (parentSlot parent) = true) ∧ (s.fertile (parentSlot parent) = true) ∧ ((kind = 6 ∨ drawable s))) ∧
    (∃ (s : State) (p : Nat) (gen : Nat), (s.alive = true) ∧ (p < s.cfg.partitions) ∧ ((s.slot (partSlot p)).state = 0) ∧ (s.usable domainSlot = true) ∧ (s.fertile domainSlot = true) ∧ ((s.slot (partSlot p)).gen ≤ gen) ∧ (gen < 0xFFFFFFFF)) ∧
    (∃ (s : State) (i : Nat) (kind : Nat) (parent : Nat), (s.alive = true) ∧ (i < 65536) ∧ ((s.slot i).state = 0) ∧ ((kind = 3 ∧ parent < 64 ∨ (kind = 4 ∨ kind = 5) ∧ parent = 0x41)) ∧ (s.usable (parentSlot parent) = true) ∧ (s.fertile (parentSlot parent) = true) ∧ (drawable s)) ∧
    (∃ (s : State) (gen : Nat), (s.alive = true) ∧ ((s.slot domainSlot).state = 0) ∧ (s.usable rootSlot = true) ∧ (s.fertile rootSlot = true) ∧ ((s.slot domainSlot).gen ≤ gen) ∧ (gen < 0xFFFFFFFF)) :=
  ⟨⟨up, 9, 1, 1, (by decide +kernel), (by decide +kernel), (by decide +kernel), (by decide +kernel), (by decide +kernel), (by decide +kernel), .inr ⟨(by decide +kernel), (by decide +kernel)⟩⟩,
    ⟨up, 2, 1, (by decide +kernel), (by decide +kernel), (by decide +kernel), (by decide +kernel), (by decide +kernel), (by decide +kernel), (by decide +kernel)⟩,
    ⟨up, 65535, 4, 0x41, (by decide +kernel), (by decide +kernel), (by decide +kernel), (by decide +kernel), (by decide +kernel), (by decide +kernel), ⟨(by decide +kernel), (by decide +kernel)⟩⟩,
    ⟨alone, 0xFFFFFFFE, (by decide +kernel), (by decide +kernel), (by decide +kernel), (by decide +kernel), (by decide +kernel), (by decide +kernel)⟩⟩

theorem witness_KeySlotChanges :
    (∃ (s : State) (i : Nat), (s.alive = true) ∧ (i < 65536) ∧ (s.usable i = true) ∧ (s.fertile i = true) ∧ ((s.slot i).state = 1) ∧ ((1 ≤ (s.slot i).kind ∧ (s.slot i).kind ≤ 4 ∨ (s.slot i).kind = 6)) ∧ ((s.slot i).next = false) ∧ ((s.slot i).gen < 0xFFFFFFFE)) ∧
    (∃ (s : State) (i : Nat), (s.alive = true) ∧ (s.usable i = true) ∧ (s.fertile i = true) ∧ ((s.slot i).state = 1) ∧ ((s.slot i).next = true)) ∧
    (∃ (s : State) (i : Nat), (s.alive = true) ∧ (((s.slot i).state = 1 ∨ (s.slot i).state = 2))) ∧
    (∃ (s : State) (i : Nat), (s.alive = true) ∧ (((s.slot i).state = 0 ∨ (s.slot i).state = 3))) ∧
    (∃ (s : State) (i : Nat), (s.alive = true) ∧ (s.usable i = true)) ∧
    (∃ (s : State) (i : Nat) (use : Nat), (s.alive = true) ∧ (s.usable i = true) ∧ ((s.slot i).state = 1) ∧ ((use = (s.slot i).dfltUse ∨ use &&& (s.slot i).use = use))) :=
  ⟨⟨(withSlot 3 { slotOf 1 1 with gen := 0xFFFFFFFD }), 3, (by decide +kernel), (by decide +kernel), (by decide +kernel), (by decide +kernel), (by decide +kernel), (by decide +kernel), (by decide +kernel), (by decide +kernel)⟩,
    ⟨(withSlot 3 { slotOf 1 1 with next := true }), 3, (by decide +kernel), (by decide +kernel), (by decide +kernel), (by decide +kernel), (by decide +kernel)⟩,
    ⟨up, 0x10101, (by decide +kernel), (by decide +kernel)⟩,
    ⟨up, 9, (by decide +kernel), (by decide +kernel)⟩,
    ⟨up, 0x10001, (by decide +kernel), (by decide +kernel)⟩,
    ⟨up, 3, 0x80, (by decide +kernel), (by decide +kernel), (by decide +kernel), (by decide +kernel)⟩⟩

theorem witness_KeySlotRefusals :
    (∃ (s : State) (i : Nat), (s.alive = true) ∧ (i < 65536) ∧ ((s.slot i).state ≠ 0)) ∧
    (∃ (s : State) (i : Nat), (s.alive = true) ∧ (i < 65536) ∧ ((s.slot i).state ≠ 0)) ∧
    (∃ (s : State) (i : Nat) (kind : Nat) (parent : Nat), (s.alive = true) ∧ (i < 65536) ∧ ((s.slot i).state = 0) ∧ ((kind = 1 ∧ parent < 64 ∨ (kind = 2 ∨ kind = 6) ∧ parent = 0x41)) ∧ (s.usable (parentSlot parent) = false)) ∧
    (∃ (s : State) (i : Nat) (kind : Nat) (parent : Nat), (s.alive = true) ∧ (i < 65536) ∧ ((s.slot i).state = 0) ∧ ((kind = 3 ∧ parent < 64 ∨ (kind = 4 ∨ kind = 5) ∧ parent = 0x41)) ∧ (s.usable (parentSlot parent) = false)) ∧
    (∃ (s : State) (i : Nat) (kind : Nat) (parent : Nat), (s.alive = true) ∧ (i < 65536) ∧ ((s.slot i).state = 0) ∧ ((kind = 1 ∧ parent < 64 ∨ kind = 2 ∧ parent = 0x41)) ∧ (s.usable (parentSlot parent) = true) ∧ (s.fertile (parentSlot parent) = true) ∧ (s.random.stopped = true)) ∧
    (∃ (s : State) (p : Nat) (gen : Nat), (s.alive = true) ∧ (p < s.cfg.partitions) ∧ ((s.slot (partSlot p)).state = 0) ∧ (s.usable domainSlot = true) ∧ (s.fertile domainSlot = true) ∧ ((gen < (s.slot (partSlot p)).gen ∨ gen = 0xFFFFFFFF))) ∧
    (∃ (s : State) (gen : Nat), (s.alive = true) ∧ ((s.slot domainSlot).state = 0) ∧ (s.usable rootSlot = true) ∧ (s.fertile rootSlot = true) ∧ (gen < (s.slot domainSlot).gen) ∧ (gen < 0xFFFFFFFF)) ∧
    (∃ (s : State) (i : Nat), (s.alive = true) ∧ (i < 65536) ∧ (s.usable i = true) ∧ (s.fertile i = true) ∧ ((s.slot i).state = 1) ∧ ((1 ≤ (s.slot i).kind ∧ (s.slot i).kind ≤ 4 ∨ (s.slot i).kind = 6)) ∧ ((s.slot i).next = false) ∧ (0xFFFFFFFE ≤ (s.slot i).gen)) ∧
    (∃ (s : State) (i : Nat), (s.alive = true) ∧ (i < 65536) ∧ (s.usable i = true) ∧ ((s.slot i).state = 2) ∧ ((1 ≤ (s.slot i).kind ∧ (s.slot i).kind ≤ 4 ∨ (s.slot i).kind = 6))) ∧
    (∃ (s : State) (i : Nat), (s.alive = true) ∧ (s.usable i = true) ∧ ((s.slot i).next = false)) ∧
    (∃ (s : State) (i : Nat), (s.alive = true) ∧ (s.usable i = true) ∧ ((s.slot i).next = true) ∧ ((s.slot i).state = 2)) ∧
    (∃ (s : State) (i : Nat), (s.alive = true) ∧ (s.usable i = false)) ∧
    (∃ (s : State) (i : Nat) (use : Nat), (s.alive = true) ∧ (s.usable i = true) ∧ (use ≠ (s.slot i).dfltUse) ∧ (use &&& (s.slot i).use ≠ use)) :=
  ⟨⟨up, 3, (by decide +kernel), (by decide +kernel), (by decide +kernel)⟩,
    ⟨up, 3, (by decide +kernel), (by decide +kernel), (by decide +kernel)⟩,
    ⟨up, 9, 1, 63, (by decide +kernel), (by decide +kernel), (by decide +kernel), (by decide +kernel), (by decide +kernel)⟩,
    ⟨up, 9, 3, 2, (by decide +kernel), (by decide +kernel), (by decide +kernel), (by decide +kernel), (by decide +kernel)⟩,
    ⟨({ up with random := { stopped := true } }), 9, 2, 0x41, (by decide +kernel), (by decide +kernel), (by decide +kernel), (by decide +kernel), (by decide +kernel), (by decide +kernel), (by decide +kernel)⟩,
    ⟨up, 63, 0xFFFFFFFF, (by decide +kernel), (by decide +kernel), (by decide +kernel), (by decide +kernel), (by decide +kernel), (by decide +kernel)⟩,
    ⟨({ alone with keys := { slots := [(0x10000, { state := 1 }), (0x10001, { gen := 3 })] } }), 2, (by decide +kernel), (by decide +kernel), (by decide +kernel), (by decide +kernel), (by decide +kernel), (by decide +kernel)⟩,
    ⟨(withSlot 3 { slotOf 1 1 with gen := 0xFFFFFFFE }), 3, (by decide +kernel), (by decide +kernel), (by decide +kernel), (by decide +kernel), (by decide +kernel), (by decide +kernel), (by decide +kernel), (by decide +kernel)⟩,
    ⟨(withSlot 3 { slotOf 1 1 with state := 2 }), 3, (by decide +kernel), (by decide +kernel), (by decide +kernel), (by decide +kernel), (by decide +kernel)⟩,
    ⟨up, 3, (by decide +kernel), (by decide +kernel), (by decide +kernel)⟩,
    ⟨(withSlot 3 { slotOf 1 1 with state := 2, next := true }), 3, (by decide +kernel), (by decide +kernel), (by decide +kernel), (by decide +kernel)⟩,
    ⟨up, 9, (by decide +kernel), (by decide +kernel)⟩,
    ⟨up, 3, 0x400, (by decide +kernel), (by decide +kernel), (by decide +kernel), (by decide +kernel)⟩⟩

theorem witness_GenerationNeverFalls :
    (∃ (s : State) (i : Nat) (j : Nat) (kind : Nat) (parent : Nat) (nonce : Nat) (gen : Nat) (use : Nat) (seed : Bytes) (c : Instr), (c ∈ [Instr.createDerived i kind parent nonce gen, .createSeed i kind parent nonce gen seed, .setNext i seed, .advance i, .invalidate i, .retire i, .setUse i use, .readDir i, .kspStatusClear use]) ∧ ((65536 ≤ j ∨ (s.slot j).state ≠ 0)) ∧ ∃ (t : State), (exec c s = .next t)) ∧
    (∃ (s : State) (i : Nat) (j : Nat) (kind : Nat) (parent : Nat) (nonce : Nat) (gen : Nat) (use : Nat) (seed : Bytes) (c : Instr), (c ∈ [Instr.createDerived i kind parent nonce gen, .createSeed i kind parent nonce gen seed, .setNext i seed, .advance i, .invalidate i, .retire i, .setUse i use, .readDir i, .kspStatusClear use]) ∧ ((65536 ≤ j ∨ (s.slot j).state ≠ 0)) ∧ ((s.slot j).state ≠ 0) ∧ ∃ (t : State), (exec c s = .next t)) :=
  ⟨⟨up, 0x10101, 0x10101, 0, 0, 0, 0, 0, ([]), (.invalidate 0x10101), by simp, (by decide +kernel), next_of (by decide +kernel)⟩,
    ⟨up, 3, 3, 0, 0, 0, 0, 0, ([]), (.setNext 3 []), by simp, (by decide +kernel), (by decide +kernel), next_of (by decide +kernel)⟩⟩

theorem witness_CipherEngineOperations :
    (∃ (s : State) (k : Bytes), (s.alive = true) ∧ (s.gce.fault = false) ∧ (s.gce.key = some k)) ∧
    (∃ (s : State), (s.alive = true) ∧ (s.gce.fault = false)) ∧
    (∃ (s : State), (s.alive = true) ∧ (s.gce.fault = false) ∧ (s.gce.digest ≠ [])) ∧
    (∃ (s : State), (s.alive = true) ∧ (s.gce.fault = false) ∧ (s.gce.digest = [])) ∧
    (∃ (s : State) (r : GceIn) (k : Bytes) (wide : Bool), (s.alive = true) ∧ (s.gce.fault = false) ∧ (s.gce.key = some k) ∧ (ctrAtEnd wide (padTo 16 (regWritten s.gce.ctr r.reg)) = false) ∧ (¬ (s.alarms.point = 0x16 ∧ s.alarms.unit = 0 ∧ 0 < s.alarms.count))) ∧
    (∃ (s : State) (din : Bytes) (op : Nat × Instr), (s.alive = true) ∧ (s.gce.fault = false) ∧ (s.gce.key = none) ∧ (op ∈ [(1, Instr.enc din), (2, .dec din), (5, .loadH)])) ∧
    (∃ (s : State), (s.alive = true)) ∧
    (∃ (s : State) (r : GceIn) (wide : Bool), (s.alive = true) ∧ (s.gce.fault = false) ∧ ((ctrAtEnd wide (padTo 16 (regWritten s.gce.ctr r.reg)) = true ∨ s.alarms.point = 0x16 ∧ s.alarms.unit = 0 ∧ 0 < s.alarms.count))) ∧
    (∃ (s : State) (r : GceIn) (din : Bytes) (blk : Bytes) (wide : Bool) (c : Instr × Gce), (s.alive = true) ∧ (s.gce.fault = true) ∧ (c ∈ [(Instr.enc din, s.gce.withDin din), (.dec din, s.gce.withDin din), (.ctrEnc r wide, { s.gce.withDin r.din with ctr := regWritten s.gce.ctr r.reg }), (.ghash r, { s.gce.withDin r.din with y := regWritten s.gce.y r.reg }), (.loadH, s.gce), (.shaInit, s.gce), (.shaBlock blk, { s.gce with shaBlk := padTo 128 blk }), (.drbg, s.gce), (.shaClear, s.gce)])) ∧
    (∃ (s : State) (leaf : Nat), (s.alive = true) ∧ (leaf < 65536) ∧ (s.usable leaf = true) ∧ ((s.slot leaf).use.testBit 9 = true)) ∧
    (∃ (s : State) (leaf : Nat), (s.alive = true) ∧ (leaf < 65536) ∧ ((s.usable leaf = false ∨ (s.slot leaf).use.testBit 9 = false))) ∧
    (∃ (s : State), (s.alive = true) ∧ (s.gce.fault = false) ∧ ∃ (u : State) (b : Bytes), (({ s with gce := { s.gce with ctrl := 8 } } : State).drawChild drbgGce 16 = some (b, u))) ∧
    (∃ (s : State), (s.alive = true) ∧ (s.gce.fault = false) ∧ (s.random.stopped = true)) :=
  ⟨⟨({ up with gce := { key := some (List.replicate 32 1#8), h := List.replicate 16 2#8 } }), (List.replicate 32 1#8), (by decide +kernel), (by decide +kernel), (by decide +kernel)⟩,
    ⟨up, (by decide +kernel), (by decide +kernel)⟩,
    ⟨({ up with gce := { digest := [1] } }), (by decide +kernel), (by decide +kernel), (by decide +kernel)⟩,
    ⟨up, (by decide +kernel), (by decide +kernel), (by decide +kernel)⟩,
    ⟨({ up with gce := { key := some (List.replicate 32 1#8), h := List.replicate 16 2#8, ctr := List.replicate 12 0#8 ++ [0xFF#8, 0xFF#8, 0xFF#8, 0xFE#8] } }), ({ din := [] }), (List.replicate 32 1#8), false, (by decide +kernel), (by decide +kernel), (by decide +kernel), (by decide +kernel), (by decide +kernel)⟩,
    ⟨up, ([]), ((1, Instr.enc [])), (by decide +kernel), (by decide +kernel), (by decide +kernel), (by decide +kernel)⟩,
    ⟨up, (by decide +kernel)⟩,
    ⟨({ up with gce := { ctr := List.replicate 12 0#8 ++ [0xFF#8, 0xFF#8, 0xFF#8, 0xFF#8] } }), ({ din := [] }), false, (by decide +kernel), (by decide +kernel), (by decide +kernel)⟩,
    ⟨({ up with gce := { fault := true } }), ({ din := [] }), ([]), ([]), true, ((Instr.loadH, { fault := true })), (by decide +kernel), (by decide +kernel), (by decide +kernel)⟩,
    ⟨up, 4, (by decide +kernel), (by decide +kernel), (by decide +kernel), (by decide +kernel)⟩,
    ⟨(withSlot 4 { slotOf 6 0x41 with use := 0x1FF }), 4, (by decide +kernel), (by decide +kernel), (by decide +kernel)⟩,
    ⟨up, (by decide +kernel), (by decide +kernel), some_ba (by decide +kernel)⟩,
    ⟨({ up with random := { stopped := true } }), (by decide +kernel), (by decide +kernel), (by decide +kernel)⟩⟩

theorem witness_RandomSources :
    (∃ (s : State), (s.bring.por = false) ∧ (s.random.stopped = false) ∧ (s.random.seed = none) ∧ (s.random.words.length < 6)) ∧
    (∃ (s : State) (seed : Bytes), (s.bring.por = false) ∧ (s.random.stopped = false) ∧ (s.random.seed = some seed)) ∧
    (∃ (s : State) (n : Nat), (s.bring.por = false) ∧ (1 ≤ n) ∧ (n ≤ 46) ∧ (drawable s)) ∧
    (∃ (s : State), (s.bring.por = false) ∧ (s.random.stopped = false)) ∧
    (∃ (s : State) (m : Mgmt) (offset : Nat) (length : Nat), (s.serving = true) ∧ (s.roleOf m ≠ .none) ∧ (offset < 32) ∧ (offset + length ≤ 32) ∧ ∃ (u : State) (b : Bytes), (s.drawChild drbgGce 32 = some (b, u))) ∧
    (∃ (s : State) (m : Mgmt) (offset : Nat) (length : Nat), (s.serving = true) ∧ (s.roleOf m ≠ .none) ∧ (offset < 32) ∧ (offset + length ≤ 32) ∧ (s.random.stopped = true)) ∧
    (∃ (s : State), (s.alive = true)) ∧
    (∃ (s : State), (s.alive = true)) :=
  ⟨⟨({ up with random := { words := [1, 2, 3, 4, 5] } }), (by decide +kernel), (by decide +kernel), (by decide +kernel), (by decide +kernel)⟩,
    ⟨({ up with random := { seed := some [1#8] } }), ([1#8]), (by decide +kernel), (by decide +kernel), (by decide +kernel)⟩,
    ⟨up, 46, (by decide +kernel), (by decide +kernel), (by decide +kernel), ⟨(by decide +kernel), (by decide +kernel)⟩⟩,
    ⟨({ State.reset with bring := { por := false } }), (by decide +kernel), (by decide +kernel)⟩,
    ⟨up, opr, 31, 1, (by decide +kernel), (by decide +kernel), (by decide +kernel), (by decide +kernel), some_ba (by decide +kernel)⟩,
    ⟨({ up with random := { stopped := true } }), opr, 0, 32, (by decide +kernel), (by decide +kernel), (by decide +kernel), (by decide +kernel), (by decide +kernel)⟩,
    ⟨up, (by decide +kernel)⟩,
    ⟨up, (by decide +kernel)⟩⟩

theorem witness_PowerOnReset :
    (∃ (s : State), (s.due = [])) ∧
    (∃ (s : State), (s.bring.por = true)) ∧
    (∃ (s : State), (s.due = []) ∧ (s.bring.por = false)) ∧
    (∃ (s : State), (s.bring.rstReq = true) ∧ (s.bring.por = false) ∧ (s.power.state = 0)) ∧
    (∃ (s : State), (s.due = []) ∧ (s.bring.rstReq = true) ∧ (s.bring.por = false) ∧ (s.power.state ≠ 0)) ∧
    (∃ (s : State), (s.due = []) ∧ (s.bring.rstReq = false)) :=
  ⟨⟨up, (by decide +kernel)⟩,
    ⟨State.reset, (by decide +kernel)⟩,
    ⟨up, (by decide +kernel), (by decide +kernel)⟩,
    ⟨({ up with bring := { up.bring with rstReq := true } }), (by decide +kernel), (by decide +kernel), (by decide +kernel)⟩,
    ⟨({ up with bring := { up.bring with rstReq := true }, power := { state := 2 } }), (by decide +kernel), (by decide +kernel), (by decide +kernel), (by decide +kernel)⟩,
    ⟨up, (by decide +kernel), (by decide +kernel)⟩⟩

theorem witness_LoaderMessages :
    (∃ (s : State), (s.due = []) ∧ (s.bring.por = false) ∧ (s.awake = true) ∧ (s.bring.phase = 4) ∧ (s.bring.ready = false)) ∧
    (∃ (s : State), (s.due = []) ∧ (s.bring.por = false) ∧ (s.awake = true) ∧ (s.bring.phase = 5)) ∧
    (∃ (s : State) (m : Mgmt), (granted s m 0x1101 5 (leBytes 1 1)) ∧ (s.life.state = .blank) ∧ (¬ 5 ∈ s.life.written) ∧ ((∀ x ∈ s.fuseBytes 0 12, x = 0#8)) ∧ ∃ (u : State) (b : Bytes), (({ s with life := { s.life with written := 5 :: s.life.written } } : State).drawMaster 48 = some (b, u))) ∧
    (∃ (s : State) (m : Mgmt), (granted s m 0x1101 5 (leBytes 1 1)) ∧ (s.life.state = .blank) ∧ (¬ 5 ∈ s.life.written) ∧ ((∀ x ∈ s.fuseBytes 0 12, x = 0#8)) ∧ (s.random.stopped = true)) ∧
    (∃ (s : State) (m : Mgmt) (v : Nat), (granted s m 0x1101 6 (leBytes 8 v)) ∧ (s.life.state = .blank) ∧ (¬ 6 ∈ s.life.written) ∧ ((∀ x ∈ s.fuseBytes 0x18 2, x = 0#8))) ∧
    (∃ (s : State) (m : Mgmt) (b : Bytes), (granted s m 0x1101 7 b) ∧ (s.life.state = .blank) ∧ (¬ 7 ∈ s.life.written) ∧ ((∀ x ∈ s.fuseBytes 0x20 12, x = 0#8))) ∧
    (∃ (s : State) (m : Mgmt) (v : Nat), (s.life.state ≠ .blank ∨ (5 ∈ s.life.written ∧ 6 ∈ s.life.written ∧ 7 ∈ s.life.written)) ∧ (granted s m 0x1101 5 (leBytes 1 v))) ∧
    (∃ (s : State) (m : Mgmt) (v : Nat), (s.life.state ≠ .blank ∨ (5 ∈ s.life.written ∧ 6 ∈ s.life.written ∧ 7 ∈ s.life.written)) ∧ (granted s m 0x1101 6 (leBytes 8 v))) ∧
    (∃ (s : State) (m : Mgmt) (b : Bytes), (s.life.state ≠ .blank ∨ (5 ∈ s.life.written ∧ 6 ∈ s.life.written ∧ 7 ∈ s.life.written)) ∧ (granted s m 0x1101 7 b)) :=
  ⟨⟨({ State.reset with bring := { por := false, phase := 4 } }), (by decide +kernel), (by decide +kernel), (by decide +kernel), (by decide +kernel), (by decide +kernel)⟩,
    ⟨({ State.reset with bring := { por := false, phase := 5 } }), (by decide +kernel), (by decide +kernel), (by decide +kernel), (by decide +kernel)⟩,
    ⟨blank, plain, granted_of (by decide +kernel), (by decide +kernel), (by decide +kernel), (by decide +kernel), some_ba (by decide +kernel)⟩,
    ⟨({ blank with random := { stopped := true } }), plain, granted_of (by decide +kernel), (by decide +kernel), (by decide +kernel), (by decide +kernel), (by decide +kernel)⟩,
    ⟨blank, plain, 5, granted_of (by decide +kernel), (by decide +kernel), (by decide +kernel), (by decide +kernel)⟩,
    ⟨blank, plain, (List.replicate 48 1#8), granted_of (by decide +kernel), (by decide +kernel), (by decide +kernel), (by decide +kernel)⟩,
    ⟨({ blank with life := { written := [5, 6, 7] } }), plain, 1, (by decide +kernel), granted_of (by decide +kernel)⟩,
    ⟨({ blank with life := { written := [5, 6, 7] } }), plain, 1, (by decide +kernel), granted_of (by decide +kernel)⟩,
    ⟨({ blank with life := { written := [5, 6, 7] } }), plain, (List.replicate 48 1#8), (by decide +kernel), granted_of (by decide +kernel)⟩⟩

theorem witness_LifeCycleTransition :
    (∃ (s : State) (m : Mgmt) (code : Nat), (granted s m 0x1101 1 (leBytes 1 code)) ∧ (code < 256)) ∧
    (∃ (s : State) (m : Mgmt) (v : Nat), (granted s m 0x1101 2 (leBytes 4 v)) ∧ (v < 2 ^ 32) ∧ ((s.life.target = none ∨ s.life.confirm ≠ 1))) ∧
    (∃ (s : State) (m : Mgmt) (v : Nat) (c : Nat), (granted s m 0x1101 2 (leBytes 4 v)) ∧ (v < 2 ^ 32) ∧ (s.life.target = some c) ∧ (s.life.confirm = 1) ∧ (v ≠ s.serial % 2 ^ 32)) ∧
    (∃ (s : State) (m : Mgmt) (v : Nat) (c : Nat) (l : Life), (granted s m 0x1101 2 (leBytes 4 v)) ∧ (v < 2 ^ 32) ∧ (s.life.target = some c) ∧ (s.life.confirm = 1) ∧ (v = s.serial % 2 ^ 32) ∧ (lifeOf c = some l) ∧ (s.transitionGate l s.life.requester ≠ 0)) ∧
    (∃ (s : State) (m : Mgmt) (v : Nat) (c : Nat) (l : Life), (granted s m 0x1101 2 (leBytes 4 v)) ∧ (v < 2 ^ 32) ∧ (s.life.target = some c) ∧ (s.life.confirm = 1) ∧ (v = s.serial % 2 ^ 32) ∧ (lifeOf c = some l) ∧ (s.transitionGate l s.life.requester = 0)) ∧
    (∃ (s : State), (calm s) ∧ (s.life.confirm = 1)) :=
  ⟨⟨up, mk, 255, granted_of (by decide +kernel), (by decide +kernel)⟩,
    ⟨up, mk, 0, granted_of (by decide +kernel), (by decide +kernel), (by decide +kernel)⟩,
    ⟨({ up with life := { state := .test, target := some 2, confirm := 1 } }), mk, 5, 2, granted_of (by decide +kernel), (by decide +kernel), (by decide +kernel), (by decide +kernel), (by decide +kernel)⟩,
    ⟨({ up with life := { state := .test, target := some 0, confirm := 1 } }), mk, 0, 0, .blank, granted_of (by decide +kernel), (by decide +kernel), (by decide +kernel), (by decide +kernel), (by decide +kernel), (by decide +kernel), (by decide +kernel)⟩,
    ⟨({ up with life := { state := .test, target := some 2, confirm := 1, requester := .maker } }), mk, 0, 2, .production, granted_of (by decide +kernel), (by decide +kernel), (by decide +kernel), (by decide +kernel), (by decide +kernel), (by decide +kernel), (by decide +kernel)⟩,
    ⟨({ up with life := { state := .test, confirm := 1 } }), ⟨(by decide +kernel), (by decide +kernel)⟩, (by decide +kernel)⟩⟩

theorem witness_DebugAuthorisation :
    (∃ (s : State) (m : Mgmt), (granted s m 0x1102 1 (leBytes 1 1)) ∧ (s.life.state = .production) ∧ (s.life.failures < 8) ∧ (s.life.debug < 2) ∧ ∃ (u : State) (n : Bytes), (s.drawMaster 32 = some (n, u))) ∧
    (∃ (s : State) (m : Mgmt), (granted s m 0x1102 1 (leBytes 1 2)) ∧ (s.life.state = .production) ∧ (s.fw.fw = 0) ∧ (s.life.debug = 1)) ∧
    (∃ (s : State) (m : Mgmt), (granted s m 0x1102 1 (leBytes 1 4)) ∧ (s.life.state = .test) ∧ (s.roleOf m ≠ .maker)) ∧
    (∃ (s : State) (m : Mgmt), (granted s m 0x1102 1 (leBytes 1 4)) ∧ (s.life.state = .test) ∧ (s.roleOf m = .maker) ∧ (s.life.debug < 3)) ∧
    (∃ (s : State) (m : Mgmt), (granted s m 0x1102 1 (leBytes 1 3)) ∧ ((s.life.state = .test → s.roleOf m = .maker))) ∧
    (∃ (s : State), (s.alive = true) ∧ (s.life.debug = 3) ∧ (s.life.cleared = false)) ∧
    (∃ (s : State), (calm s) ∧ (s.life.debug = 3) ∧ (s.life.cleared = true) ∧ ((∀ kv ∈ s.parts, kv.2.state = 0))) :=
  ⟨⟨prod, ins, granted_of (by decide +kernel), (by decide +kernel), (by decide +kernel), (by decide +kernel), some_ba (by decide +kernel)⟩,
    ⟨({ prod with life := { state := .production, debug := 1 } }), ins, granted_of (by decide +kernel), (by decide +kernel), (by decide +kernel), (by decide +kernel)⟩,
    ⟨up, ins, granted_of (by decide +kernel), (by decide +kernel), (by decide +kernel)⟩,
    ⟨up, mk, granted_of (by decide +kernel), (by decide +kernel), (by decide +kernel), (by decide +kernel)⟩,
    ⟨up, mk, granted_of (by decide +kernel), (by decide +kernel)⟩,
    ⟨({ prod with life := { state := .production, debug := 3 } }), (by decide +kernel), (by decide +kernel), (by decide +kernel)⟩,
    ⟨({ prod with life := { state := .production, debug := 3, cleared := true } }), ⟨(by decide +kernel), (by decide +kernel)⟩, (by decide +kernel), (by decide +kernel), (by decide +kernel)⟩⟩

theorem witness_GateAndMembership :
    (∃ (s : State) (m : Mgmt), (granted s m 0x7001 1 (leBytes 1 1)) ∧ ((s.life.state = .test ∨ s.life.state = .production)) ∧ (s.bring.gate = true)) ∧
    (∃ (s : State) (m : Mgmt), (granted s m 0x7001 1 (leBytes 1 1)) ∧ ((s.life.state = .test ∨ s.life.state = .production)) ∧ (s.bring.gate = false)) ∧
    (∃ (s : State) (m : Mgmt), (granted s m 0x7002 2 (leBytes 1 1)) ∧ (s.bring.gate = true) ∧ (s.bring.member = false) ∧ (s.life.debug ≠ 4) ∧ (s.bring.join ≠ 1) ∧ (drawable s) ∧ ((s.slot domainSlot).state = 0) ∧ (s.usable rootSlot = true) ∧ (s.fertile rootSlot = true) ∧ ((s.slot domainSlot).gen < 0xFFFFFFFF)) ∧
    (∃ (s : State) (m : Mgmt), (granted s m 0x7002 2 (leBytes 1 1)) ∧ (s.bring.gate = false)) ∧
    (∃ (s : State) (m : Mgmt) (p : Hello), (granted s m 0x7002 2 (leBytes 1 2)) ∧ (s.bring.gate = true) ∧ (s.bring.member = false) ∧ (s.life.debug ≠ 4) ∧ (s.bring.join ≠ 1) ∧ ((s.link s.joinPort).state = 3) ∧ ((s.link s.joinPort).peer = some p) ∧ (p.isMember = true)) ∧
    (∃ (s : State) (l : Nat) (status : Nat), (calm s) ∧ (l < s.cfg.links) ∧ (s.bring.join = 1) ∧ (s.bring.joinLink = l) ∧ ((s.link l).state = 3) ∧ ((s.link l).session.requester = true) ∧ ((s.link l).session.stage = 5) ∧ (status ≠ 0) ∧ (status < 256)) ∧
    (∃ (s : State), (calm s)) ∧
    (∃ (s : State) (l : Nat) (member : Nat), (calm s) ∧ (s.bring.ready = true) ∧ (l < s.cfg.links) ∧ (s.reachable (.link l) = true) ∧ (s.fw.fw = 0) ∧ ((s.life.state = .test ∨ s.life.state = .production)) ∧ (s.bring.member = true) ∧ (s.asks (.link l) = false) ∧ ((s.link l).session.stage = 5) ∧ (member < 2 ^ 16)) :=
  ⟨⟨up, ins, granted_of (by decide +kernel), (by decide +kernel), (by decide +kernel)⟩,
    ⟨({ up with bring := { up.bring with gate := false } }), ins, granted_of (by decide +kernel), (by decide +kernel), (by decide +kernel)⟩,
    ⟨alone, ins, granted_of (by decide +kernel), (by decide +kernel), (by decide +kernel), (by decide +kernel), (by decide +kernel), ⟨(by decide +kernel), (by decide +kernel)⟩, (by decide +kernel), (by decide +kernel), (by decide +kernel), (by decide +kernel)⟩,
    ⟨({ up with bring := { up.bring with gate := false } }), ins, granted_of (by decide +kernel), (by decide +kernel)⟩,
    ⟨({ alone with links := [(0, { state := 3, peer := some { isMember := true } })] }), ins, ({ isMember := true }), granted_of (by decide +kernel), (by decide +kernel), (by decide +kernel), (by decide +kernel), (by decide +kernel), (by decide +kernel), (by decide +kernel), (by decide +kernel)⟩,
    ⟨({ alone with bring := { alone.bring with join := 1, joinLink := 2 }, links := [(2, { state := 3, session := { stage := 5, requester := true } })] }), 2, 255, ⟨(by decide +kernel), (by decide +kernel)⟩, (by decide +kernel), (by decide +kernel), (by decide +kernel), (by decide +kernel), (by decide +kernel), (by decide +kernel), (by decide +kernel), (by decide +kernel)⟩,
    ⟨up, ⟨(by decide +kernel), (by decide +kernel)⟩⟩,
    ⟨({ up with links := [(31, { state := 3, session := { stage := 5 } })] }), 31, 0xFFFF, ⟨(by decide +kernel), (by decide +kernel)⟩, (by decide +kernel), (by decide +kernel), (by decide +kernel), (by decide +kernel), (by decide +kernel), (by decide +kernel), (by decide +kernel), (by decide +kernel), (by decide +kernel)⟩⟩

theorem witness_FirmwareUpdate :
    (∃ (s : State) (m : Mgmt) (b : Bytes), (granted s m 0x4130 2 b)) ∧
    (∃ (s : State) (m : Mgmt), (granted s m 0x4130 3 (leBytes 1 1)) ∧ (s.fw.fw ≠ 0)) ∧
    (∃ (s : State) (m : Mgmt), (granted s m 0x4130 3 (leBytes 1 1)) ∧ (s.fw.fw = 0)) ∧
    (∃ (s : State) (m : Mgmt), (granted s m 0x4130 3 (leBytes 1 2)) ∧ (s.fw.fw ≠ 1)) ∧
    (∃ (s : State) (m : Mgmt), (granted s m 0x4130 3 (leBytes 1 2)) ∧ (s.fw.fw = 1)) ∧
    (∃ (s : State) (m : Mgmt), (granted s m 0x4130 3 (leBytes 1 3)) ∧ (s.fw.fw ≠ 1)) ∧
    (∃ (s : State) (m : Mgmt), (granted s m 0x4130 3 (leBytes 1 3)) ∧ (s.fw.fw = 1) ∧ ((∀ l, (s.link l).updateDue = false)) ∧ ((∀ c, (s.chip c).updateDue = false))) ∧
    (∃ (s : State), (calm s) ∧ (s.fw.fw = 2)) ∧
    (∃ (s : State) (m : Mgmt) (pq : Bool) (chain : Bytes), (granted s m 0x4120 (1 + bn pq) chain)) :=
  ⟨⟨up, mk, (List.replicate 4096 1#8), granted_of (by decide +kernel)⟩,
    ⟨({ up with fw := { fw := 1 } }), mk, granted_of (by decide +kernel), (by decide +kernel)⟩,
    ⟨up, mk, granted_of (by decide +kernel), (by decide +kernel)⟩,
    ⟨up, mk, granted_of (by decide +kernel), (by decide +kernel)⟩,
    ⟨({ up with fw := { fw := 1 } }), mk, granted_of (by decide +kernel), (by decide +kernel)⟩,
    ⟨up, mk, granted_of (by decide +kernel), (by decide +kernel)⟩,
    ⟨({ up with fw := { fw := 1 } }), mk, granted_of (by decide +kernel), (by decide +kernel), fun _ => rfl, fun _ => rfl⟩,
    ⟨({ up with fw := { fw := 2 } }), ⟨(by decide +kernel), (by decide +kernel)⟩, (by decide +kernel)⟩,
    ⟨up, mk, true, ([1#8]), granted_of (by decide +kernel)⟩⟩

theorem witness_PortPhysicalResets :
    (∃ (s : State) (i : Nat), (s.alive = true) ∧ (i < s.cfg.chipPorts)) ∧
    (∃ (s : State) (i : Nat), (s.alive = true) ∧ (i < s.cfg.links)) ∧
    (∃ (s : State) (i : Nat), (s.alive = true) ∧ (i < s.cfg.hostPorts)) ∧
    (∃ (s : State) (i : Nat), (calm s) ∧ (i < s.cfg.chipPorts)) ∧
    (∃ (s : State) (i : Nat), (calm s) ∧ (i < s.cfg.links)) ∧
    (∃ (s : State) (i : Nat), (calm s) ∧ (i < s.cfg.hostPorts)) ∧
    (∃ (s : State) (i : Nat), (s.alive = false) ∧ (s.due = []) ∧ (i < s.cfg.chipPorts)) ∧
    (∃ (s : State) (i : Nat), (s.alive = false) ∧ (s.due = []) ∧ (i < s.cfg.links)) ∧
    (∃ (s : State) (i : Nat), (s.alive = false) ∧ (s.due = []) ∧ (i < s.cfg.hostPorts)) ∧
    (∃ (s : State) (i : Nat), (s.cfg.links ≤ i)) ∧
    (∃ (s : State) (h : Nat) (fn : Nat), (calm s) ∧ (s.faults.phase = 0) ∧ (s.power.state = 0) ∧ ((s.host h).inReset = false) ∧ (h < s.cfg.hostPorts) ∧ (1 ≤ fn) ∧ (fn ≤ 256) ∧ ((∀ kv ∈ s.tdis, kv.1 ≠ tdiKey h (fn - 1)))) ∧
    (∃ (s : State) (h : Nat) (fn : Nat), (calm s) ∧ (s.faults.phase = 0) ∧ (s.power.state ≠ 0) ∧ ((s.host h).inReset = false) ∧ (h < s.cfg.hostPorts) ∧ (fn ≤ 256)) ∧
    (∃ (s : State) (h : Nat) (fn : Nat), (calm s) ∧ ((s.host h).inReset = true) ∧ (h < s.cfg.hostPorts) ∧ (fn ≤ 256)) ∧
    (∃ (s : State) (h : Nat) (fn : Nat), (rested s) ∧ (s.power.state = 0) ∧ ((s.host h).inReset = false) ∧ (h < s.cfg.hostPorts) ∧ (1 ≤ fn) ∧ (fn ≤ 256) ∧ ((∃ kv ∈ s.tdis, kv.1 = tdiKey h (fn - 1))) ∧ ((s.tdi (tdiKey h (fn - 1))).stopping = false)) ∧
    (∃ (s : State) (h : Nat), (s.cfg.hostPorts ≤ h)) :=
  ⟨⟨up, 7, (by decide +kernel), (by decide +kernel)⟩,
    ⟨up, 31, (by decide +kernel), (by decide +kernel)⟩,
    ⟨up, 3, (by decide +kernel), (by decide +kernel)⟩,
    ⟨up, 7, ⟨(by decide +kernel), (by decide +kernel)⟩, (by decide +kernel)⟩,
    ⟨({ up with links := [(31, { inReset := true })] }), 31, ⟨(by decide +kernel), (by decide +kernel)⟩, (by decide +kernel)⟩,
    ⟨up, 3, ⟨(by decide +kernel), (by decide +kernel)⟩, (by decide +kernel)⟩,
    ⟨off, 0, (by decide +kernel), (by decide +kernel), (by decide +kernel)⟩,
    ⟨off, 31, (by decide +kernel), (by decide +kernel), (by decide +kernel)⟩,
    ⟨off, 0, (by decide +kernel), (by decide +kernel), (by decide +kernel)⟩,
    ⟨up, 32, (by decide +kernel)⟩,
    ⟨up, 3, 256, ⟨(by decide +kernel), (by decide +kernel)⟩, (by decide +kernel), (by decide +kernel), (by decide +kernel), (by decide +kernel), (by decide +kernel), (by decide +kernel), (by decide +kernel)⟩,
    ⟨({ up with power := { state := 3 } }), 3, 256, ⟨(by decide +kernel), (by decide +kernel)⟩, (by decide +kernel), (by decide +kernel), (by decide +kernel), (by decide +kernel), (by decide +kernel)⟩,
    ⟨({ up with hosts := [(3, { inReset := true })] }), 3, 256, ⟨(by decide +kernel), (by decide +kernel)⟩, (by decide +kernel), (by decide +kernel), (by decide +kernel)⟩,
    ⟨({ up with tdis := [(tdiKey 0 0, { state := 2 })] }), 0, 1, ⟨(by decide +kernel), (by decide +kernel)⟩, (by decide +kernel), (by decide +kernel), (by decide +kernel), (by decide +kernel), (by decide +kernel), (by decide +kernel), (by decide +kernel)⟩,
    ⟨up, 4, (by decide +kernel)⟩⟩

theorem witness_PowerStates :
    (∃ (s : State), (rested s) ∧ (s.power.exiting = none) ∧ (s.power.entering = none) ∧ ((s.power.state = 0 ∨ s.power.state = 2)) ∧ (s.permitted (s.power.state + 1) = true) ∧ (s.entryHolds (s.power.state + 1) = true)) ∧
    (∃ (s : State), (rested s) ∧ (s.power.exiting = none) ∧ (s.power.entering = none) ∧ (s.power.state = 1) ∧ (s.permitted 2 = true) ∧ (s.entryHolds 2 = true) ∧ ((∀ l, (s.link l).state ≠ 4)) ∧ ((∀ kv ∈ s.links, kv.2.state ≠ 4)) ∧ ((∀ c, (s.chip c).state ≠ 4)) ∧ ((∀ kv ∈ s.chips, kv.2.state ≠ 4))) ∧
    (∃ (s : State), (rested s) ∧ (s.permitted (s.power.state + 1) = false)) ∧
    (∃ (s : State), (calm s)) ∧
    (∃ (s : State) (k : Nat), (s.alive = true) ∧ (s.power.exiting = some k)) ∧
    (∃ (s : State), (calm s) ∧ (s.power.exiting = none)) ∧
    (∃ (s : State) (i : Nat) (p : Nat) (entropy : Option Bytes) (c : Instr), (rested s) ∧ (s.power.state ≠ 0) ∧ (s.arithWork = true) ∧ ((s.ctx i).resetDue = true) ∧ ((s.partn p).resetDue = true) ∧ (s.bring.rstReq = true) ∧ (c ∈ [Instr.attentionStep i, .shardMerge i, .kvAppend i, .sample i, .bridgeStream i, .reduce i, .merge i, .contextReset i, .partitionReset p, .blockReset entropy]) ∧ (p < s.cfg.partitions)) :=
  ⟨⟨up, ⟨(by decide +kernel), (by decide +kernel)⟩, (by decide +kernel), (by decide +kernel), (by decide +kernel), (by decide +kernel), (by decide +kernel)⟩,
    ⟨({ up with power := { state := 1 } }), ⟨(by decide +kernel), (by decide +kernel)⟩, (by decide +kernel), (by decide +kernel), (by decide +kernel), (by decide +kernel), (by decide +kernel), fun _ => show (0 : Nat) ≠ 4 by decide, (by decide +kernel), fun _ => show (0 : Nat) ≠ 4 by decide, (by decide +kernel)⟩,
    ⟨({ up with settings := [(ekey 0x1210 2, 0)] }), ⟨(by decide +kernel), (by decide +kernel)⟩, (by decide +kernel)⟩,
    ⟨up, ⟨(by decide +kernel), (by decide +kernel)⟩⟩,
    ⟨({ up with power := { state := 2, exiting := some 0 } }), 0, (by decide +kernel), (by decide +kernel)⟩,
    ⟨up, ⟨(by decide +kernel), (by decide +kernel)⟩, (by decide +kernel)⟩,
    ⟨({ up with power := { state := 1 }, ctxs := [(6, { state := 1, resetDue := true })], parts := [(1, { state := 1, resetDue := true })], bring := { up.bring with rstReq := true }, cmds := [(5, { opcode := 0x25 })] }), 6, 1, none, (Instr.contextReset 6), ⟨(by decide +kernel), (by decide +kernel)⟩, (by decide +kernel), (by decide +kernel), (by decide +kernel), (by decide +kernel), (by decide +kernel), by simp, (by decide +kernel)⟩⟩

theorem witness_RegulationWindow :
    (∃ (s : State), (calm s) ∧ (s.fclk = false)) ∧
    (∃ (s : State), (s.alive = true) ∧ (s.fclk = true)) :=
  ⟨⟨({ up with power := { state := 3 } }), ⟨(by decide +kernel), (by decide +kernel)⟩, (by decide +kernel)⟩,
    ⟨up, (by decide +kernel), (by decide +kernel)⟩⟩

theorem witness_LatencyTolerance : ∃ (s : State), (s.power.tolerance = 0) :=
  ⟨({ up with power := { tolerance := 0 } }), (by decide +kernel)⟩

theorem witness_AlarmEvents :
    (∃ (s : State) (x : Sensor), (s.alive = true) ∧ ((x = .mesh → s.cfg.meshSensor = true)) ∧ (¬ sensorNum x ∈ s.alarms.active)) ∧
    (∃ (s : State) (x : Sensor), (s.alive = false) ∧ (s.due = []) ∧ ((x = .mesh → s.cfg.meshSensor = true)) ∧ (¬ sensorNum x ∈ s.alarms.active)) ∧
    (∃ (s : State) (x : Sensor), (s.due = []) ∧ (sensorNum x ∈ s.alarms.active)) ∧
    (∃ (s : State), (s.due = [])) ∧
    (∃ (s : State) (e : AlarmPend) (rest : List AlarmPend), (s.alive = true) ∧ (s.alarms.pending = e :: rest)) ∧
    (∃ (s : State), (calm s)) ∧
    (∃ (s : State) (a : AlarmPend), (byPartition a.sub = false) ∧ (a.sub < 11) ∧ (tblGet s.alarms.counts a.sub 0 + 1 < s.setting 0x6100 a.sub / 2 ^ 16)) ∧
    (∃ (s : State) (a : AlarmPend), (byPartition a.sub = false) ∧ (a.sub < 11) ∧ (s.setting 0x6100 a.sub / 2 ^ 16 ≤ tblGet s.alarms.counts a.sub 0 + 1) ∧ (s.setting 0x6100 a.sub % 4 = 0)) :=
  ⟨⟨up, .mesh, (by decide +kernel), (by decide +kernel), (by decide +kernel)⟩,
    ⟨off, .mesh, (by decide +kernel), (by decide +kernel), (by decide +kernel), (by decide +kernel)⟩,
    ⟨({ up with alarms := { active := [sensorNum .voltLo] } }), .voltLo, (by decide +kernel), (by decide +kernel)⟩,
    ⟨({ up with alarms := { active := [sensorNum .voltLo] } }), (by decide +kernel)⟩,
    ⟨({ up with alarms := { pending := [⟨6, none, 3, 5⟩] } }), (⟨6, none, 3, 5⟩), ([]), (by decide +kernel), (by decide +kernel)⟩,
    ⟨up, ⟨(by decide +kernel), (by decide +kernel)⟩⟩,
    ⟨({ up with settings := [(ekey 0x6100 7, 2 * 2 ^ 16)] }), (⟨7, none, 3, 5⟩), (by decide +kernel), (by decide +kernel), (by decide +kernel)⟩,
    ⟨({ up with settings := [(ekey 0x6100 7, 1 * 2 ^ 16)] }), (⟨7, none, 3, 5⟩), (by decide +kernel), (by decide +kernel), (by decide +kernel), (by decide +kernel)⟩⟩

theorem witness_InjectionAndRelease :
    (∃ (s : State) (m : Mgmt) (b : Bytes), (granted s m 0x6110 1 b) ∧ ((s.roleOf m = .installer ∨ s.roleOf m = .maker)) ∧ (s.life.state = .test)) ∧
    (∃ (s : State) (m : Mgmt) (b : Bytes), (granted s m 0x6110 1 b) ∧ (s.roleOf m = .installer) ∧ (s.life.state = .production) ∧ (s.life.debug ≠ 4)) ∧
    (∃ (s : State) (m : Mgmt) (p : Nat), (granted s m 0x6102 1 (leBytes 1 p))) :=
  ⟨⟨up, ins, (leBytes 16 (1 + 1 * 2 ^ 32)), granted_of (by decide +kernel), (by decide +kernel), (by decide +kernel)⟩,
    ⟨prod, ins, (leBytes 16 1), granted_of (by decide +kernel), (by decide +kernel), (by decide +kernel), (by decide +kernel)⟩,
    ⟨({ up with parts := [(1, { state := 1, fenced := true })] }), ins, 1, granted_of (by decide +kernel)⟩⟩

theorem witness_EndOfWrite :
    (∃ (s : State) (m : Mgmt) (count : Nat), (s.serving = true) ∧ (s.due = []) ∧ (s.roleOf m ≠ .none) ∧ (1 ≤ count) ∧ (count ≤ 64)) ∧
    (∃ (s : State) (m : Mgmt) (count : Nat), (s.serving = true) ∧ (s.due = []) ∧ (s.roleOf m ≠ .none) ∧ ((count = 0 ∨ 64 < count))) ∧
    (∃ (s : State) (m : Mgmt) (n : Note) (rest : List Note), (s.serving = true) ∧ (s.due = []) ∧ (s.roleOf m ≠ .none) ∧ (s.agent.notices = n :: rest)) ∧
    (∃ (s : State) (m : Mgmt), (s.serving = true) ∧ (s.due = []) ∧ (s.roleOf m ≠ .none) ∧ (s.agent.notices = [])) :=
  ⟨⟨up, opr, 64, (by decide +kernel), (by decide +kernel), (by decide +kernel), (by decide +kernel), (by decide +kernel)⟩,
    ⟨up, opr, 65, (by decide +kernel), (by decide +kernel), (by decide +kernel), (by decide +kernel)⟩,
    ⟨({ up with agent := { up.agent with notices := [⟨1, 2, 3, none, 0, 5, 6, 7⟩] } }), opr, (⟨1, 2, 3, none, 0, 5, 6, 7⟩), ([]), (by decide +kernel), (by decide +kernel), (by decide +kernel), (by decide +kernel)⟩,
    ⟨up, opr, (by decide +kernel), (by decide +kernel), (by decide +kernel), (by decide +kernel)⟩⟩

theorem witness_DictionaryReads :
    (∃ (s : State) (m : Mgmt) (d : DictMsg) (e : Entry), (s.serving = true) ∧ (s.due = []) ∧ (formCheck d 0 = 0) ∧ (s.readGate m d.index d.sub = .ok e) ∧ (¬ (d.index = 0x4030 ∨ d.index = 0x6220 ∨ d.index = 0x6221 ∨ d.index = 0x1120 ∧ d.sub = 4))) ∧
    (∃ (s : State) (d : DictMsg), (s.serving = true) ∧ (s.due = []) ∧ (formCheck d 0 ≠ 0)) ∧
    (∃ (s : State) (m : Mgmt) (d : DictMsg) (a : _), (s.serving = true) ∧ (s.due = []) ∧ (formCheck d 0 = 0) ∧ (s.readGate m d.index d.sub = .error a)) ∧
    (∃ (s : State) (m : Mgmt) (d : DictMsg) (e : _), (s.serving = true) ∧ (s.due = []) ∧ (formCheck d 0 = 0) ∧ (d.length = 0) ∧ (s.readGate m d.index d.sub = .ok e)) ∧
    (∃ (s : State) (m : Mgmt) (d : DictMsg) (a : _), (s.serving = true) ∧ (s.due = []) ∧ (formCheck d 0 = 0) ∧ (d.length = 0) ∧ (s.readGate m d.index d.sub = .error a)) ∧
    (∃ (s : State) (m : Mgmt) (e : Entry) (offset : Nat) (length : Nat), (s.serving = true) ∧ (s.due = []) ∧ (s.readGate m 0x1120 4 = .ok e) ∧ (offset < e.size) ∧ (offset + length ≤ e.size) ∧ (length ≤ 4096) ∧ (offset ≠ 0)) ∧
    (∃ (s : State) (m : Mgmt) (e : Entry) (offset : Nat) (length : Nat), (s.serving = true) ∧ (s.due = []) ∧ (s.readGate m 0x1120 4 = .ok e) ∧ (offset < e.size) ∧ (offset + length ≤ e.size) ∧ (length ≤ 4096) ∧ (offset = 0) ∧ (s.fw.aliasEc = [])) ∧
    (∃ (s : State) (m : Mgmt) (e : Entry) (offset : Nat) (length : Nat), (s.serving = true) ∧ (s.due = []) ∧ (s.readGate m 0x1120 4 = .ok e) ∧ (offset < e.size) ∧ (offset + length ≤ e.size) ∧ (length ≤ 4096) ∧ (offset = 0) ∧ (s.fw.aliasEc ≠ []) ∧ ∃ (ec : Bytes) (pq : Bytes) (u : State), (s.signBoth (ascii "SH9v2 audit" ++ [0#8] ++ s.checkpointHead) = some (ec, pq, u))) :=
  ⟨⟨up, opr, (msg 0x1000 2 []), (row 0x1000 2), (by decide +kernel), (by decide +kernel), (by decide +kernel), is_ok (by decide +kernel), (by decide +kernel)⟩,
    ⟨up, ({ msg 0x1000 2 [] with reservedZero := false }), (by decide +kernel), (by decide +kernel), (by decide +kernel)⟩,
    ⟨up, plain, (msg 0x7001 1 []), 0x0501, (by decide +kernel), (by decide +kernel), (by decide +kernel), is_err (by decide +kernel)⟩,
    ⟨up, opr, (msg 0x1000 2 []), (row 0x1000 2), (by decide +kernel), (by decide +kernel), (by decide +kernel), (by decide +kernel), is_ok (by decide +kernel)⟩,
    ⟨up, opr, (msg 0 2 []), 0x0604, (by decide +kernel), (by decide +kernel), (by decide +kernel), (by decide +kernel), is_err (by decide +kernel)⟩,
    ⟨up, opr, (row 0x1120 4), 16, 16, (by decide +kernel), (by decide +kernel), is_ok (by decide +kernel), (by decide +kernel), (by decide +kernel), (by decide +kernel), (by decide +kernel)⟩,
    ⟨up, opr, (row 0x1120 4), 0, 16, (by decide +kernel), (by decide +kernel), is_ok (by decide +kernel), (by decide +kernel), (by decide +kernel), (by decide +kernel), (by decide +kernel), (by decide +kernel)⟩,
    ⟨({ up with fw := { aliasEc := [1#8] } }), opr, (row 0x1120 4), 0, 4, (by decide +kernel), (by decide +kernel), is_ok (by decide +kernel), (by decide +kernel), (by decide +kernel), (by decide +kernel), (by decide +kernel), (by decide +kernel), some_abc (by decide +kernel)⟩⟩

theorem witness_DictionaryWrites :
    (∃ (s : State) (d : DictMsg), (s.serving = true) ∧ (s.due = []) ∧ (formCheck d d.length ≠ 0)) ∧
    (∃ (s : State) (m : Mgmt) (d : DictMsg), (s.serving = true) ∧ (formCheck d d.length = 0) ∧ (s.writeGate m d.index d.sub ≠ 0)) ∧
    (∃ (s : State) (m : Mgmt) (d : DictMsg), (passes s m d.index d.sub d.data) ∧ (formCheck d d.length = 0) ∧ (d.offset = 0) ∧ (d.last = true) ∧ ∃ (u : _), ((s.wakeWrite d.index d.sub).writeEffect (s.roleOf m) d.index d.sub d.data = .ok u)) ∧
    (∃ (s : State) (m : Mgmt) (d : DictMsg) (a : _), (passes s m d.index d.sub d.data) ∧ (formCheck d d.length = 0) ∧ (d.offset = 0) ∧ (d.last = true) ∧ ((s.wakeWrite d.index d.sub).writeEffect (s.roleOf m) d.index d.sub d.data = .error a) ∧ (a ≠ 0x0403) ∧ (a < 65536)) ∧
    (∃ (s : State), (s.serving = false) ∧ (s.due = [])) :=
  ⟨⟨up, ({ msg 0x3210 1 [1#8, 0#8] with version := 1 }), (by decide +kernel), (by decide +kernel), (by decide +kernel)⟩,
    ⟨up, plain, (msg 0x3210 1 [1#8, 0#8]), (by decide +kernel), (by decide +kernel), (by decide +kernel)⟩,
    ⟨up, ins, (msg 0x3210 1 [1#8, 0#8]), passes_of (by decide +kernel), (by decide +kernel), (by decide +kernel), (by decide +kernel), ok_u (by decide +kernel)⟩,
    ⟨up, ins, (msg 0x7001 1 [2#8]), 0x0609, passes_of (by decide +kernel), (by decide +kernel), (by decide +kernel), (by decide +kernel), is_err (by decide +kernel), (by decide +kernel), (by decide +kernel)⟩,
    ⟨off, (by decide +kernel), (by decide +kernel)⟩⟩

theorem witness_SettingsKeepTheirRange :
    (∃ (s : State) (i : Nat) (j : Nat) (v : Nat) (lo : Nat) (hi : Nat) (zero : Bool), (j < 256) ∧ (settingRange s.cfg i j = some (lo, hi, zero)) ∧ (absentSetting s.cfg i j = false) ∧ ((lo ≤ v ∧ v ≤ hi ∨ zero = true ∧ v = 0))) ∧
    (∃ (s : State) (i : Nat) (j : Nat) (v : Nat) (lo : Nat) (hi : Nat) (zero : Bool), (j < 256) ∧ (settingRange s.cfg i j = some (lo, hi, zero)) ∧ (absentSetting s.cfg i j = false) ∧ (¬ (lo ≤ v ∧ v ≤ hi ∨ zero = true ∧ v = 0))) :=
  ⟨⟨up, 0x1210, 1, 0xFFFFFFFF, 0, 0xFFFFFFFF, false, (by decide +kernel), (by decide +kernel), (by decide +kernel), (by decide +kernel)⟩,
    ⟨up, 0x1102, 5, 9, 10, 3600, false, (by decide +kernel), (by decide +kernel), (by decide +kernel), (by decide +kernel)⟩⟩

theorem witness_Roles :
    (∃ (s : State) (m : Mgmt) (n : Nat) (role : Nat), (s.serving = true) ∧ (s.due = []) ∧ (s.mayLogin m = some n) ∧ (s.agent.holdoff = false) ∧ (1 ≤ role) ∧ (role ≤ 3) ∧ ∃ (u : State) (nonce : Bytes), (s.drawMaster 32 = some (nonce, u))) ∧
    (∃ (s : State) (m : Mgmt) (n : Nat), (s.serving = true) ∧ (s.due = []) ∧ (s.mayLogin m = some n) ∧ (s.agent.holdoff = true)) ∧
    (∃ (s : State) (m : Mgmt) (n : Nat) (role : Nat) (r : Role) (data : Bytes), (s.serving = true) ∧ (s.due = []) ∧ (s.mayLogin m = some n) ∧ (m.session = some n) ∧ ((s.session n).buffer = none) ∧ (roleOfNum role = some r) ∧ (data.length ≤ 8192)) ∧
    (∃ (s : State) (m : Mgmt), (s.serving = true) ∧ (s.due = []) ∧ (s.mayLogin m = none)) ∧
    (∃ (s : State) (m : Mgmt) (n : Nat), (s.serving = true) ∧ (s.due = []) ∧ (m.session = some n) ∧ (s.roleOf m ≠ .none)) ∧
    (∃ (s : State), (calm s)) :=
  ⟨⟨up, mk, 0, 3, (by decide +kernel), (by decide +kernel), (by decide +kernel), (by decide +kernel), (by decide +kernel), (by decide +kernel), some_ba (by decide +kernel)⟩,
    ⟨({ up with agent := { up.agent with holdoff := true } }), mk, 0, (by decide +kernel), (by decide +kernel), (by decide +kernel), (by decide +kernel)⟩,
    ⟨up, mk, 0, 1, .maker, ([]), (by decide +kernel), (by decide +kernel), (by decide +kernel), (by decide +kernel), (by decide +kernel), (by decide +kernel), (by decide +kernel)⟩,
    ⟨blank, plain, (by decide +kernel), (by decide +kernel), (by decide +kernel)⟩,
    ⟨up, opr, 2, (by decide +kernel), (by decide +kernel), (by decide +kernel), (by decide +kernel)⟩,
    ⟨up, ⟨(by decide +kernel), (by decide +kernel)⟩⟩⟩

theorem witness_BlockFaults :
    (∃ (s : State), (s.alive = true) ∧ (s.faults.phase = 0)) ∧
    (∃ (s : State), (calm s) ∧ (s.faults.phase ≠ 0)) ∧
    (∃ (s : State) (m : Mgmt), (granted s m 0x6040 2 (leBytes 1 1))) ∧
    (∃ (s : State) (m : Mgmt) (v : Nat), (granted s m 0x6040 2 (leBytes 1 v)) ∧ (v < 256) ∧ (v ≠ 1)) ∧
    (∃ (s : State), (s.alive = true) ∧ (s.faults.phase = 1) ∧ (s.faults.snapLeft ≠ 0)) ∧
    (∃ (s : State), (calm s) ∧ (s.faults.phase = 2)) ∧
    (∃ (s : State), (calm s) ∧ (s.faults.phase = 3)) ∧
    (∃ (s : State), (calm s) ∧ (s.faults.phase ≠ 1)) ∧
    (∃ (s : State), (calm s) ∧ (s.faults.phase ≠ 2)) ∧
    (∃ (s : State), (calm s) ∧ (s.faults.phase ≠ 3)) ∧
    (∃ (s : State) (m : Mgmt) (p : Nat), (granted s m 0x6040 1 (leBytes 1 p)) ∧ (p < 256) ∧ (s.cfg.partitions ≤ p)) ∧
    (∃ (s : State) (m : Mgmt) (p : Nat), (granted s m 0x6040 1 (leBytes 1 p)) ∧ (p < 256) ∧ (p < s.cfg.partitions) ∧ ((s.partn p).live = false)) ∧
    (∃ (s : State) (m : Mgmt) (p : Nat), (granted s m 0x6040 1 (leBytes 1 p)) ∧ (p < 256) ∧ (p < s.cfg.partitions) ∧ ((s.partn p).live = true)) ∧
    (∃ (s : State), (rested s) ∧ (s.bring.ready = true) ∧ (s.alarms.point ≠ 4) ∧ (s.waiters = []) ∧ ((∀ kv ∈ s.queues, kv.2.ringFull = false)) ∧ (s.terminalNodes = [])) ∧
    (∃ (s : State), (s.running = true) ∧ (s.bring.ready = true) ∧ (s.alarms.point = 4) ∧ (0 < s.alarms.count) ∧ ((s.ctx s.alarms.ctx).state = 1)) :=
  ⟨⟨up, (by decide +kernel), (by decide +kernel)⟩,
    ⟨({ up with faults := { phase := 3 } }), ⟨(by decide +kernel), (by decide +kernel)⟩, (by decide +kernel)⟩,
    ⟨up, ins, granted_of (by decide +kernel)⟩,
    ⟨up, ins, 255, granted_of (by decide +kernel), (by decide +kernel), (by decide +kernel)⟩,
    ⟨({ up with faults := { phase := 1, snapLeft := 2 } }), (by decide +kernel), (by decide +kernel), (by decide +kernel)⟩,
    ⟨({ up with faults := { phase := 2 } }), ⟨(by decide +kernel), (by decide +kernel)⟩, (by decide +kernel)⟩,
    ⟨({ up with faults := { phase := 3 } }), ⟨(by decide +kernel), (by decide +kernel)⟩, (by decide +kernel)⟩,
    ⟨up, ⟨(by decide +kernel), (by decide +kernel)⟩, (by decide +kernel)⟩,
    ⟨up, ⟨(by decide +kernel), (by decide +kernel)⟩, (by decide +kernel)⟩,
    ⟨up, ⟨(by decide +kernel), (by decide +kernel)⟩, (by decide +kernel)⟩,
    ⟨up, ins, 64, granted_of (by decide +kernel), (by decide +kernel), (by decide +kernel)⟩,
    ⟨up, ins, 63, granted_of (by decide +kernel), (by decide +kernel), (by decide +kernel), (by decide +kernel)⟩,
    ⟨({ up with parts := [(1, { state := 1 })] }), ins, 1, granted_of (by decide +kernel), (by decide +kernel), (by decide +kernel), (by decide +kernel)⟩,
    ⟨up, ⟨(by decide +kernel), (by decide +kernel)⟩, (by decide +kernel), (by decide +kernel), (by decide +kernel), (by decide +kernel), (by decide +kernel)⟩,
    ⟨({ up with alarms := { point := 4, count := 1, ctx := 6 }, ctxs := [(6, { state := 1 })] }), (by decide +kernel), (by decide +kernel), (by decide +kernel), (by decide +kernel), (by decide +kernel)⟩⟩

theorem witness_HarvestAndTrace :
    (∃ (s : State), (rested s) ∧ (s.bring.ready = true) ∧ (s.setting 0x6210 2 ≠ 0) ∧ (s.power.state < 2) ∧ (s.records.writing = 0) ∧ (s.setting 0x6210 1 = 0)) ∧
    (∃ (s : State) (m : Mgmt) (j : Nat) (v : Nat), (granted s m 0x6211 j (leBytes 4 v)) ∧ (v < 2 ^ 24)) ∧
    (∃ (s : State) (m : Mgmt) (q : Nat), (granted s m 0x6212 2 (leBytes 8 q)) ∧ (q < 2 ^ 64)) ∧
    (∃ (s : State) (m : Mgmt) (v : Nat), (granted s m 0x6220 3 (leBytes 1 v)) ∧ (v < 256)) ∧
    (∃ (s : State) (w : Nat × Bool) (rest : List (Nat × Bool)), (calm s) ∧ (s.setting 0x6220 3 = 1) ∧ (s.power.state < 2) ∧ (s.records.fifo = w :: rest)) ∧
    (∃ (s : State), (calm s)) ∧
    (∃ (s : State) (op : DebugOp), (calm s) ∧ (s.debugOpen = false) ∧ ((∀ b, op ≠ .bypass b))) ∧
    (∃ (s : State) (op : DebugOp), (calm s) ∧ (s.debugOpen = true) ∧ ((op = .scanChain ∨ op = .sramRead))) ∧
    (∃ (s : State) (b : Bytes), (calm s) ∧ (s.debugOpen = true) ∧ ∃ (u : State), (s.arm b none = .ok u)) :=
  ⟨⟨({ up with settings := [(ekey 0x6210 2, 100)] }), ⟨(by decide +kernel), (by decide +kernel)⟩, (by decide +kernel), (by decide +kernel), (by decide +kernel), (by decide +kernel), (by decide +kernel)⟩,
    ⟨up, ins, 1, 0, granted_of (by decide +kernel), (by decide +kernel)⟩,
    ⟨({ up with records := { ring := [(2, [])] } }), ins, 5, granted_of (by decide +kernel), (by decide +kernel)⟩,
    ⟨up, ins, 1, granted_of (by decide +kernel), (by decide +kernel)⟩,
    ⟨({ up with settings := [(ekey 0x6220 3, 1)], records := { fifo := [(5, true)] } }), ((5, true)), ([]), ⟨(by decide +kernel), (by decide +kernel)⟩, (by decide +kernel), (by decide +kernel), (by decide +kernel)⟩,
    ⟨up, ⟨(by decide +kernel), (by decide +kernel)⟩⟩,
    ⟨({ prod with due := [] }), .sramRead, ⟨(by decide +kernel), (by decide +kernel)⟩, (by decide +kernel), (by decide +kernel)⟩,
    ⟨({ prod with life := { state := .production, debug := 4 } }), .sramRead, ⟨(by decide +kernel), (by decide +kernel)⟩, (by decide +kernel), .inr rfl⟩,
    ⟨({ up with life := { state := .production, debug := 4 } }), (leBytes 16 (1 + 1 * 2 ^ 32)), ⟨(by decide +kernel), (by decide +kernel)⟩, (by decide +kernel), ok_u (by decide +kernel)⟩⟩

theorem witness_LanesTransfer :
    (∃ (s : State) (u : State) (m : Nat) (lane : Nat) (k : Nat) (r : LaneReq), (onPort s m) ∧ ((s.port m).ctrlUp = true) ∧ (s.initNext m = u) ∧ (u.due = []) ∧ ((u.port m).ctrlUp = true) ∧ (u.lanePick m lane = some r) ∧ (freeTag (u.port m) lane = some k)) ∧
    (∃ (s : State) (m : Nat), (((s.port m).init = [] ∨ (s.port m).sweep.used + 128 > s.sweepCap m))) ∧
    (∃ (s : State) (m : Nat) (lane : Nat) (j : LineJob), (onPort s m) ∧ ((s.port m).ctrlUp = true) ∧ ((s.port m).init = []) ∧ ((∀ r ∈ (s.port m).offered, laneOf r.addr ≠ lane)) ∧ ((s.port m).fmt = some j) ∧ (j.next < j.stop)) ∧
    (∃ (s : State) (m : Nat), (m < s.cfg.memPorts) ∧ (calm s) ∧ (s.sealing = false)) ∧
    (∃ (s : State) (m : Nat) (lane : Nat) (tag : Nat), (s.cfg.legal = true) ∧ (onPort s m) ∧ (tblFind (s.port m).tags (tagKey lane tag) = none)) ∧
    (∃ (s : State) (m : Nat) (lane : Nat) (tag : Nat) (r : _), (s.cfg.legal = true) ∧ (onPort s m) ∧ (tblFind (s.port m).tags (tagKey lane tag) = some r) ∧ (r.late = true)) ∧
    (∃ (s : State) (m : Nat) (lane : Nat) (tag : Nat) (r : LaneReq) (j : _), (quietPort s m) ∧ (s.alarms.point ≠ 3) ∧ (tblFind (s.port m).tags (tagKey lane tag) = some r) ∧ (r.late = false) ∧ (r.why = .format) ∧ ((s.port m).fmt = some j)) ∧
    (∃ (s : State) (m : Nat) (lane : Nat) (tag : Nat) (r : LaneReq) (a : _), (quietPort s m) ∧ (s.alarms.point ≠ 3) ∧ (tblFind (s.port m).tags (tagKey lane tag) = some r) ∧ (r.late = false) ∧ (r.why = .data a) ∧ ((s.point m a).unwritten = false)) ∧
    (∃ (s : State) (m : Nat) (lane : Nat) (tag : Nat), (quietPort s m) ∧ ((∀ r, tblFind (s.port m).tags (tagKey lane tag) = some r → r.late = true))) ∧
    (∃ (s : State) (m : Nat) (lane : Nat) (tag : Nat) (r : LaneReq) (j : LineJob), (quietPort s m) ∧ (tblFind (s.port m).tags (tagKey lane tag) = some r) ∧ (r.late = false) ∧ (r.why = .format) ∧ ((s.port m).fmt = some j) ∧ (tblGet j.fails r.addr 0 < 15)) ∧
    (∃ (s : State) (m : Nat) (lane : Nat) (r : LaneReq) (j : LineJob), (quietPort s m) ∧ ((s.port m).ctrlUp = false) ∧ (((s.port m).offered.find? fun r => laneOf r.addr = lane) = some r) ∧ (r.why = .format) ∧ ((s.port m).fmt = some j) ∧ (tblGet j.fails r.addr 0 < 15)) ∧
    (∃ (s : State) (m : Nat) (lane : Nat) (a : Nat) (r : LaneReq), (quietPort s m) ∧ ((s.port m).ctrlUp = false) ∧ (((s.port m).offered.find? fun r => laneOf r.addr = lane) = some r) ∧ (r.why = .data a) ∧ ((∃ w ∈ (s.point m a).acks, w.1 ≠ .none)) ∧ ((s.point m a).unwritten = false)) ∧
    (∃ (s : State) (m : Nat), (onPort s m) ∧ ((s.port m).ctrlUp = true)) ∧
    (∃ (s : State) (m : Nat), (m < s.cfg.memPorts) ∧ (s.due = [])) :=
  ⟨⟨(withPort { port2 with offered := [laneWrite (.data 0)] }), ((withPort { port2 with offered := [laneWrite (.data 0)] }).initNext 0), 0, 0, 0, (laneWrite (.data 0)), ⟨(by decide +kernel), ⟨(by decide +kernel), (by decide +kernel)⟩, (by decide +kernel)⟩, (by decide +kernel), (by decide +kernel), (by decide +kernel), (by decide +kernel), (by decide +kernel), (by decide +kernel)⟩,
    ⟨(withPort port2), 0, (by decide +kernel)⟩,
    ⟨(withPort { port2 with fmt := some ⟨0, 0, 5, 0, []⟩ }), 0, 0, (⟨0, 0, 5, 0, []⟩), ⟨(by decide +kernel), ⟨(by decide +kernel), (by decide +kernel)⟩, (by decide +kernel)⟩, (by decide +kernel), (by decide +kernel), (by decide +kernel), (by decide +kernel), (by decide +kernel)⟩,
    ⟨({ withPort { port2 with waiting := [req .load] } with power := { state := 2 } }), 0, (by decide +kernel), ⟨(by decide +kernel), (by decide +kernel)⟩, (by decide +kernel)⟩,
    ⟨up, 7, 7, 511, (by decide +kernel), ⟨(by decide +kernel), ⟨(by decide +kernel), (by decide +kernel)⟩, (by decide +kernel)⟩, (by decide +kernel)⟩,
    ⟨(withPort { port2 with tags := [(tagKey 0 1, { laneWrite .writeBack with late := true })] }), 0, 0, 1, ({ laneWrite .writeBack with late := true }), (by decide +kernel), ⟨(by decide +kernel), ⟨(by decide +kernel), (by decide +kernel)⟩, (by decide +kernel)⟩, (by decide +kernel), (by decide +kernel)⟩,
    ⟨(withPort { port2 with tags := [(tagKey 0 1, laneWrite .format)], fmt := some ⟨0, 4, 5, 1, []⟩ }), 0, 0, 1, (laneWrite .format), ((⟨0, 4, 5, 1, []⟩ : LineJob)), ⟨⟨(by decide +kernel), ⟨(by decide +kernel), (by decide +kernel)⟩, (by decide +kernel)⟩, (by decide +kernel), (by decide +kernel), (by decide +kernel)⟩, (by decide +kernel), (by decide +kernel), (by decide +kernel), (by decide +kernel), (by decide +kernel)⟩,
    ⟨(withPort { port2 with tags := [(tagKey 0 1, laneWrite (.data 0))], points := [(0, { held := some [], outstanding := true })] }), 0, 0, 1, (laneWrite (.data 0)), 0, ⟨⟨(by decide +kernel), ⟨(by decide +kernel), (by decide +kernel)⟩, (by decide +kernel)⟩, (by decide +kernel), (by decide +kernel), (by decide +kernel)⟩, (by decide +kernel), (by decide +kernel), (by decide +kernel), (by decide +kernel), (by decide +kernel)⟩,
    ⟨up, 0, 0, 0, ⟨⟨(by decide +kernel), ⟨(by decide +kernel), (by decide +kernel)⟩, (by decide +kernel)⟩, (by decide +kernel), (by decide +kernel), (by decide +kernel)⟩, fun _ h => by cases h⟩,
    ⟨(withPort { port2 with tags := [(tagKey 0 1, laneWrite .format)], fmt := some ⟨0, 4, 5, 1, [(0, 14)]⟩ }), 0, 0, 1, (laneWrite .format), (⟨0, 4, 5, 1, [(0, 14)]⟩), ⟨⟨(by decide +kernel), ⟨(by decide +kernel), (by decide +kernel)⟩, (by decide +kernel)⟩, (by decide +kernel), (by decide +kernel), (by decide +kernel)⟩, (by decide +kernel), (by decide +kernel), (by decide +kernel), (by decide +kernel), (by decide +kernel)⟩,
    ⟨(withPort { port2 with ctrlUp := false, offered := [laneWrite .format], fmt := some ⟨0, 4, 5, 1, []⟩ }), 0, 0, (laneWrite .format), (⟨0, 4, 5, 1, []⟩), ⟨⟨(by decide +kernel), ⟨(by decide +kernel), (by decide +kernel)⟩, (by decide +kernel)⟩, (by decide +kernel), (by decide +kernel), (by decide +kernel)⟩, (by decide +kernel), (by decide +kernel), (by decide +kernel), (by decide +kernel), (by decide +kernel)⟩,
    ⟨(withPort { port2 with ctrlUp := false, offered := [laneWrite (.data 0)], points := [(0, { held := some [], outstanding := true, acks := [(.walk 1 0 0, [])] })] }), 0, 0, 0, (laneWrite (.data 0)), ⟨⟨(by decide +kernel), ⟨(by decide +kernel), (by decide +kernel)⟩, (by decide +kernel)⟩, (by decide +kernel), (by decide +kernel), (by decide +kernel)⟩, (by decide +kernel), (by decide +kernel), (by decide +kernel), (by decide +kernel), (by decide +kernel)⟩,
    ⟨(withPort port2), 0, ⟨(by decide +kernel), ⟨(by decide +kernel), (by decide +kernel)⟩, (by decide +kernel)⟩, (by decide +kernel)⟩,
    ⟨(withPort port2), 0, (by decide +kernel), (by decide +kernel)⟩⟩

theorem witness_OrderPointsServe :
    (∃ (s : State) (m : Nat) (a : Nat), (onPort s m) ∧ ((s.point m a).op = none) ∧ ((s.point m a).poisonTry = none) ∧ ((∀ q ∈ (s.port m).waiting, q.line ≠ a)) ∧ ((s.point m a).unwritten = false) ∧ ((s.point m a).outstanding = false)) ∧
    (∃ (s : State) (m : Nat) (a : Nat) (q : LineReq), (quietPort s m) ∧ ((s.point m a).poisonTry = none) ∧ (s.pointPick m a = some q) ∧ (q.contender < 100) ∧ ((s.port m).state = 4)) ∧
    (∃ (s : State) (m : Nat) (a : Nat) (q : LineReq) (h : _), (quietPort s m) ∧ ((s.point m a).poisonTry = none) ∧ (s.pointPick m a = some q) ∧ (q.contender < 100) ∧ ((s.port m).state ≠ 4) ∧ ((s.point m a).held = some h) ∧ (((s.point m a).outstanding = true ∨ (s.point m a).unwritten = true)) ∧ (q.line = a) ∧ (q.acc = .load)) ∧
    (∃ (s : State) (m : Nat) (a : Nat) (q : LineReq) (h : _) (d : _), (quietPort s m) ∧ ((s.point m a).poisonTry = none) ∧ (s.pointPick m a = some q) ∧ (q.contender < 100) ∧ ((s.port m).state ≠ 4) ∧ ((s.point m a).held = some h) ∧ (((s.point m a).outstanding = true ∨ (s.point m a).unwritten = true)) ∧ (q.line = a) ∧ (q.acc = .store d)) ∧
    (∃ (s : State) (m : Nat) (a : Nat) (q : LineReq) (d : Bytes) (r : Nat) (g : Region) (c : CacheLine), (quietPort s m) ∧ ((s.point m a).poisonTry = none) ∧ (s.pointPick m a = some q) ∧ (q.contender < 100) ∧ ((s.port m).state ≠ 4) ∧ ((s.point m a).held = none) ∧ (q.line = a) ∧ (q.acc = .store d) ∧ ((s.port m).mode = 2) ∧ (regionAt (s.port m) a = some (r, g)) ∧ (s.usable g.slot = true) ∧ (poisonKey (s.port m) a = none) ∧ (tblFind (s.port m).cache (tagLine (s.port m).dcap a) = some c)) ∧
    (∃ (plain : Bytes), (plain.length = 128)) :=
  ⟨⟨(withPort port2), 0, 128, ⟨(by decide +kernel), ⟨(by decide +kernel), (by decide +kernel)⟩, (by decide +kernel)⟩, (by decide +kernel), (by decide +kernel), (by decide +kernel), (by decide +kernel), (by decide +kernel)⟩,
    ⟨(withPort { port2 with state := 4, waiting := [req .load] }), 0, 0, (req .load), ⟨⟨(by decide +kernel), ⟨(by decide +kernel), (by decide +kernel)⟩, (by decide +kernel)⟩, (by decide +kernel), (by decide +kernel), (by decide +kernel)⟩, (by decide +kernel), (by decide +kernel), (by decide +kernel), (by decide +kernel)⟩,
    ⟨(withPort { port2 with waiting := [req .load], points := [(0, { held := some [1#8], outstanding := true })] }), 0, 0, (req .load), ([1#8]), ⟨⟨(by decide +kernel), ⟨(by decide +kernel), (by decide +kernel)⟩, (by decide +kernel)⟩, (by decide +kernel), (by decide +kernel), (by decide +kernel)⟩, (by decide +kernel), (by decide +kernel), (by decide +kernel), (by decide +kernel), (by decide +kernel), (by decide +kernel), (by decide +kernel), (by decide +kernel)⟩,
    ⟨(withPort { port2 with waiting := [req (.store [])], points := [(0, { held := some [1#8], unwritten := true })] }), 0, 0, (req (.store [])), ([1#8]), ([]), ⟨⟨(by decide +kernel), ⟨(by decide +kernel), (by decide +kernel)⟩, (by decide +kernel)⟩, (by decide +kernel), (by decide +kernel), (by decide +kernel)⟩, (by decide +kernel), (by decide +kernel), (by decide +kernel), (by decide +kernel), (by decide +kernel), (by decide +kernel), (by decide +kernel), (by decide +kernel)⟩,
    ⟨(withPort { port2 with waiting := [req (.store [7#8])] }), 0, 0, (req (.store [7#8])), ([7#8]), 1, ({ pages := 2, part := 1, state := 2, slot := 3 }), ({ data := List.replicate 128 0#8 }), ⟨⟨(by decide +kernel), ⟨(by decide +kernel), (by decide +kernel)⟩, (by decide +kernel)⟩, (by decide +kernel), (by decide +kernel), (by decide +kernel)⟩, (by decide +kernel), (by decide +kernel), (by decide +kernel), (by decide +kernel), (by decide +kernel), (by decide +kernel), (by decide +kernel), (by decide +kernel), (by decide +kernel), (by decide +kernel), (by decide +kernel), (by decide +kernel)⟩,
    ⟨(List.replicate 128 9#8), (by decide +kernel)⟩⟩

theorem witness_MetadataUpkeep :
    (∃ (s : State) (m : Nat) (a : Nat) (x : Transition), (onPort s m) ∧ (a % 128 = 0) ∧ (a < (s.port m).dcap) ∧ (transitionOf (s.port m) (metaLine (s.port m).dcap 0 a) = some x) ∧ (tblGet x.fails (a / 128 % 128) 0 ≠ 0) ∧ ((s.point m a).op = none) ∧ ((s.point m a).outstanding = false) ∧ ((s.point m a).unwritten = false) ∧ ((s.point m a).poisonTry = none) ∧ ((s.port m).easelWait = []) ∧ ((∀ lane, easelLoad (s.port m) lane true < 239)) ∧ (fetching (s.port m) (tagLine (s.port m).dcap a) = false)) ∧
    (∃ (s : State) (m : Nat) (x : Nat) (c : CacheLine), (onPort s m) ∧ (tblFind (s.port m).cache x = some c) ∧ (c.pinned = false) ∧ (lineInUse (s.port m) x = false) ∧ (c.dirty = true) ∧ (c.writing = false) ∧ (c.ended = false) ∧ (c.kind = 0)) ∧
    (∃ (s : State) (m : Nat) (x : Nat) (c : CacheLine), (onPort s m) ∧ (tblFind (s.port m).cache x = some c) ∧ (c.pinned = true ∨ lineInUse (s.port m) x = true ∨ c.dirty = false ∨ c.writing = true ∨ c.ended = true)) ∧
    (∃ (s : State) (m : Nat) (x : Nat) (c : CacheLine), (onPort s m) ∧ (tblFind (s.port m).cache x = some c) ∧ (0 < c.fails) ∧ (c.writing = false) ∧ (c.snap ≠ []) ∧ ((s.port m).state ≠ 4) ∧ ((s.port m).fmt = none)) ∧
    (∃ (s : State) (m : Nat) (a : Nat), (onPort s m) ∧ (a % 128 = 0) ∧ ((s.point m a).poisonTry.isSome = true) ∧ ((s.point m a).op = none) ∧ ((s.port m).state ≠ 4) ∧ (missing (s.port m) (metaChain (s.port m).dcap a) = [])) :=
  ⟨⟨(withPort { port2 with mode := 1, transitions := [⟨metaLine (2 ^ 21) 0 0, 0, [], false, [(0, 1)]⟩] }), 0, 0, (⟨metaLine (2 ^ 21) 0 0, 0, [], false, [(0, 1)]⟩), ⟨(by decide +kernel), ⟨(by decide +kernel), (by decide +kernel)⟩, (by decide +kernel)⟩, (by decide +kernel), (by decide +kernel), (by decide +kernel), (by decide +kernel), (by decide +kernel), (by decide +kernel), (by decide +kernel), (by decide +kernel), (by decide +kernel), fun _ => show (0 : Nat) < 239 by decide, (by decide +kernel)⟩,
    ⟨(withPort { port2 with cache := [(2 ^ 21, { data := [1#8], dirty := true })] }), 0, (2 ^ 21), ({ data := [1#8], dirty := true }), ⟨(by decide +kernel), ⟨(by decide +kernel), (by decide +kernel)⟩, (by decide +kernel)⟩, (by decide +kernel), (by decide +kernel), (by decide +kernel), (by decide +kernel), (by decide +kernel), (by decide +kernel), (by decide +kernel)⟩,
    ⟨(withPort { port2 with cache := [(2 ^ 21, {})] }), 0, (2 ^ 21), ({}), ⟨(by decide +kernel), ⟨(by decide +kernel), (by decide +kernel)⟩, (by decide +kernel)⟩, (by decide +kernel), (by decide +kernel)⟩,
    ⟨(withPort { port2 with cache := [(2 ^ 21, { fails := 1, snap := [1#8] })] }), 0, (2 ^ 21), ({ fails := 1, snap := [1#8] }), ⟨(by decide +kernel), ⟨(by decide +kernel), (by decide +kernel)⟩, (by decide +kernel)⟩, (by decide +kernel), (by decide +kernel), (by decide +kernel), (by decide +kernel), (by decide +kernel), (by decide +kernel)⟩,
    ⟨(withPort { port2 with mode := 1, points := [(0, { poisonTry := some 1 })], cache := [(metaLine (2 ^ 21) 0 0, { data := List.replicate 128 0#8, kind := 1 })] }), 0, 0, ⟨(by decide +kernel), ⟨(by decide +kernel), (by decide +kernel)⟩, (by decide +kernel)⟩, (by decide +kernel), (by decide +kernel), (by decide +kernel), (by decide +kernel), (by decide +kernel)⟩⟩

theorem witness_FormattingAndRegions :
    (∃ (s : State) (m : Mgmt) (p : Nat) (i : Nat), (granted s m 0x3004 (p + 1) (leBytes 1 1)) ∧ (p < s.cfg.memPorts) ∧ ((s.port p).state = 1) ∧ (dataCapacity (decide (s.setting 0x3001 (p + 1) = 1)) (s.setting 0x3002 (p + 1)) ≠ 0) ∧ (s.freeLeaf = some i) ∧ ∃ (u : State), (s.createLeaf i 2 0x41 0 (kindUse 2) 0 p 0 = .ok u)) ∧
    (∃ (s : State) (p : Nat) (j : LineJob), (onPort s p) ∧ ((s.port p).fmt = some j)) ∧
    (∃ (s : State) (m : Mgmt) (p : Nat) (r : Nat) (i : Nat) (rc : Bytes), (granted s m (0x3020 + p) r rc) ∧ (p < s.cfg.memPorts) ∧ ((s.port p).state = 3) ∧ (tblFind (s.port p).regions r = none) ∧ (recState (leNat rc) = 1) ∧ ((recKind (leNat rc) = 3 → s.roleOf m = .installer)) ∧ ((s.partn (recPart (leNat rc))).state ≠ 0) ∧ (s.usable (partSlot (recPart (leNat rc))) = true) ∧ (s.fertile (partSlot (recPart (leNat rc))) = true) ∧ (recPages (leNat rc) ≠ 0) ∧ ((recBase (leNat rc) + recPages (leNat rc)) * 2 ^ 14 ≤ (s.port p).dcap) ∧ (overlaps (s.port p) (recBase (leNat rc)) (recPages (leNat rc)) = false) ∧ (s.freeLeaf = some i) ∧ ∃ (u : State), (s.createLeaf i 1 (recPart (leNat rc)) 0 (regionUse (recKind (leNat rc))) s.memberField p r = .ok u)) ∧
    (∃ (s : State) (m : Mgmt) (p : Nat) (r : Nat) (rc : Bytes) (g : Region), (granted s m (0x3020 + p) r rc) ∧ (p < s.cfg.memPorts) ∧ (tblFind (s.port p).regions r = some g) ∧ (recState (leNat rc) = 0)) ∧
    (∃ (s : State) (m : Mgmt) (p : Nat) (r : Nat) (rc : Bytes) (g : Region), (granted s m (0x3020 + p) r rc) ∧ (p < s.cfg.memPorts) ∧ (tblFind (s.port p).regions r = some g) ∧ (recState (leNat rc) ≠ 0) ∧ ((recKind (leNat rc) = 3 → s.roleOf m = .installer))) ∧
    (∃ (s : State) (p : Nat) (j : LineJob), (onPort s p) ∧ (((s.port p).init.find? fun j => decide (j.stop ≤ j.next) && !s.regionBusy p j.region) = some j) ∧ (s.usable (tblGet (s.port p).regions j.region {}).slot = true)) ∧
    (∃ (s : State) (p : Nat) (r : Nat) (g : Region), (onPort s p) ∧ (tblFind (s.port p).regions r = some g) ∧ (g.state = 4) ∧ ((s.partn g.part).state ≠ 3) ∧ (s.regionBusy p r = false)) ∧
    (∃ (s : State) (m : Mgmt) (p : Nat) (r : Nat), (granted s m 0x3030 (p + 1) (leBytes 1 r)) ∧ (p < s.cfg.memPorts) ∧ ((s.port p).scrub = none) ∧ ((tblGet (s.port p).regions r {}).state = 2)) ∧
    (∃ (s : State) (p : Nat) (j : LineJob), (onPort s p) ∧ ((s.port p).scrub = some j)) :=
  ⟨⟨({ withPort { ctrlUp := true, state := 1 } with settings := [(ekey 0x3001 1, 2), (ekey 0x3002 1, 2 ^ 30)] }), ins, 0, 0, granted_of (by decide +kernel), (by decide +kernel), (by decide +kernel), (by decide +kernel), (by decide +kernel), ok_u (by decide +kernel)⟩,
    ⟨(withPort { port2 with state := 2, fmt := some ⟨0, 5, 5, 0, []⟩ }), 0, (⟨0, 5, 5, 0, []⟩), ⟨(by decide +kernel), ⟨(by decide +kernel), (by decide +kernel)⟩, (by decide +kernel)⟩, (by decide +kernel)⟩,
    ⟨(withPort port2), ins, 0, 2, 0, (leBytes 16 (2 + 1 * 2 ^ 32 + 3 * 2 ^ 64 + 1 * 2 ^ 66 + 1 * 2 ^ 72)), granted_of (by decide +kernel), (by decide +kernel), (by decide +kernel), (by decide +kernel), (by decide +kernel), (by decide +kernel), (by decide +kernel), (by decide +kernel), (by decide +kernel), (by decide +kernel), (by decide +kernel), (by decide +kernel), (by decide +kernel), ok_u (by decide +kernel)⟩,
    ⟨(withPort port2), ins, 0, 1, (leBytes 16 0), ({ pages := 2, part := 1, state := 2, slot := 3 }), granted_of (by decide +kernel), (by decide +kernel), (by decide +kernel), (by decide +kernel)⟩,
    ⟨(withPort port2), opr, 0, 1, (leBytes 16 (2 ^ 72)), ({ pages := 2, part := 1, state := 2, slot := 3 }), granted_of (by decide +kernel), (by decide +kernel), (by decide +kernel), (by decide +kernel), (by decide +kernel)⟩,
    ⟨(withPort { port2 with regions := [(1, { pages := 2, part := 1, state := 1, slot := 3 })], init := [⟨1, 5, 5, 0, []⟩] }), 0, (⟨1, 5, 5, 0, []⟩), ⟨(by decide +kernel), ⟨(by decide +kernel), (by decide +kernel)⟩, (by decide +kernel)⟩, (by decide +kernel), (by decide +kernel)⟩,
    ⟨(withPort { port2 with regions := [(1, { pages := 2, part := 1, state := 4, slot := 3 })] }), 0, 1, ({ pages := 2, part := 1, state := 4, slot := 3 }), ⟨(by decide +kernel), ⟨(by decide +kernel), (by decide +kernel)⟩, (by decide +kernel)⟩, (by decide +kernel), (by decide +kernel), (by decide +kernel), (by decide +kernel)⟩,
    ⟨(withPort port2), ins, 0, 1, granted_of (by decide +kernel), (by decide +kernel), (by decide +kernel), (by decide +kernel)⟩,
    ⟨(withPort { port2 with scrub := some ⟨1, 5, 5, 0, []⟩ }), 0, (⟨1, 5, 5, 0, []⟩), ⟨(by decide +kernel), ⟨(by decide +kernel), (by decide +kernel)⟩, (by decide +kernel)⟩, (by decide +kernel)⟩⟩

theorem witness_RekeySweep :
    (∃ (s : State) (m : Mgmt) (p : Nat) (r : Nat), (granted s m 0x3103 (p + 1) (leBytes 1 r)) ∧ (p < s.cfg.memPorts) ∧ (r ≠ 0) ∧ (r ∉ (s.port p).sweep.queued) ∧ (¬ ((s.port p).sweep.active = true ∧ (s.port p).sweep.region = r)) ∧ ((tblGet (s.port p).regions r {}).state = 2)) ∧
    (∃ (s : State) (m : Mgmt) (p : Nat) (r : Nat), (granted s m 0x3103 (p + 1) (leBytes 1 r)) ∧ (p < s.cfg.memPorts) ∧ (r ≠ 0) ∧ (r ∉ (s.port p).sweep.queued) ∧ (¬ ((s.port p).sweep.active = true ∧ (s.port p).sweep.region = r)) ∧ ((tblGet (s.port p).regions r {}).state ≠ 2)) ∧
    (∃ (s : State) (p : Nat), (onPort s p)) ∧
    (∃ (s : State) (p : Nat) (r : Nat) (rest : List Nat) (g : Region), (onPort s p) ∧ ((s.port p).state = 3) ∧ ((s.port p).sweep.active = false) ∧ (((s.port p).sweep.queued.filter fun r => (tblGet (s.port p).regions r {}).state = 2) = r :: rest) ∧ (tblFind (s.port p).regions r = some g) ∧ (g.slot < 65536) ∧ ((s.slot g.slot).kind = 1) ∧ ((s.slot g.slot).next = false) ∧ ((s.slot g.slot).state = 1) ∧ (s.usable g.slot = true) ∧ (s.fertile g.slot = true) ∧ ((s.slot g.slot).use.testBit 7 = true) ∧ ((s.slot g.slot).gen < 0xFFFFFFFE)) ∧
    (∃ (s : State) (p : Nat) (r : Nat) (rest : List Nat) (g : Region), (onPort s p) ∧ ((s.port p).state = 3) ∧ ((s.port p).sweep.active = false) ∧ (((s.port p).sweep.queued.filter fun r => (tblGet (s.port p).regions r {}).state = 2) = r :: rest) ∧ (tblFind (s.port p).regions r = some g) ∧ (g.slot < 65536) ∧ ((s.slot g.slot).kind = 1) ∧ ((s.slot g.slot).next = false) ∧ ((s.slot g.slot).state = 1) ∧ (s.usable g.slot = true) ∧ (s.fertile g.slot = true) ∧ ((s.slot g.slot).use.testBit 7 = true) ∧ (0xFFFFFFFE ≤ (s.slot g.slot).gen)) ∧
    (∃ (s : State) (p : Nat), (quietPort s p) ∧ ((((s.port p).sweep).state = 1 ∨ ((s.port p).sweep).state = 2)) ∧ (((s.port p).sweep).used + 128 ≤ s.sweepCap p) ∧ (((s.port p).sweep).edge < s.sweepEnd p) ∧ (tblFind ((s.port p).sweep).ahead ((s.port p).sweep).edge = none) ∧ (((s.port p).sweep).edge ∉ ((s.port p).sweep).asked) ∧ (tblGet ((s.port p).sweep).fails ((s.port p).sweep).edge 0 = 0) ∧ (((((s.port p).sweep).ahead.map (·.1) ++ ((s.port p).sweep).asked).filter fun x => laneOf x = laneOf ((s.port p).sweep).edge).length < 64) ∧ (s.resealed p ((s.port p).sweep).edge = some true)) ∧
    (∃ (s : State) (p : Nat), (quietPort s p) ∧ ((((s.port p).sweep).state = 1 ∨ ((s.port p).sweep).state = 2)) ∧ (((s.port p).sweep).used + 128 ≤ s.sweepCap p) ∧ (((s.port p).sweep).edge < s.sweepEnd p) ∧ (tblFind ((s.port p).sweep).ahead ((s.port p).sweep).edge = none) ∧ (((s.port p).sweep).edge ∉ ((s.port p).sweep).asked) ∧ (tblGet ((s.port p).sweep).fails ((s.port p).sweep).edge 0 = 0) ∧ (((((s.port p).sweep).ahead.map (·.1) ++ ((s.port p).sweep).asked).filter fun x => laneOf x = laneOf ((s.port p).sweep).edge).length < 64) ∧ (s.resealed p ((s.port p).sweep).edge = none) ∧ ((s.point p ((s.port p).sweep).edge).outstanding = false) ∧ ((s.point p ((s.port p).sweep).edge).unwritten = false) ∧ ((s.point p ((s.port p).sweep).edge).poisonTry = none)) ∧
    (∃ (s : State) (p : Nat) (a : _), (quietPort s p) ∧ (a % 128 = 0) ∧ (((s.port p).sweep).active = true) ∧ (((s.port p).sweep).used + 128 ≤ s.sweepCap p) ∧ (tblGet ((s.port p).sweep).fails a 0 ≠ 0) ∧ (a ∉ ((s.port p).sweep).asked)) ∧
    (∃ (s : State) (p : Nat), (quietPort s p) ∧ (((s.port p).sweep).active = false)) ∧
    (∃ (s : State) (p : Nat), (quietPort s p) ∧ (((s.port p).sweep).active = false)) ∧
    (∃ (s : State) (p : Nat) (g : Region), (onPort s p) ∧ (((s.port p).sweep.state = 1 ∨ (s.port p).sweep.state = 2)) ∧ ((s.port p).state = 3) ∧ (tblFind (s.port p).regions (s.port p).sweep.region = some g) ∧ (g.state = 3) ∧ ((s.port p).sweep.edge < s.sweepEnd p) ∧ ((s.port p).mode = 1) ∧ ((transitionOf (s.port p) (metaLine (s.port p).dcap 0 (s.port p).sweep.edge)).isSome = true)) ∧
    (∃ (s : State) (p : Nat) (g : Region), (quietPort s p) ∧ (((s.port p).sweep.state = 1 ∨ (s.port p).sweep.state = 2)) ∧ ((s.port p).state = 3) ∧ (tblFind (s.port p).regions (s.port p).sweep.region = some g) ∧ (g.state = 3) ∧ (s.sweepEnd p ≤ (((s.port p).sweep).edge))) ∧
    (∃ (s : State) (p : Nat) (g : Region), (quietPort s p) ∧ (((s.port p).sweep.state = 1 ∨ (s.port p).sweep.state = 2)) ∧ ((s.port p).state = 3) ∧ (tblFind (s.port p).regions (s.port p).sweep.region = some g) ∧ (g.state = 3) ∧ ((((s.port p).sweep).edge) < s.sweepEnd p) ∧ ((s.port p).mode = 2) ∧ ((poisonKey (s.port p) (((s.port p).sweep).edge)).isSome = true)) ∧
    (∃ (s : State) (p : Nat) (g : Region) (plain : Bytes) (c : CacheLine), (quietPort s p) ∧ (((s.port p).sweep.state = 1 ∨ (s.port p).sweep.state = 2)) ∧ ((s.port p).state = 3) ∧ (tblFind (s.port p).regions (s.port p).sweep.region = some g) ∧ (g.state = 3) ∧ ((((s.port p).sweep).edge) < s.sweepEnd p) ∧ (s.usable g.slot = true) ∧ ((s.port p).mode = 2) ∧ (poisonKey (s.port p) (((s.port p).sweep).edge) = none) ∧ ((((s.port p).sweep).edge) ∉ ((s.port p).sweep).skip) ∧ (tblFind ((s.port p).sweep).ahead (((s.port p).sweep).edge) = some plain) ∧ (((s.port p).sweep).used + 128 ≤ s.sweepCap p) ∧ (tblFind (s.port p).cache (tagLine (s.port p).dcap (((s.port p).sweep).edge)) = some c) ∧ ((s.point p (((s.port p).sweep).edge)).outstanding = false) ∧ ((s.point p (((s.port p).sweep).edge)).unwritten = false) ∧ ((s.point p (((s.port p).sweep).edge)).poisonTry = none)) ∧
    (∃ (s : State) (p : Nat) (g : Region), (s.cfg.legal = true) ∧ (onPort s p) ∧ ((s.port p).sweep.state = 3) ∧ ((∀ kv ∈ (s.port p).points, kv.2.sweepWrite = false)) ∧ (tblFind (s.port p).regions (s.port p).sweep.region = some g) ∧ ((s.slot g.slot).next = true) ∧ ((s.slot g.slot).state = 1) ∧ (s.usable g.slot = true) ∧ (s.fertile g.slot = true)) :=
  ⟨⟨(withPort port2), ins, 0, 1, granted_of (by decide +kernel), (by decide +kernel), (by decide +kernel), (by decide +kernel), (by decide +kernel), (by decide +kernel)⟩,
    ⟨(withPort port2), ins, 0, 255, granted_of (by decide +kernel), (by decide +kernel), (by decide +kernel), (by decide +kernel), (by decide +kernel), (by decide +kernel)⟩,
    ⟨(withPort port2), 0, ⟨(by decide +kernel), ⟨(by decide +kernel), (by decide +kernel)⟩, (by decide +kernel)⟩⟩,
    ⟨(withPort { port2 with sweep := { queued := [1, 7] } }), 0, 1, ([]), ({ pages := 2, part := 1, state := 2, slot := 3 }), ⟨(by decide +kernel), ⟨(by decide +kernel), (by decide +kernel)⟩, (by decide +kernel)⟩, (by decide +kernel), (by decide +kernel), (by decide +kernel), (by decide +kernel), (by decide +kernel), (by decide +kernel), (by decide +kernel), (by decide +kernel), (by decide +kernel), (by decide +kernel), (by decide +kernel), (by decide +kernel)⟩,
    ⟨({ withPort { port2 with sweep := { queued := [1] } } with keys := { slots := tblPut slots0 3 { slotOf 1 1 with gen := 0xFFFFFFFE } } }), 0, 1, ([]), ({ pages := 2, part := 1, state := 2, slot := 3 }), ⟨(by decide +kernel), ⟨(by decide +kernel), (by decide +kernel)⟩, (by decide +kernel)⟩, (by decide +kernel), (by decide +kernel), (by decide +kernel), (by decide +kernel), (by decide +kernel), (by decide +kernel), (by decide +kernel), (by decide +kernel), (by decide +kernel), (by decide +kernel), (by decide +kernel), (by decide +kernel)⟩,
    ⟨(sweeping { state := 1 }), 0, ⟨⟨(by decide +kernel), ⟨(by decide +kernel), (by decide +kernel)⟩, (by decide +kernel)⟩, (by decide +kernel), (by decide +kernel), (by decide +kernel)⟩, (by decide +kernel), (by decide +kernel), (by decide +kernel), (by decide +kernel), (by decide +kernel), (by decide +kernel), (by decide +kernel), (by decide +kernel)⟩,
    ⟨({ sweeping { state := 1 } with mem := [(0, { port2 with mode := 1, cache := [], regions := [(1, { pages := 2, part := 1, state := 3, slot := 3 })], sweep := { state := 1, region := 1 } })] }), 0, ⟨⟨(by decide +kernel), ⟨(by decide +kernel), (by decide +kernel)⟩, (by decide +kernel)⟩, (by decide +kernel), (by decide +kernel), (by decide +kernel)⟩, (by decide +kernel), (by decide +kernel), (by decide +kernel), (by decide +kernel), (by decide +kernel), (by decide +kernel), (by decide +kernel), (by decide +kernel), (by decide +kernel), (by decide +kernel), (by decide +kernel)⟩,
    ⟨(sweeping { state := 1, fails := [(128, 1)] }), 0, 128, ⟨⟨(by decide +kernel), ⟨(by decide +kernel), (by decide +kernel)⟩, (by decide +kernel)⟩, (by decide +kernel), (by decide +kernel), (by decide +kernel)⟩, (by decide +kernel), (by decide +kernel), (by decide +kernel), (by decide +kernel), (by decide +kernel)⟩,
    ⟨(withPort port2), 0, ⟨⟨(by decide +kernel), ⟨(by decide +kernel), (by decide +kernel)⟩, (by decide +kernel)⟩, (by decide +kernel), (by decide +kernel), (by decide +kernel)⟩, (by decide +kernel)⟩,
    ⟨(withPort port2), 0, ⟨⟨(by decide +kernel), ⟨(by decide +kernel), (by decide +kernel)⟩, (by decide +kernel)⟩, (by decide +kernel), (by decide +kernel), (by decide +kernel)⟩, (by decide +kernel)⟩,
    ⟨({ sweeping { state := 1 } with mem := [(0, { port2 with mode := 1, regions := [(1, { pages := 2, part := 1, state := 3, slot := 3 })], sweep := { state := 1, region := 1 }, transitions := [⟨metaLine (2 ^ 21) 0 0, 0, [], false, []⟩] })] }), 0, ({ pages := 2, part := 1, state := 3, slot := 3 }), ⟨(by decide +kernel), ⟨(by decide +kernel), (by decide +kernel)⟩, (by decide +kernel)⟩, (by decide +kernel), (by decide +kernel), (by decide +kernel), (by decide +kernel), (by decide +kernel), (by decide +kernel), (by decide +kernel)⟩,
    ⟨(sweeping { state := 1, edge := 2 ^ 15 }), 0, ({ pages := 2, part := 1, state := 3, slot := 3 }), ⟨⟨(by decide +kernel), ⟨(by decide +kernel), (by decide +kernel)⟩, (by decide +kernel)⟩, (by decide +kernel), (by decide +kernel), (by decide +kernel)⟩, (by decide +kernel), (by decide +kernel), (by decide +kernel), (by decide +kernel), (by decide +kernel)⟩,
    ⟨({ sweeping { state := 1 } with mem := [(0, { port2 with regions := [(1, { pages := 2, part := 1, state := 3, slot := 3 })], sweep := { state := 1, region := 1 }, root := [(0, 2 ^ 63)] })] }), 0, ({ pages := 2, part := 1, state := 3, slot := 3 }), ⟨⟨(by decide +kernel), ⟨(by decide +kernel), (by decide +kernel)⟩, (by decide +kernel)⟩, (by decide +kernel), (by decide +kernel), (by decide +kernel)⟩, (by decide +kernel), (by decide +kernel), (by decide +kernel), (by decide +kernel), (by decide +kernel), (by decide +kernel), (by decide +kernel)⟩,
    ⟨(sweeping { state := 1, ahead := [(0, List.replicate 128 5#8)] }), 0, ({ pages := 2, part := 1, state := 3, slot := 3 }), (List.replicate 128 5#8), ({ data := List.replicate 128 0#8 }), ⟨⟨(by decide +kernel), ⟨(by decide +kernel), (by decide +kernel)⟩, (by decide +kernel)⟩, (by decide +kernel), (by decide +kernel), (by decide +kernel)⟩, (by decide +kernel), (by decide +kernel), (by decide +kernel), (by decide +kernel), (by decide +kernel), (by decide +kernel), (by decide +kernel), (by decide +kernel), (by decide +kernel), (by decide +kernel), (by decide +kernel), (by decide +kernel), (by decide +kernel), (by decide +kernel), (by decide +kernel)⟩,
    ⟨(sweeping { state := 3 }), 0, ({ pages := 2, part := 1, state := 3, slot := 3 }), (by decide +kernel), ⟨(by decide +kernel), ⟨(by decide +kernel), (by decide +kernel)⟩, (by decide +kernel)⟩, (by decide +kernel), (by decide +kernel), (by decide +kernel), (by decide +kernel), (by decide +kernel), (by decide +kernel), (by decide +kernel)⟩⟩

theorem witness_LinkStates :
    (∃ (s : State) (l : Nat), (onLink s l) ∧ ((s.link l).state = 0) ∧ ((s.link l).inReset = false) ∧ (s.bring.gate = true) ∧ (findsRoom s l 2) ∧ ((s.link l).holdoff = false)) ∧
    (∃ (s : State) (l : Nat), (onLink s l) ∧ ((s.link l).state = 0) ∧ ((s.link l).inReset = false) ∧ (s.bring.gate = true) ∧ (findsRoom s l 2) ∧ ((s.link l).pcsUp = true)) ∧
    (∃ (s : State) (l : Nat), (hasLink s l) ∧ (s.sealing = false) ∧ ((s.link l).state = 0) ∧ ((s.link l).inReset = false) ∧ (s.bring.gate = true) ∧ ((s.link l).holdoff = false)) ∧
    (∃ (s : State) (l : Nat), (onLink s l) ∧ (findsRoom s l 2) ∧ ((s.link l).state = 1)) ∧
    (∃ (s : State) (l : Nat), (hasLink s l) ∧ ((s.link l).state ≠ 1 ∨ s.sealing = false)) ∧
    (∃ (s : State) (l : Nat), (hasLink s l) ∧ (s.takeLinkMsg l 0x31 = none)) ∧
    (∃ (s : State) (u : State) (l : Nat) (m : Msg) (p : Hello), (hasLink s l) ∧ (s.takeLinkMsg l 0x31 = some (m, u)) ∧ (helloOf m = some p) ∧ ((∀ kv ∈ s.liveRoutes, ¬ (bit kv.2 11 = true ∧ bits kv.2 9 5 = l))) ∧ ((s.link l).state = 1)) ∧
    (∃ (s : State) (u : State) (l : Nat) (m : Msg) (p : Hello), (hasLink s l) ∧ (s.takeLinkMsg l 0x31 = some (m, u)) ∧ (helloOf m = some p) ∧ ((∀ kv ∈ s.liveRoutes, ¬ (bit kv.2 11 = true ∧ bits kv.2 9 5 = l))) ∧ ((s.link l).state = 3 ∨ (s.link l).state = 4)) ∧
    (∃ (s : State) (l : Nat) (p : Hello), (hasLink s l) ∧ ((s.link l).peer = some p) ∧ (s.isRequester l p = some true) ∧ ((s.link l).session.stage = 0) ∧ (((s.link l).state = 2 ∨ (s.link l).rekeying = true))) ∧
    (∃ (s : State) (l : Nat), (hasLink s l) ∧ (s.sealing = true) ∧ ((s.link l).state = 3 ∨ (s.link l).state = 4)) ∧
    (∃ (s : State) (l : Nat), (hasLink s l) ∧ (s.sealing = false)) ∧
    (∃ (s : State) (l : Nat), (hasLink s l) ∧ ((s.link l).state = 5) ∧ ((s.link l).wakeSent = true)) ∧
    (∃ (s : State) (l : Nat), (hasLink s l) ∧ ((s.link l).boundRunning = true) ∧ ((s.link l).state ≠ 0) ∧ ((s.link l).state ≠ 6) ∧ ((s.link l).state ≠ 7)) ∧
    (∃ (s : State) (l : Nat), (hasLink s l) ∧ ((s.link l).state = 3 ∨ (s.link l).state = 4 ∨ (s.link l).state = 5)) ∧
    (∃ (s : State) (l : Nat), (hasLink s l) ∧ ((s.link l).state ≠ 7)) ∧
    (∃ (s : State) (l : Nat), (hasLink s l) ∧ ((s.link l).state < 3)) ∧
    (∃ (s : State) (l : Nat), (hasLink s l) ∧ ((s.link l).boundRunning = false)) ∧
    (∃ (s : State) (m : Mgmt) (l : Nat) (v : Nat), (l < s.cfg.links) ∧ (granted s m 0x3211 (l + 1) (leBytes 1 v)) ∧ (v = 1)) ∧
    (∃ (s : State) (m : Mgmt) (l : Nat) (v : Nat), (l < s.cfg.links) ∧ (granted s m 0x3211 (l + 1) (leBytes 1 v)) ∧ (v = 0) ∧ ((s.link l).state = 7) ∧ ((s.link l).pcsUp = false)) ∧
    (∃ (s : State) (m : Mgmt) (l : Nat) (v : Nat), (l < s.cfg.links) ∧ (granted s m 0x3211 (l + 1) (leBytes 1 v)) ∧ (v = 2)) ∧
    (∃ (s : State) (m : Mgmt) (l : Nat) (v : Nat), (l < s.cfg.links) ∧ (granted s m 0x3211 (l + 1) (leBytes 1 v)) ∧ (3 ≤ v)) :=
  ⟨⟨up, 31, ⟨⟨(by decide +kernel), (by decide +kernel), (by decide +kernel), (by decide +kernel)⟩, (by decide +kernel)⟩, (by decide +kernel), (by decide +kernel), (by decide +kernel), Or.inr ⟨(by decide +kernel), (by decide +kernel)⟩, (by decide +kernel)⟩,
    ⟨(withLink { pcsUp := true, holdoff := true }), 0, ⟨⟨(by decide +kernel), (by decide +kernel), (by decide +kernel), (by decide +kernel)⟩, (by decide +kernel)⟩, (by decide +kernel), (by decide +kernel), (by decide +kernel), Or.inr ⟨(by decide +kernel), (by decide +kernel)⟩, (by decide +kernel)⟩,
    ⟨({ withLink { pcsUp := true } with power := { state := 2 } }), 0, ⟨(by decide +kernel), (by decide +kernel), (by decide +kernel), (by decide +kernel)⟩, (by decide +kernel), (by decide +kernel), (by decide +kernel), (by decide +kernel), (by decide +kernel)⟩,
    ⟨(withLink { state := 1 }), 0, ⟨⟨(by decide +kernel), (by decide +kernel), (by decide +kernel), (by decide +kernel)⟩, (by decide +kernel)⟩, Or.inr ⟨(by decide +kernel), (by decide +kernel)⟩, (by decide +kernel)⟩,
    ⟨up, 0, ⟨(by decide +kernel), (by decide +kernel), (by decide +kernel), (by decide +kernel)⟩, (by decide +kernel)⟩,
    ⟨up, 0, ⟨(by decide +kernel), (by decide +kernel), (by decide +kernel), (by decide +kernel)⟩, (by decide +kernel)⟩,
    ⟨(withLink { state := 1, rx := [helloMsg] }), (took (withLink { state := 1, rx := [helloMsg] }) 0 0x31), 0, helloMsg, ({ member := 12, isMember := true, domain := 77 }), ⟨(by decide +kernel), (by decide +kernel), (by decide +kernel), (by decide +kernel)⟩, (by decide +kernel), (by decide +kernel), (by decide +kernel), (by decide +kernel)⟩,
    ⟨(withLink { keyed with rx := [helloMsg] }), (took (withLink { keyed with rx := [helloMsg] }) 0 0x31), 0, helloMsg, ({ member := 12, isMember := true, domain := 77 }), ⟨(by decide +kernel), (by decide +kernel), (by decide +kernel), (by decide +kernel)⟩, (by decide +kernel), (by decide +kernel), (by decide +kernel), (by decide +kernel)⟩,
    ⟨(withLink { state := 2, peer := some { member := 12, isMember := true } }), 0, ({ member := 12, isMember := true }), ⟨(by decide +kernel), (by decide +kernel), (by decide +kernel), (by decide +kernel)⟩, (by decide +kernel), (by decide +kernel), (by decide +kernel), (by decide +kernel)⟩,
    ⟨(withLink keyed), 0, ⟨(by decide +kernel), (by decide +kernel), (by decide +kernel), (by decide +kernel)⟩, (by decide +kernel), (by decide +kernel)⟩,
    ⟨({ withLink keyed with power := { state := 2 } }), 0, ⟨(by decide +kernel), (by decide +kernel), (by decide +kernel), (by decide +kernel)⟩, (by decide +kernel)⟩,
    ⟨(withLink { keyed with state := 5, wakeSent := true }), 0, ⟨(by decide +kernel), (by decide +kernel), (by decide +kernel), (by decide +kernel)⟩, (by decide +kernel), (by decide +kernel)⟩,
    ⟨(withLink { state := 2, boundRunning := true }), 0, ⟨(by decide +kernel), (by decide +kernel), (by decide +kernel), (by decide +kernel)⟩, (by decide +kernel), (by decide +kernel), (by decide +kernel), (by decide +kernel)⟩,
    ⟨(withLink keyed), 0, ⟨(by decide +kernel), (by decide +kernel), (by decide +kernel), (by decide +kernel)⟩, (by decide +kernel)⟩,
    ⟨(withLink keyed), 0, ⟨(by decide +kernel), (by decide +kernel), (by decide +kernel), (by decide +kernel)⟩, (by decide +kernel)⟩,
    ⟨(withLink { state := 2 }), 0, ⟨(by decide +kernel), (by decide +kernel), (by decide +kernel), (by decide +kernel)⟩, (by decide +kernel)⟩,
    ⟨up, 0, ⟨(by decide +kernel), (by decide +kernel), (by decide +kernel), (by decide +kernel)⟩, (by decide +kernel)⟩,
    ⟨up, ins, 31, 1, (by decide +kernel), granted_of (by decide +kernel), (by decide +kernel)⟩,
    ⟨(withLink { state := 7 }), ins, 0, 0, (by decide +kernel), granted_of (by decide +kernel), (by decide +kernel), (by decide +kernel), (by decide +kernel)⟩,
    ⟨up, ins, 0, 2, (by decide +kernel), granted_of (by decide +kernel), (by decide +kernel)⟩,
    ⟨up, ins, 0, 255, (by decide +kernel), granted_of (by decide +kernel), (by decide +kernel)⟩⟩

theorem witness_LinkFrames :
    (∃ (s : State) (l : Nat) (b : Bytes), (onLink s l) ∧ (((s.link l).state = 1 ∨ (s.link l).state = 2)) ∧ (¬ (bits (leNat (b.take 16)) 1 0 = 0 ∧ bits (leNat (b.take 16)) 3 2 = 3 ∧ hcrcOk (padTo (128 * (bits (leNat (b.take 16)) 6 4 + 1)) b) = true ∧ (padTo (128 * (bits (leNat (b.take 16)) 6 4 + 1)) b).drop ((padTo (128 * (bits (leNat (b.take 16)) 6 4 + 1)) b).length - 16) = padTo 16 (leBytes 4 (crc32 ((padTo (128 * (bits (leNat (b.take 16)) 6 4 + 1)) b).take ((padTo (128 * (bits (leNat (b.take 16)) 6 4 + 1)) b).length - 16))))) ∨ (gatherUnits (msgUnits 3) 0 (some (bits (leNat (b.take 16)) 13 8)) { rest := tblGet (s.link l).fs.partialRx 3 [] } (chunks 16 (((padTo (128 * (bits (leNat (b.take 16)) 6 4 + 1)) b).take ((padTo (128 * (bits (leNat (b.take 16)) 6 4 + 1)) b).length - 16)).drop 16))).bad = true)) ∧
    (∃ (s : State) (l : Nat) (b : Bytes), (onLink s l) ∧ (((s.link l).state = 1 ∨ (s.link l).state = 2)) ∧ ((bits (leNat (b.take 16)) 1 0 = 0 ∧ bits (leNat (b.take 16)) 3 2 = 3 ∧ hcrcOk (padTo (128 * (bits (leNat (b.take 16)) 6 4 + 1)) b) = true ∧ (padTo (128 * (bits (leNat (b.take 16)) 6 4 + 1)) b).drop ((padTo (128 * (bits (leNat (b.take 16)) 6 4 + 1)) b).length - 16) = padTo 16 (leBytes 4 (crc32 ((padTo (128 * (bits (leNat (b.take 16)) 6 4 + 1)) b).take ((padTo (128 * (bits (leNat (b.take 16)) 6 4 + 1)) b).length - 16)))))) ∧ ((gatherUnits (msgUnits 3) 0 (some (bits (leNat (b.take 16)) 13 8)) { rest := tblGet (s.link l).fs.partialRx 3 [] } (chunks 16 (((padTo (128 * (bits (leNat (b.take 16)) 6 4 + 1)) b).take ((padTo (128 * (bits (leNat (b.take 16)) 6 4 + 1)) b).length - 16)).drop 16))).bad = false)) ∧
    (∃ (s : State) (l : Nat), (hasLink s l) ∧ (s.sealing = false)) ∧
    (∃ (s : State) (l : Nat), (onLink s l) ∧ (((s.link l).state = 3 ∨ (s.link l).state = 4)) ∧ (s.alarms.point ≠ 2) ∧ (s.alarms.point ≠ 0x12) ∧ ((s.link l).fs.hunting = false)) ∧
    (∃ (s : State) (l : Nat) (b : Bytes), (onLink s l) ∧ (((s.link l).state = 3 ∨ (s.link l).state = 4)) ∧ (s.alarms.point ≠ 2) ∧ (s.alarms.point ≠ 0x12) ∧ ((s.link l).fs.hunting = false) ∧ (hcrcOk (padTo (128 * (bits (leNat (b.take 16)) 6 4 + 1)) b) = false)) ∧
    (∃ (s : State) (l : Nat) (b : Bytes), (onLink s l) ∧ (((s.link l).state = 3 ∨ (s.link l).state = 4)) ∧ (s.alarms.point ≠ 2) ∧ (s.alarms.point ≠ 0x12) ∧ ((s.link l).fs.hunting = false) ∧ (hcrcOk (padTo (128 * (bits (leNat (b.take 16)) 6 4 + 1)) b) = true) ∧ (bits (leNat (b.take 16)) 1 0 = 0)) ∧
    (∃ (s : State) (l : Nat) (b : Bytes), (onLink s l) ∧ (((s.link l).state = 3 ∨ (s.link l).state = 4)) ∧ (s.alarms.point ≠ 2) ∧ (s.alarms.point ≠ 0x12) ∧ ((s.link l).fs.hunting = false) ∧ (hcrcOk (padTo (128 * (bits (leNat (b.take 16)) 6 4 + 1)) b) = true) ∧ (bits (leNat (b.take 16)) 1 0 = 1) ∧ ((s.link l).fs.rxSeq < bits (leNat (b.take 16)) 95 32)) ∧
    (∃ (s : State) (l : Nat) (b : Bytes) (g : Nat) (ks : Bytes × Bytes) (u : State), (onLink s l) ∧ (((s.link l).state = 3 ∨ (s.link l).state = 4)) ∧ (s.alarms.point ≠ 2) ∧ (s.alarms.point ≠ 0x12) ∧ ((s.link l).fs.hunting = false) ∧ (hcrcOk (padTo (128 * (bits (leNat (b.take 16)) 6 4 + 1)) b) = true) ∧ (bits (leNat (b.take 16)) 1 0 = 1) ∧ (bits (leNat (b.take 16)) 95 32 = (s.link l).fs.rxSeq) ∧ (s.rxGen (s.link l) (bit (leNat (b.take 16)) 7) = some g) ∧ (s.linkKey l g false = .ok (ks, u)) ∧ (openFrame ks.1 ks.2 (bits (leNat (b.take 16)) 95 32) (padTo (128 * (bits (leNat (b.take 16)) 6 4 + 1)) b) = none)) ∧
    (∃ (s : State) (l : Nat) (b : Bytes) (g : Nat) (ks : Bytes × Bytes) (u : State) (text : _), (onLink s l) ∧ (((s.link l).state = 3 ∨ (s.link l).state = 4)) ∧ (s.alarms.point ≠ 2) ∧ (s.alarms.point ≠ 0x12) ∧ ((s.link l).fs.hunting = false) ∧ (hcrcOk (padTo (128 * (bits (leNat (b.take 16)) 6 4 + 1)) b) = true) ∧ (bits (leNat (b.take 16)) 1 0 = 1) ∧ (bits (leNat (b.take 16)) 95 32 = (s.link l).fs.rxSeq) ∧ (s.rxGen (s.link l) (bit (leNat (b.take 16)) 7) = some g) ∧ (s.linkKey l g false = .ok (ks, u)) ∧ (openFrame ks.1 ks.2 (bits (leNat (b.take 16)) 95 32) (padTo (128 * (bits (leNat (b.take 16)) 6 4 + 1)) b) = some text)) ∧
    (∃ (s : State) (l : Nat) (b : Bytes) (g : Nat) (ks : Bytes × Bytes) (u : State) (text : _), (onLink s l) ∧ (((s.link l).state = 3 ∨ (s.link l).state = 4)) ∧ (s.alarms.point ≠ 2) ∧ (s.alarms.point ≠ 0x12) ∧ ((s.link l).fs.hunting = false) ∧ (hcrcOk (padTo (128 * (bits (leNat (b.take 16)) 6 4 + 1)) b) = true) ∧ (bits (leNat (b.take 16)) 1 0 = 1) ∧ (bits (leNat (b.take 16)) 95 32 = (s.link l).fs.rxSeq) ∧ (s.rxGen (s.link l) (bit (leNat (b.take 16)) 7) = some g) ∧ (s.linkKey l g false = .ok (ks, u)) ∧ (openFrame ks.1 ks.2 (bits (leNat (b.take 16)) 95 32) (padTo (128 * (bits (leNat (b.take 16)) 6 4 + 1)) b) = some text) ∧ (noTraffic s) ∧ (tblGet (s.link l).fs.partialRx (bits (leNat (b.take 16)) 3 2) [] = []) ∧ ((∀ x ∈ text, x = 0#8))) ∧
    (∃ (s : State) (l : Nat), (onLink s l) ∧ (((s.link l).state = 3 ∨ (s.link l).state = 4)) ∧ (noTraffic s) ∧ ((∀ vc, tblGet (s.link l).fs.txq vc [] = [])) ∧ ((s.link l).peerLow = false) ∧ (nextFrame (s.link l).fs) ∧ ∃ (u : State) (ks : Bytes × Bytes), (s.linkKey l (s.txGen (s.link l)) true = .ok (ks, u))) ∧
    (∃ (s : State) (l : Nat), (onLink s l) ∧ (noTraffic s) ∧ (((s.link l).state = 3 ∨ (s.link l).state = 4)) ∧ ((s.link l).fs.txSeq < 2 ^ 64 - 1) ∧ ((s.link l).fs.replayRoom 98304 1024 = false)) ∧
    (∃ (s : State) (l : Nat), (onLink s l) ∧ (noTraffic s) ∧ (((s.link l).state = 1 ∨ (s.link l).state = 2)) ∧ (tblGet (s.link l).fs.txq 3 [] ≠ [])) ∧
    (∃ (s : State) (l : Nat) (a : Nat), (onLink s l) ∧ ((s.link l).fs.replayFrom = some a)) ∧
    (∃ (s : State) (c : Nat) (a : Nat), (c < s.cfg.chipPorts) ∧ (calm s) ∧ (s.sealing = true) ∧ ((s.chip c).fs.replayFrom = some a)) ∧
    (∃ (s : State) (x : FramePort) (c : _), (calm s) ∧ (frameThere s x = true) ∧ (s.sealing = false) ∧ (c ∈ [Instr.nak x, .nakHoldoffExpiry x, .keepalive x, .keyUpdateComplete x])) ∧
    (∃ (s : State) (i : Nat), (calm s) ∧ (s.sealing = true) ∧ (i < s.cfg.links)) ∧
    (∃ (s : State) (i : Nat), (calm s) ∧ (s.sealing = true) ∧ (i < s.cfg.links) ∧ ((s.link i).fs.replayFrom = none)) ∧
    (∃ (s : State) (i : Nat), (calm s) ∧ (s.sealing = true) ∧ (i < s.cfg.links) ∧ ((s.link i).state ≠ 3) ∧ ((s.link i).state ≠ 4)) ∧
    (∃ (s : State) (i : Nat), (calm s) ∧ (s.sealing = true) ∧ (i < s.cfg.chipPorts)) :=
  ⟨⟨(withLink { state := 1 }), 0, ([]), ⟨⟨(by decide +kernel), (by decide +kernel), (by decide +kernel), (by decide +kernel)⟩, (by decide +kernel)⟩, (by decide +kernel), (by decide +kernel)⟩,
    ⟨(withLink { state := 1 }), 0, helloFrame, ⟨⟨(by decide +kernel), (by decide +kernel), (by decide +kernel), (by decide +kernel)⟩, (by decide +kernel)⟩, (by decide +kernel), (by decide +kernel), (by decide +kernel)⟩,
    ⟨({ withLink keyed with power := { state := 2 } }), 0, ⟨(by decide +kernel), (by decide +kernel), (by decide +kernel), (by decide +kernel)⟩, (by decide +kernel)⟩,
    ⟨(withLink keyed), 0, ⟨⟨(by decide +kernel), (by decide +kernel), (by decide +kernel), (by decide +kernel)⟩, (by decide +kernel)⟩, (by decide +kernel), (by decide +kernel), (by decide +kernel), (by decide +kernel)⟩,
    ⟨(withLink keyed), 0, (1#8 :: []), ⟨⟨(by decide +kernel), (by decide +kernel), (by decide +kernel), (by decide +kernel)⟩, (by decide +kernel)⟩, (by decide +kernel), (by decide +kernel), (by decide +kernel), (by decide +kernel), (by decide +kernel)⟩,
    ⟨(withLink keyed), 0, helloFrame, ⟨⟨(by decide +kernel), (by decide +kernel), (by decide +kernel), (by decide +kernel)⟩, (by decide +kernel)⟩, (by decide +kernel), (by decide +kernel), (by decide +kernel), (by decide +kernel), (by decide +kernel), (by decide +kernel)⟩,
    ⟨(withLink keyed), 0, (plainHeader 1 ++ []), ⟨⟨(by decide +kernel), (by decide +kernel), (by decide +kernel), (by decide +kernel)⟩, (by decide +kernel)⟩, (by decide +kernel), (by decide +kernel), (by decide +kernel), (by decide +kernel), (by decide +kernel), (by decide +kernel), (by decide +kernel)⟩,
    ⟨(withLink keyed), 0, (plainHeader 0), 0, ((keyOf (withLink keyed) 0 0 false).1), ((keyOf (withLink keyed) 0 0 false).2), ⟨⟨(by decide +kernel), (by decide +kernel), (by decide +kernel), (by decide +kernel)⟩, (by decide +kernel)⟩, (by decide +kernel), (by decide +kernel), (by decide +kernel), (by decide +kernel), (by decide +kernel), (by decide +kernel), (by decide +kernel), (by decide +kernel), is_ok (by decide +kernel), (by decide +kernel)⟩,
    ⟨(withLink keyed), 0, sealedFrame, 0, ((keyOf (withLink keyed) 0 0 false).1), ((keyOf (withLink keyed) 0 0 false).2), (List.replicate 96 0#8), ⟨⟨(by decide +kernel), (by decide +kernel), (by decide +kernel), (by decide +kernel)⟩, (by decide +kernel)⟩, (by decide +kernel), (by decide +kernel), (by decide +kernel), (by decide +kernel), (by decide +kernel), (by decide +kernel), (by decide +kernel), (by decide +kernel), is_ok (by decide +kernel), (by decide +kernel)⟩,
    ⟨(withLink keyed), 0, sealedFrame, 0, ((keyOf (withLink keyed) 0 0 false).1), ((keyOf (withLink keyed) 0 0 false).2), (List.replicate 96 0#8), ⟨⟨(by decide +kernel), (by decide +kernel), (by decide +kernel), (by decide +kernel)⟩, (by decide +kernel)⟩, (by decide +kernel), (by decide +kernel), (by decide +kernel), (by decide +kernel), (by decide +kernel), (by decide +kernel), (by decide +kernel), (by decide +kernel), is_ok (by decide +kernel), (by decide +kernel), noTraffic_of (by decide +kernel), (by decide +kernel), (by decide +kernel)⟩,
    ⟨(withLink keyed), 0, ⟨⟨(by decide +kernel), (by decide +kernel), (by decide +kernel), (by decide +kernel)⟩, (by decide +kernel)⟩, (by decide +kernel), noTraffic_of (by decide +kernel), fun _ => rfl, (by decide +kernel), ⟨(by decide +kernel), (by decide +kernel), (by decide +kernel)⟩, ok_uk (by decide +kernel)⟩,
    ⟨(withLink { keyed with fs := { replay := (List.range 96).map fun i => (i, List.replicate 1024 0#8) } }), 0, ⟨⟨(by decide +kernel), (by decide +kernel), (by decide +kernel), (by decide +kernel)⟩, (by decide +kernel)⟩, noTraffic_of (by decide +kernel), (by decide +kernel), (by decide +kernel), (by decide +kernel)⟩,
    ⟨(withLink { state := 1, fs := { txq := [(3, [(true, List.replicate 16 1#8)])] } }), 0, ⟨⟨(by decide +kernel), (by decide +kernel), (by decide +kernel), (by decide +kernel)⟩, (by decide +kernel)⟩, noTraffic_of (by decide +kernel), (by decide +kernel), (by decide +kernel)⟩,
    ⟨(withLink { keyed with fs := { replayFrom := some 2, replay := [(1, [1#8]), (2, [2#8])] } }), 0, 2, ⟨⟨(by decide +kernel), (by decide +kernel), (by decide +kernel), (by decide +kernel)⟩, (by decide +kernel)⟩, (by decide +kernel)⟩,
    ⟨({ up with chips := [(0, { state := 4, used := 8, fs := { replayFrom := some 2, replay := [(1, [1#8]), (2, [2#8])] } })] }), 0, 2, (by decide +kernel), ⟨(by decide +kernel), (by decide +kernel)⟩, (by decide +kernel), (by decide +kernel)⟩,
    ⟨({ withLink keyed with power := { state := 2 } }), (.link 0), (Instr.nak (.link 0)), ⟨(by decide +kernel), (by decide +kernel)⟩, (by decide +kernel), (by decide +kernel), by simp⟩,
    ⟨up, 31, ⟨(by decide +kernel), (by decide +kernel)⟩, (by decide +kernel), (by decide +kernel)⟩,
    ⟨up, 31, ⟨(by decide +kernel), (by decide +kernel)⟩, (by decide +kernel), (by decide +kernel), (by decide +kernel)⟩,
    ⟨up, 31, ⟨(by decide +kernel), (by decide +kernel)⟩, (by decide +kernel), (by decide +kernel), (by decide +kernel), (by decide +kernel)⟩,
    ⟨up, 7, ⟨(by decide +kernel), (by decide +kernel)⟩, (by decide +kernel), (by decide +kernel)⟩⟩

theorem witness_LinkKeyUpdates :
    (∃ (s : State) (l : Nat), (hasLink s l) ∧ (((s.link l).state = 3 ∨ (s.link l).state = 4)) ∧ ((s.link l).update = false) ∧ ((s.link l).session.stage = 5)) ∧
    (∃ (s : State) (l : Nat) (m : _), (hasLink s l) ∧ (((s.link l).state = 3 ∨ (s.link l).state = 4)) ∧ ((s.link l).update = false) ∧ ((s.link l).session.stage = 5) ∧ (granted s m 0x3211 (l + 1) (leBytes 1 2))) ∧
    (∃ (s : State) (l : Nat) (i : Nat), ((s.link l).slot = some i) ∧ ((s.link l).update = false) ∧ (i < 65536) ∧ (s.usable i = true) ∧ (s.fertile i = true) ∧ ((s.slot i).state = 1) ∧ ((s.slot i).kind = 4) ∧ ((s.slot i).next = false) ∧ ((s.slot i).gen < 0xFFFFFFFE)) ∧
    (∃ (s : State) (l : Nat), (hasLink s l) ∧ ((s.link l).state = 5) ∧ ((s.link l).update = false) ∧ ((s.link l).session.stage = 5) ∧ (s.setting 0x3210 2 ≠ 0)) ∧
    (∃ (s : State) (l : Nat) (i : _), (onLink s l) ∧ (((s.link l).state = 3 ∨ (s.link l).state = 4)) ∧ (noTraffic s) ∧ ((∀ vc, tblGet (s.link l).fs.txq vc [] = [])) ∧ ((s.link l).peerLow = false) ∧ ((s.link l).fs.txSeq + 1 = updateSeq) ∧ ((s.link l).fs.replayRoom 98304 1024 = true) ∧ ((s.link l).update = false) ∧ ((s.link l).session.stage = 5) ∧ (s.fw.fw ≠ 1) ∧ ((s.link l).slot = some i) ∧ (i < 65536) ∧ (s.usable i = true) ∧ (s.fertile i = true) ∧ ((s.slot i).state = 1) ∧ ((s.slot i).kind = 4) ∧ ((s.slot i).next = false) ∧ ((s.slot i).gen < 0xFFFFFFFE) ∧ ∃ (u : State) (ks : Bytes × Bytes), (s.linkKey l (s.txGen (s.link l)) true = .ok (ks, u))) ∧
    (∃ (s : State) (c : Nat), (c < s.cfg.chipPorts) ∧ (calm s) ∧ ((s.chip c).state = 4) ∧ ((s.chip c).update = false) ∧ ((s.chip c).session.stage = 5) ∧ (s.chipRemoving c = false)) ∧
    (∃ (s : State) (l : Nat) (i : Nat) (x : Nat), (onLink s l) ∧ ((s.link l).slot = some i) ∧ ((s.link l).update = true) ∧ ((s.link l).updateX = some x) ∧ ((s.slot i).next = true) ∧ ((s.slot i).state = 1) ∧ (s.usable i = true) ∧ (s.fertile i = true) ∧ ((s.link l).rxNew = true) ∧ (x ≤ (s.link l).fs.acked) ∧ ((s.link l).rekeying = true) ∧ ((s.link l).fresh = false) ∧ ((s.link l).session.stage ≠ 5)) ∧
    (∃ (s : State) (l : Nat) (i : Nat) (x : Nat), (onLink s l) ∧ ((s.link l).slot = some i) ∧ ((s.link l).update = true) ∧ ((s.link l).updateX = some x) ∧ ((s.slot i).next = true) ∧ ((s.slot i).state = 1) ∧ (s.usable i = true) ∧ (s.fertile i = true) ∧ ((s.link l).rxNew = true) ∧ (x ≤ (s.link l).fs.acked) ∧ (((s.link l).rekeying = false ∨ (s.link l).fresh = true))) ∧
    (∃ (s : State) (l : Nat) (i : Nat) (x : Nat), (onLink s l) ∧ ((s.link l).slot = some i) ∧ ((s.link l).update = true) ∧ ((s.link l).updateX = some x) ∧ ((s.slot i).next = true) ∧ ((s.slot i).state = 1) ∧ (s.usable i = true) ∧ (s.fertile i = true) ∧ ((s.link l).rxNew = false ∨ (s.link l).fs.acked < x)) ∧
    (∃ (s : State) (c : Nat) (i : Nat) (x : Nat), (c < s.cfg.chipPorts) ∧ (calm s) ∧ (s.sealing = true) ∧ (s.chipRemoving c = false) ∧ ((s.chip c).slot = some i) ∧ ((s.chip c).update = true) ∧ ((s.chip c).updateX = some x) ∧ ((s.slot i).next = true) ∧ ((s.slot i).state = 1) ∧ (s.usable i = true) ∧ (s.fertile i = true) ∧ ((s.chip c).rxNew = true) ∧ (x ≤ (s.chip c).fs.acked) ∧ (((s.chip c).withhold = false ∨ (s.chip c).fresh = true))) ∧
    (∃ (s : State) (c : Nat) (i : Nat) (x : Nat), (c < s.cfg.chipPorts) ∧ (calm s) ∧ (s.sealing = true) ∧ (s.chipRemoving c = false) ∧ ((s.chip c).slot = some i) ∧ ((s.chip c).update = true) ∧ ((s.chip c).updateX = some x) ∧ ((s.slot i).next = true) ∧ ((s.slot i).state = 1) ∧ (s.usable i = true) ∧ (s.fertile i = true) ∧ ((s.chip c).rxNew = false ∨ (s.chip c).fs.acked < x)) :=
  ⟨⟨(withLink keyed), 0, ⟨(by decide +kernel), (by decide +kernel), (by decide +kernel), (by decide +kernel)⟩, (by decide +kernel), (by decide +kernel), (by decide +kernel)⟩,
    ⟨(withLink keyed), 0, ins, ⟨(by decide +kernel), (by decide +kernel), (by decide +kernel), (by decide +kernel)⟩, (by decide +kernel), (by decide +kernel), (by decide +kernel), granted_of (by decide +kernel)⟩,
    ⟨(withLink keyed), 0, 5, (by decide +kernel), (by decide +kernel), (by decide +kernel), (by decide +kernel), (by decide +kernel), (by decide +kernel), (by decide +kernel), (by decide +kernel), (by decide +kernel)⟩,
    ⟨(withLink { keyed with state := 5 }), 0, ⟨(by decide +kernel), (by decide +kernel), (by decide +kernel), (by decide +kernel)⟩, (by decide +kernel), (by decide +kernel), (by decide +kernel), (by decide +kernel)⟩,
    ⟨(withLink { keyed with fs := { txSeq := updateSeq - 1 } }), 0, 5, ⟨⟨(by decide +kernel), (by decide +kernel), (by decide +kernel), (by decide +kernel)⟩, (by decide +kernel)⟩, (by decide +kernel), noTraffic_of (by decide +kernel), fun _ => rfl, (by decide +kernel), (by decide +kernel), (by decide +kernel), (by decide +kernel), (by decide +kernel), (by decide +kernel), (by decide +kernel), (by decide +kernel), (by decide +kernel), (by decide +kernel), (by decide +kernel), (by decide +kernel), (by decide +kernel), (by decide +kernel), ok_uk (by decide +kernel)⟩,
    ⟨({ up with chips := [(7, { state := 4, session := { stage := 5 } })] }), 7, (by decide +kernel), ⟨(by decide +kernel), (by decide +kernel)⟩, (by decide +kernel), (by decide +kernel), (by decide +kernel), (by decide +kernel)⟩,
    ⟨({ withLink { keyed with update := true, updateX := some 6, rxNew := true, fs := { acked := 6 }, rekeying := true, session := {} } with keys := { slots := next5 } }), 0, 5, 6, ⟨⟨(by decide +kernel), (by decide +kernel), (by decide +kernel), (by decide +kernel)⟩, (by decide +kernel)⟩, (by decide +kernel), (by decide +kernel), (by decide +kernel), (by decide +kernel), (by decide +kernel), (by decide +kernel), (by decide +kernel), (by decide +kernel), (by decide +kernel), (by decide +kernel), (by decide +kernel), (by decide +kernel)⟩,
    ⟨({ withLink { keyed with update := true, updateX := some 6, rxNew := true, fs := { acked := 6 } } with keys := { slots := next5 } }), 0, 5, 6, ⟨⟨(by decide +kernel), (by decide +kernel), (by decide +kernel), (by decide +kernel)⟩, (by decide +kernel)⟩, (by decide +kernel), (by decide +kernel), (by decide +kernel), (by decide +kernel), (by decide +kernel), (by decide +kernel), (by decide +kernel), (by decide +kernel), (by decide +kernel), (by decide +kernel)⟩,
    ⟨({ withLink { keyed with update := true, updateX := some 6, rxNew := true, fs := { acked := 5 } } with keys := { slots := next5 } }), 0, 5, 6, ⟨⟨(by decide +kernel), (by decide +kernel), (by decide +kernel), (by decide +kernel)⟩, (by decide +kernel)⟩, (by decide +kernel), (by decide +kernel), (by decide +kernel), (by decide +kernel), (by decide +kernel), (by decide +kernel), (by decide +kernel), (by decide +kernel)⟩,
    ⟨({ up with keys := { slots := next5 }, chips := [(7, { state := 4, slot := some 5, update := true, updateX := some 6, rxNew := true, fs := { acked := 6 } })] }), 7, 5, 6, (by decide +kernel), ⟨(by decide +kernel), (by decide +kernel)⟩, (by decide +kernel), (by decide +kernel), (by decide +kernel), (by decide +kernel), (by decide +kernel), (by decide +kernel), (by decide +kernel), (by decide +kernel), (by decide +kernel), (by decide +kernel), (by decide +kernel), (by decide +kernel)⟩,
    ⟨({ up with keys := { slots := next5 }, chips := [(7, { state := 4, slot := some 5, update := true, updateX := some 6, fs := { acked := 6 } })] }), 7, 5, 6, (by decide +kernel), ⟨(by decide +kernel), (by decide +kernel)⟩, (by decide +kernel), (by decide +kernel), (by decide +kernel), (by decide +kernel), (by decide +kernel), (by decide +kernel), (by decide +kernel), (by decide +kernel), (by decide +kernel), (by decide +kernel)⟩⟩

theorem witness_IdleRoutesAndAborts :
    (∃ (s : State) (u : State) (l : Nat) (m : Msg), (hasLink s l) ∧ ((s.link l).state = 4) ∧ (s.takeLinkMsg l 0x32 = some (m, u)) ∧ ((s.link l).fs.queued < 2048) ∧ ((∀ h ∈ (s.link l).fs.held, h.1 ≠ 3))) ∧
    (∃ (s : State) (u : State) (l : Nat) (m : Msg), (hasLink s l) ∧ ((s.link l).state = 4) ∧ (s.takeLinkMsg l 0x33 = some (m, u)) ∧ ((s.link l).idleSent = true) ∧ (s.power.entering = some 2)) ∧
    (∃ (s : State) (l : Nat), (hasLink s l) ∧ ((s.link l).state = 4) ∧ (s.takeLinkMsg l 0x32 = none)) ∧
    (∃ (s : State) (l : Nat), (hasLink s l) ∧ ((s.link l).state = 4) ∧ (s.takeLinkMsg l 0x33 = none)) ∧
    (∃ (s : State) (l : Nat), (hasLink s l) ∧ ((s.link l).state = 5) ∧ (s.power.state = 0) ∧ (s.power.exiting = none) ∧ ((s.link l).sentHello = true) ∧ ((s.link l).updateDue = false) ∧ (nextFrame (s.link l).fs) ∧ ∃ (u : State) (ks : Bytes × Bytes), (s.linkKey l (s.txGen (s.link l)) true = .ok (ks, u))) ∧
    (∃ (s : State) (l : Nat), (hasLink s l) ∧ ((s.link l).state = 5) ∧ (s.power.state ≠ 0)) ∧
    (∃ (s : State) (l : Nat), (hasLink s l) ∧ ((s.link l).state ≠ 5)) ∧
    (∃ (s : State) (l : Nat), (hasLink s l) ∧ ((s.link l).state = 5) ∧ ((s.link l).peerLow = true) ∧ (0 < (s.link l).queued)) ∧
    (∃ (s : State) (m : Mgmt), (granted s m 0x3220 3 (leBytes 1 1)) ∧ ((∀ kv ∈ s.stagingRoutes, (fun (kv : Nat × Nat) => !(s.bring.member && kv.1 = s.bring.memberId) && s.routeFails kv.2 ≠ 0) kv = false))) ∧
    (∃ (s : State) (m : Mgmt) (kv : _), (granted s m 0x3220 3 (leBytes 1 1)) ∧ (s.stagingRoutes.find? (fun (kv : Nat × Nat) => !(s.bring.member && kv.1 = s.bring.memberId) && s.routeFails kv.2 ≠ 0) = some kv)) ∧
    (∃ (s : State), (calm s) ∧ (s.fclk = false)) ∧
    (∃ (s : State), (calm s) ∧ (s.fclk = true) ∧ (s.routeHold = [])) ∧
    (∃ (s : State) (m : Msg) (o : Nat), (calm s) ∧ (s.fclk = true) ∧ (m.mtype ≠ 0) ∧ (s.routeHold = [⟨none, m, none, []⟩]) ∧ (({ s with routeHold := [], routeHeld := [] } : State).routeOf none m.dst m.adaptive = some o) ∧ ((s.link o).state = 4)) ∧
    (∃ (s : State) (m : Mgmt) (v : Nat), (granted s m 0x3210 1 (leBytes 2 v))) ∧
    (∃ (s : State) (u : State) (l : Nat) (m : Msg), (hasLink s l) ∧ (s.fclk = true) ∧ (s.takeLinkMsg l 0x20 = some (m, u)) ∧ (((bits (leNat (m.body.take 16)) 15 0, bits (leNat (m.body.take 16)) 47 16)) ∈ s.faults.seen)) ∧
    (∃ (s : State) (u : State) (l : Nat) (m : Msg), (hasLink s l) ∧ (s.fclk = true) ∧ (s.takeLinkMsg l 0x20 = some (m, u)) ∧ (((bits (leNat (m.body.take 16)) 15 0, bits (leNat (m.body.take 16)) 47 16)) ∉ s.faults.seen) ∧ ((s.partn (bits (leNat (m.body.take 16)) 53 48)).live = false)) ∧
    (∃ (s : State) (u : State) (l : Nat) (m : Msg), (hasLink s l) ∧ (s.fclk = true) ∧ (s.takeLinkMsg l 0x20 = some (m, u)) ∧ (((bits (leNat (m.body.take 16)) 15 0, bits (leNat (m.body.take 16)) 47 16)) ∉ s.faults.seen) ∧ ((s.partn (bits (leNat (m.body.take 16)) 53 48)).live = true) ∧ ((s.partn (bits (leNat (m.body.take 16)) 53 48)).job = bits (leNat (m.body.take 16)) 111 80) ∧ ((s.partn (bits (leNat (m.body.take 16)) 53 48)).kgen % 256 = bits (leNat (m.body.take 16)) 119 112)) :=
  ⟨⟨(withLink { keyed with rx := [linkMsg 0x32 0 []] }), (took (withLink { keyed with rx := [linkMsg 0x32 0 []] }) 0 0x32), 0, (linkMsg 0x32 0 []), ⟨(by decide +kernel), (by decide +kernel), (by decide +kernel), (by decide +kernel)⟩, (by decide +kernel), (by decide +kernel), (by decide +kernel), (by decide +kernel)⟩,
    ⟨({ withLink { keyed with rx := [linkMsg 0x33 0 []], idleSent := true } with power := { entering := some 2 } }), (took { withLink { keyed with rx := [linkMsg 0x33 0 []], idleSent := true } with power := { entering := some 2 } } 0 0x33), 0, (linkMsg 0x33 0 []), ⟨(by decide +kernel), (by decide +kernel), (by decide +kernel), (by decide +kernel)⟩, (by decide +kernel), (by decide +kernel), (by decide +kernel), (by decide +kernel)⟩,
    ⟨(withLink keyed), 0, ⟨(by decide +kernel), (by decide +kernel), (by decide +kernel), (by decide +kernel)⟩, (by decide +kernel), (by decide +kernel)⟩,
    ⟨(withLink keyed), 0, ⟨(by decide +kernel), (by decide +kernel), (by decide +kernel), (by decide +kernel)⟩, (by decide +kernel), (by decide +kernel)⟩,
    ⟨(withLink { keyed with state := 5, sentHello := true }), 0, ⟨(by decide +kernel), (by decide +kernel), (by decide +kernel), (by decide +kernel)⟩, (by decide +kernel), (by decide +kernel), (by decide +kernel), (by decide +kernel), (by decide +kernel), ⟨(by decide +kernel), (by decide +kernel), (by decide +kernel)⟩, ok_uk (by decide +kernel)⟩,
    ⟨({ withLink { keyed with state := 5 } with power := { state := 2 } }), 0, ⟨(by decide +kernel), (by decide +kernel), (by decide +kernel), (by decide +kernel)⟩, (by decide +kernel), (by decide +kernel)⟩,
    ⟨up, 0, ⟨(by decide +kernel), (by decide +kernel), (by decide +kernel), (by decide +kernel)⟩, (by decide +kernel)⟩,
    ⟨(withLink { keyed with state := 5, peerLow := true, fs := { txq := [(0, [(true, [])])] } }), 0, ⟨(by decide +kernel), (by decide +kernel), (by decide +kernel), (by decide +kernel)⟩, (by decide +kernel), (by decide +kernel), (by decide +kernel)⟩,
    ⟨({ up with stagingRoutes := [(12, 2 ^ 10)] }), ins, granted_of (by decide +kernel), (by decide +kernel)⟩,
    ⟨({ up with stagingRoutes := [(12, 2 ^ 10), (13, 2 ^ 11)] }), ins, ((13, 2 ^ 11)), granted_of (by decide +kernel), (by decide +kernel)⟩,
    ⟨({ up with power := { state := 3 } }), ⟨(by decide +kernel), (by decide +kernel)⟩, (by decide +kernel)⟩,
    ⟨({ up with routeHeld := [3] }), ⟨(by decide +kernel), (by decide +kernel)⟩, (by decide +kernel), (by decide +kernel)⟩,
    ⟨({ withLink keyed with liveRoutes := [(12, 2 ^ 10)], routeHold := [{ arrived := none, msg := { linkMsg 1 0 [] with dst := 12 } }] }), ({ linkMsg 1 0 [] with dst := 12 }), 0, ⟨(by decide +kernel), (by decide +kernel)⟩, (by decide +kernel), (by decide +kernel), (by decide +kernel), (by decide +kernel), (by decide +kernel)⟩,
    ⟨up, ins, 0xFFFF, granted_of (by decide +kernel)⟩,
    ⟨({ withLink { keyed with rx := [linkMsg 0x20 0 (leBytes 16 (12 + 5 * 2 ^ 16 + 1 * 2 ^ 48))] } with faults := { seen := [(12, 5)] } }), (took { withLink { keyed with rx := [linkMsg 0x20 0 (leBytes 16 (12 + 5 * 2 ^ 16 + 1 * 2 ^ 48))] } with faults := { seen := [(12, 5)] } } 0 0x20), 0, (linkMsg 0x20 0 (leBytes 16 (12 + 5 * 2 ^ 16 + 1 * 2 ^ 48))), ⟨(by decide +kernel), (by decide +kernel), (by decide +kernel), (by decide +kernel)⟩, (by decide +kernel), (by decide +kernel), (by decide +kernel)⟩,
    ⟨({ withLink { keyed with rx := [linkMsg 0x20 0 (leBytes 16 (12 + 5 * 2 ^ 16 + 1 * 2 ^ 48))] } with parts := [] }), (took { withLink { keyed with rx := [linkMsg 0x20 0 (leBytes 16 (12 + 5 * 2 ^ 16 + 1 * 2 ^ 48))] } with parts := [] } 0 0x20), 0, (linkMsg 0x20 0 (leBytes 16 (12 + 5 * 2 ^ 16 + 1 * 2 ^ 48))), ⟨(by decide +kernel), (by decide +kernel), (by decide +kernel), (by decide +kernel)⟩, (by decide +kernel), (by decide +kernel), (by decide +kernel), (by decide +kernel)⟩,
    ⟨(withLink { keyed with rx := [linkMsg 0x20 0 (leBytes 16 (12 + 5 * 2 ^ 16 + 1 * 2 ^ 48))] }), (took (withLink { keyed with rx := [linkMsg 0x20 0 (leBytes 16 (12 + 5 * 2 ^ 16 + 1 * 2 ^ 48))] }) 0 0x20), 0, (linkMsg 0x20 0 (leBytes 16 (12 + 5 * 2 ^ 16 + 1 * 2 ^ 48))), ⟨(by decide +kernel), (by decide +kernel), (by decide +kernel), (by decide +kernel)⟩, (by decide +kernel), (by decide +kernel), (by decide +kernel), (by decide +kernel), (by decide +kernel), (by decide +kernel)⟩⟩

theorem witness_RequestsAtTheHome :
    (∃ (s : State) (u : State) (l : Nat) (t : Nat) (m : Msg), (hasLink s l) ∧ (t ∈ [1, 2, 3, 4]) ∧ (s.takeLinkMsg l t = some (m, u)) ∧ (u.msgStale m = true)) ∧
    (∃ (s : State) (u : State) (l : Nat) (t : Nat) (m : Msg), (hasLink s l) ∧ (t ∈ [1, 2, 3, 4]) ∧ (s.takeLinkMsg l t = some (m, u)) ∧ (u.msgStale m = false) ∧ (atomicOk (linkAccess m).1 = false)) ∧
    (∃ (s : State) (u : State) (l : Nat) (t : Nat) (m : Msg), (hasLink s l) ∧ (t ∈ [1, 2, 3, 4]) ∧ (s.takeLinkMsg l t = some (m, u)) ∧ (u.msgStale m = false) ∧ (atomicOk (linkAccess m).1 = true) ∧ (8 ≤ (m.addr / 2 ^ 43))) ∧
    (∃ (s : State) (u : State) (l : Nat) (t : Nat) (m : Msg), (hasLink s l) ∧ (t ∈ [1, 2, 3, 4]) ∧ (s.takeLinkMsg l t = some (m, u)) ∧ (u.msgStale m = false) ∧ (atomicOk (linkAccess m).1 = true) ∧ (s.cfg.memPorts ≤ (m.addr / 2 ^ 43)) ∧ ((m.addr / 2 ^ 43) < 8)) ∧
    (∃ (s : State) (u : State) (l : Nat) (t : Nat) (m : Msg) (c : _) (e : _), (hasLink s l) ∧ (t ∈ [1, 2, 3, 4]) ∧ (s.takeLinkMsg l t = some (m, u)) ∧ (u.msgStale m = false) ∧ (atomicOk (linkAccess m).1 = true) ∧ ((m.addr / 2 ^ 43) < s.cfg.memPorts) ∧ (u.lineRefusal (m.addr / 2 ^ 43) ((⟨m.addr % 2 ^ 43 / 128 * 128, (linkAccess m).1, m.part, clsOfCode m.cls, l, (u.askerOf l m (linkAccess m).2), 0, true, u.clock⟩ : LineReq)) = some (c, e))) ∧
    (∃ (s : State) (u : State) (l : Nat) (t : Nat) (m : Msg), (hasLink s l) ∧ (t ∈ [1, 2, 3, 4]) ∧ (s.takeLinkMsg l t = some (m, u)) ∧ (u.msgStale m = false) ∧ (atomicOk (linkAccess m).1 = true) ∧ ((m.addr / 2 ^ 43) < s.cfg.memPorts) ∧ (u.lineRefusal (m.addr / 2 ^ 43) ((⟨m.addr % 2 ^ 43 / 128 * 128, (linkAccess m).1, m.part, clsOfCode m.cls, l, (u.askerOf l m (linkAccess m).2), 0, true, u.clock⟩ : LineReq)) = none) ∧ (((s.port (m.addr / 2 ^ 43)).mode = 2 → poisonKey (s.port (m.addr / 2 ^ 43)) ((⟨m.addr % 2 ^ 43 / 128 * 128, (linkAccess m).1, m.part, clsOfCode m.cls, l, (u.askerOf l m (linkAccess m).2), 0, true, u.clock⟩ : LineReq)).line = none))) ∧
    (∃ (s : State) (l : Nat) (t : Nat), (hasLink s l) ∧ (t ∈ [1, 2, 3, 4]) ∧ (s.takeLinkMsg l t = none)) ∧
    (∃ (s : State) (c : Nat) (t : Nat), (c < s.cfg.chipPorts) ∧ (calm s) ∧ (t ∈ [1, 2, 3, 4]) ∧ (s.takeChipMsg c t = none)) ∧
    (∃ (s : State) (c : Nat) (t : Nat) (m : _) (u : _), (c < s.cfg.chipPorts) ∧ (calm s) ∧ (t ∈ [1, 2, 3, 4]) ∧ (s.takeChipMsg c t = some (m, u))) ∧
    (∃ (s : State) (u : State) (l : Nat) (m : Msg), (hasLink s l) ∧ (s.takeLinkMsg l 0x05 = some (m, u)) ∧ (u.msgStale m = false)) ∧
    (∃ (s : State) (l : Nat), (hasLink s l) ∧ (s.takeLinkMsg l 0x05 = none)) :=
  ⟨⟨(askedBy { linkMsg 1 (0) ([]) with dst := 9, pgen := 3 }), (took (askedBy { linkMsg 1 (0) ([]) with dst := 9, pgen := 3 }) 0 1), 0, 1, ({ linkMsg 1 (0) ([]) with dst := 9, pgen := 3 }), ⟨(by decide +kernel), (by decide +kernel), (by decide +kernel), (by decide +kernel)⟩, (by decide +kernel), (by decide +kernel), (by decide +kernel)⟩,
    ⟨(askedBy { linkMsg 4 (0) (leBytes 16 9) with dst := 9 }), (took (askedBy { linkMsg 4 (0) (leBytes 16 9) with dst := 9 }) 0 4), 0, 4, ({ linkMsg 4 (0) (leBytes 16 9) with dst := 9 }), ⟨(by decide +kernel), (by decide +kernel), (by decide +kernel), (by decide +kernel)⟩, (by decide +kernel), (by decide +kernel), (by decide +kernel), (by decide +kernel)⟩,
    ⟨(askedBy { linkMsg 1 (8 * 2 ^ 43) ([]) with dst := 9 }), (took (askedBy { linkMsg 1 (8 * 2 ^ 43) ([]) with dst := 9 }) 0 1), 0, 1, ({ linkMsg 1 (8 * 2 ^ 43) ([]) with dst := 9 }), ⟨(by decide +kernel), (by decide +kernel), (by decide +kernel), (by decide +kernel)⟩, (by decide +kernel), (by decide +kernel), (by decide +kernel), (by decide +kernel), (by decide +kernel)⟩,
    ⟨({ askedBy { linkMsg 1 (6 * 2 ^ 43) ([]) with dst := 9 } with cfg := smallCfg }), (took { askedBy { linkMsg 1 (6 * 2 ^ 43) ([]) with dst := 9 } with cfg := smallCfg } 0 1), 0, 1, ({ linkMsg 1 (6 * 2 ^ 43) ([]) with dst := 9 }), ⟨(by decide +kernel), (by decide +kernel), (by decide +kernel), (by decide +kernel)⟩, (by decide +kernel), (by decide +kernel), (by decide +kernel), (by decide +kernel), (by decide +kernel), (by decide +kernel)⟩,
    ⟨(askedBy { linkMsg 2 (2 ^ 20) ([]) with dst := 9 }), (took (askedBy { linkMsg 2 (2 ^ 20) ([]) with dst := 9 }) 0 2), 0, 2, ({ linkMsg 2 (2 ^ 20) ([]) with dst := 9 }), .access, 0x100B, ⟨(by decide +kernel), (by decide +kernel), (by decide +kernel), (by decide +kernel)⟩, (by decide +kernel), (by decide +kernel), (by decide +kernel), (by decide +kernel), (by decide +kernel), (by decide +kernel)⟩,
    ⟨(askedBy { linkMsg 2 (2 ^ 15 - 128) (List.replicate 128 7#8) with dst := 9, cls := 2 }), (took (askedBy { linkMsg 2 (2 ^ 15 - 128) (List.replicate 128 7#8) with dst := 9, cls := 2 }) 0 2), 0, 2, ({ linkMsg 2 (2 ^ 15 - 128) (List.replicate 128 7#8) with dst := 9, cls := 2 }), ⟨(by decide +kernel), (by decide +kernel), (by decide +kernel), (by decide +kernel)⟩, (by decide +kernel), (by decide +kernel), (by decide +kernel), (by decide +kernel), (by decide +kernel), (by decide +kernel), (by decide +kernel)⟩,
    ⟨up, 31, 4, ⟨(by decide +kernel), (by decide +kernel), (by decide +kernel), (by decide +kernel)⟩, (by decide +kernel), (by decide +kernel)⟩,
    ⟨up, 7, 1, (by decide +kernel), ⟨(by decide +kernel), (by decide +kernel)⟩, (by decide +kernel), (by decide +kernel)⟩,
    ⟨({ up with chips := [(7, { state := 4, rx := [{ mtype := 1 }] })] }), 7, 1, ({ mtype := 1 }), (tookChip { up with chips := [(7, { state := 4, rx := [{ mtype := 1 }] })] } 7 1), (by decide +kernel), ⟨(by decide +kernel), (by decide +kernel)⟩, (by decide +kernel), (by decide +kernel)⟩,
    ⟨({ askedBy { linkMsg 5 (0) ([]) with dst := 9 } with rcache := [(0, ⟨0, 1, [], 0⟩)] }), (took { askedBy { linkMsg 5 (0) ([]) with dst := 9 } with rcache := [(0, ⟨0, 1, [], 0⟩)] } 0 5), 0, ({ linkMsg 5 (0) ([]) with dst := 9 }), ⟨(by decide +kernel), (by decide +kernel), (by decide +kernel), (by decide +kernel)⟩, (by decide +kernel), (by decide +kernel)⟩,
    ⟨up, 31, ⟨(by decide +kernel), (by decide +kernel), (by decide +kernel), (by decide +kernel)⟩, (by decide +kernel)⟩⟩

theorem witness_ResponsesAndTimeouts :
    (∃ (s : State) (u : State) (l : Nat) (t : Nat) (m : Msg) (o : _), (hasLink s l) ∧ (t ∈ [0x10, 0x11, 0x12]) ∧ (s.takeLinkMsg l t = some (m, u)) ∧ (u.msgStale m = false) ∧ (tblFind s.otags m.otag = some o) ∧ (o.answeredBy t (m.addr % 2 ^ 8) = true) ∧ (o.entry = none) ∧ ((o.cacheable = false ∨ o.noInstall = true)) ∧ (s.heldOps = [])) ∧
    (∃ (s : State) (u : State) (l : Nat) (t : Nat) (m : Msg), (hasLink s l) ∧ (t ∈ [0x10, 0x11, 0x12]) ∧ (s.takeLinkMsg l t = some (m, u)) ∧ (u.msgStale m = false) ∧ ((∀ o, tblFind s.otags m.otag = some o → o.answeredBy t (m.addr % 2 ^ 8) = false))) ∧
    (∃ (s : State) (l : Nat), (hasLink s l) ∧ (s.takeLinkMsg l 0x10 = none)) ∧
    (∃ (s : State) (l : Nat), (hasLink s l) ∧ (s.takeLinkMsg l 0x11 = none)) ∧
    (∃ (s : State) (l : Nat), (hasLink s l) ∧ (s.takeLinkMsg l 0x12 = none)) ∧
    (∃ (s : State), (calm s) ∧ (s.fclk = false)) ∧
    (∃ (s : State) (k : Nat) (o : Otag), (calm s) ∧ (s.fclk = true) ∧ (tblFind s.otags k = some o) ∧ (o.reserved = false) ∧ (o.entry = none) ∧ (o.ctx = none) ∧ (s.heldOps = [])) ∧
    (∃ (s : State) (k : Nat) (o : Otag), (calm s) ∧ (s.fclk = true) ∧ (tblFind s.otags k = some o) ∧ (o.reserved = true) ∧ (s.heldOps = [])) ∧
    (∃ (s : State) (k : Nat) (o : Otag), (calm s) ∧ (s.fclk = true) ∧ (tblFind s.otags k = some o) ∧ (o.reserved = true)) ∧
    (∃ (s : State) (k : Nat) (o : Otag), (calm s) ∧ (s.fclk = true) ∧ (tblFind s.otags k = some o) ∧ (o.reserved = false)) :=
  ⟨⟨({ askedBy { linkMsg 0x10 (0) (List.replicate 128 7#8) with dst := 9, otag := 3 } with otags := [(3, {})] }), (took { askedBy { linkMsg 0x10 (0) (List.replicate 128 7#8) with dst := 9, otag := 3 } with otags := [(3, {})] } 0 0x10), 0, 0x10, ({ linkMsg 0x10 (0) (List.replicate 128 7#8) with dst := 9, otag := 3 }), ({}), ⟨(by decide +kernel), (by decide +kernel), (by decide +kernel), (by decide +kernel)⟩, (by decide +kernel), (by decide +kernel), (by decide +kernel), (by decide +kernel), (by decide +kernel), (by decide +kernel), (by decide +kernel), (by decide +kernel)⟩,
    ⟨(askedBy { linkMsg 0x10 (0) (List.replicate 128 7#8) with dst := 9, otag := 3 }), (took (askedBy { linkMsg 0x10 (0) (List.replicate 128 7#8) with dst := 9, otag := 3 }) 0 0x10), 0, 0x10, ({ linkMsg 0x10 (0) (List.replicate 128 7#8) with dst := 9, otag := 3 }), ⟨(by decide +kernel), (by decide +kernel), (by decide +kernel), (by decide +kernel)⟩, (by decide +kernel), (by decide +kernel), (by decide +kernel), fun _ h => by cases h⟩,
    ⟨up, 31, ⟨(by decide +kernel), (by decide +kernel), (by decide +kernel), (by decide +kernel)⟩, (by decide +kernel)⟩,
    ⟨up, 31, ⟨(by decide +kernel), (by decide +kernel), (by decide +kernel), (by decide +kernel)⟩, (by decide +kernel)⟩,
    ⟨up, 31, ⟨(by decide +kernel), (by decide +kernel), (by decide +kernel), (by decide +kernel)⟩, (by decide +kernel)⟩,
    ⟨({ up with power := { state := 3 } }), ⟨(by decide +kernel), (by decide +kernel)⟩, (by decide +kernel)⟩,
    ⟨({ up with otags := [(8191, { inval := true })] }), 8191, ({ inval := true }), ⟨(by decide +kernel), (by decide +kernel)⟩, (by decide +kernel), (by decide +kernel), (by decide +kernel), (by decide +kernel), (by decide +kernel), (by decide +kernel)⟩,
    ⟨({ up with otags := [(3, { reserved := true })] }), 3, ({ reserved := true }), ⟨(by decide +kernel), (by decide +kernel)⟩, (by decide +kernel), (by decide +kernel), (by decide +kernel), (by decide +kernel)⟩,
    ⟨({ up with otags := [(3, { reserved := true })] }), 3, ({ reserved := true }), ⟨(by decide +kernel), (by decide +kernel)⟩, (by decide +kernel), (by decide +kernel), (by decide +kernel)⟩,
    ⟨({ up with otags := [(3, {})] }), 3, ({}), ⟨(by decide +kernel), (by decide +kernel)⟩, (by decide +kernel), (by decide +kernel), (by decide +kernel)⟩⟩

theorem witness_ChunksAndCombining :
    (∃ (s : State) (u : State) (l : Nat) (m : Msg), (hasLink s l) ∧ (s.takeLinkMsg l 0 = some (m, u)) ∧ (s.computing = false)) ∧
    (∃ (s : State) (u : State) (l : Nat) (m : Msg), (hasLink s l) ∧ (s.takeLinkMsg l 0 = some (m, u)) ∧ (s.computing = true) ∧ (s.lanesFor m.part = false)) ∧
    (∃ (s : State) (u : State) (l : Nat) (o : Nat) (m : Msg), (hasLink s l) ∧ (s.takeLinkMsg l 0 = some (m, u)) ∧ (s.computing = true) ∧ (s.lanesFor m.part = true) ∧ (u.msgStale m = false) ∧ (s.early = []) ∧ ((chunkOf m.body).home ≠ s.memberField) ∧ ((chunkOf m.body).combine = false) ∧ (o ≠ l) ∧ (u.routeOf (some l) (chunkOf m.body).home false = some o) ∧ (s.routeHeld = []) ∧ ((s.link o).state = 4)) ∧
    (∃ (s : State) (u : State) (l : Nat) (m : Msg), (hasLink s l) ∧ (s.takeLinkMsg l 0 = some (m, u)) ∧ (s.computing = true) ∧ (s.lanesFor m.part = true) ∧ (u.msgStale m = false) ∧ (s.early = []) ∧ ((chunkOf m.body).home = s.memberField) ∧ (tblFind s.rslots (slotKey7 (chunkOf m.body).part (chunkOf m.body).slot) = none) ∧ (u.transitUsed + (chunkBytes (chunkOf m.body)).length ≤ 2 ^ 20)) ∧
    (∃ (s : State) (l : Nat), (hasLink s l) ∧ (s.takeLinkMsg l 0 = none)) ∧
    (∃ (s : State) (l : Nat), (hasLink s l) ∧ (s.takeLinkMsg l 0x13 = none)) ∧
    (∃ (s : State) (u : State) (c : Nat) (m : ChipMsg), (c < s.cfg.chipPorts) ∧ (calm s) ∧ (s.takeChipMsg c 0 = some (m, u)) ∧ (s.computing = false)) ∧
    (∃ (s : State) (u : State) (c : Nat) (m : ChipMsg), (c < s.cfg.chipPorts) ∧ (calm s) ∧ (s.takeChipMsg c 0 = some (m, u)) ∧ (s.computing = true) ∧ (s.lanesFor ((s.chip c).bound.getD 0) = false)) ∧
    (∃ (s : State) (u : State) (c : Nat) (m : ChipMsg), (c < s.cfg.chipPorts) ∧ (calm s) ∧ (s.takeChipMsg c 0 = some (m, u)) ∧ (s.computing = true) ∧ (s.lanesFor ((s.chip c).bound.getD 0) = true) ∧ (some (chunkOf m.body).part ≠ (s.chip c).bound) ∧ (s.early = []) ∧ ((u.chip c).rx = [])) ∧
    (∃ (s : State) (u : State) (l : Nat) (j : Nat) (m : Msg) (r : ChunkRec) (h : Bytes), (hasLink s l) ∧ (s.takeLinkMsg l 0x13 = some (m, u)) ∧ (u.msgStale m = false) ∧ (j ≠ l) ∧ ((s.link j).state = 4) ∧ ((s.chunkRecs.find? fun r => r.link = l && r.header = (m.body.drop 1).take 15) = some r) ∧ (r.froms = [.link j (s.link j).sess h])) ∧
    (∃ (s : State) (u : State) (l : Nat) (m : Msg), (hasLink s l) ∧ (s.takeLinkMsg l 0x13 = some (m, u)) ∧ (u.msgStale m = true)) ∧
    (∃ (s : State) (i : Nat), (rested s) ∧ (s.early[i]? = none)) ∧
    (∃ (s : State) (i : Nat) (x : HeldChunk) (l : Nat) (h : Bytes), (rested s) ∧ (s.early[i]? = some x) ∧ (x.froms = [.link l (s.link l).sess h]) ∧ ((s.link l).state = 4)) ∧
    (∃ (s : State) (i : Nat), (rested s) ∧ (tblFind s.rslots i = none)) ∧
    (∃ (s : State) (i : Nat) (k : _), (rested s) ∧ (tblFind s.rslots i = some k)) ∧
    (∃ (s : State), (calm s) ∧ (s.fclk = false)) ∧
    (∃ (s : State) (e : Nat), (calm s) ∧ (s.fclk = true) ∧ (tblFind s.comb e = none)) ∧
    (∃ (s : State) (e : Nat) (c : _), (calm s) ∧ (s.fclk = true) ∧ (tblFind s.comb e = some c)) ∧
    (∃ (s : State) (e : Nat) (c : _) (l : _), (calm s) ∧ (s.fclk = true) ∧ (tblFind s.comb e = some c) ∧ (c.kind = 2) ∧ (s.routeOf c.arrived c.chunk.home false = some l) ∧ ((s.link l).grants (chunkUnits (chunkBytes c.chunk)) = false)) ∧
    (∃ (s : State) (e : Nat) (c : _) (l : _), (calm s) ∧ (s.fclk = true) ∧ (tblFind s.comb e = some c) ∧ (c.kind = 1) ∧ (c.departed = false) ∧ (s.routeOf c.arrived (homeOf c.addr) false = some l) ∧ ((s.link l).grants 2 = false)) ∧
    (∃ (s : State) (e : Nat) (c : _) (l : _), (calm s) ∧ (s.fclk = true) ∧ (tblFind s.comb e = some c) ∧ (c.kind = 2) ∧ (c.froms.length < 2) ∧ ((s.link l).grants (chunkUnits (chunkBytes c.chunk)) = true) ∧ (s.routeHeld = []) ∧ (s.routeOf c.arrived c.chunk.home false = some l) ∧ ((s.link l).state = 4)) ∧
    (∃ (s : State) (e : Nat) (c : _) (l : _), (calm s) ∧ (s.fclk = true) ∧ (tblFind s.comb e = some c) ∧ (c.kind = 1) ∧ (c.departed = false) ∧ (s.routeOf c.arrived (homeOf c.addr) false = some l) ∧ ((s.link l).grants 2 = true) ∧ ((s.link l).state = 4) ∧ (s.routeHeld = []) ∧ (s.heldOps = []) ∧ (firstGap s.otags 0 < 65536)) :=
  ⟨⟨({ twoLinks [{ linkMsg 0 0 (chunkBytes (chunkTo 9)) with pgen := 0 }] with power := { state := 1 } }), (took ({ twoLinks [{ linkMsg 0 0 (chunkBytes (chunkTo 9)) with pgen := 0 }] with power := { state := 1 } }) 0 0), 0, ({ linkMsg 0 0 (chunkBytes (chunkTo 9)) with pgen := 0 }), ⟨(by decide +kernel), (by decide +kernel), (by decide +kernel), (by decide +kernel)⟩, (by decide +kernel), (by decide +kernel)⟩,
    ⟨({ twoLinks [{ linkMsg 0 0 (chunkBytes (chunkTo 9)) with pgen := 0 }] with chips := [(7, { state := 4, bound := some 2, rx := [{ mtype := 0 }] })], lanesTurn := 1 }), (took ({ twoLinks [{ linkMsg 0 0 (chunkBytes (chunkTo 9)) with pgen := 0 }] with chips := [(7, { state := 4, bound := some 2, rx := [{ mtype := 0 }] })], lanesTurn := 1 }) 0 0), 0, ({ linkMsg 0 0 (chunkBytes (chunkTo 9)) with pgen := 0 }), ⟨(by decide +kernel), (by decide +kernel), (by decide +kernel), (by decide +kernel)⟩, (by decide +kernel), (by decide +kernel), (by decide +kernel)⟩,
    ⟨(twoLinks [{ linkMsg 0 0 (chunkBytes (chunkTo 13)) with pgen := 0 }]), (took (twoLinks [{ linkMsg 0 0 (chunkBytes (chunkTo 13)) with pgen := 0 }]) 0 0), 0, 1, ({ linkMsg 0 0 (chunkBytes (chunkTo 13)) with pgen := 0 }), ⟨(by decide +kernel), (by decide +kernel), (by decide +kernel), (by decide +kernel)⟩, (by decide +kernel), (by decide +kernel), (by decide +kernel), (by decide +kernel), (by decide +kernel), (by decide +kernel), (by decide +kernel), (by decide +kernel), (by decide +kernel), (by decide +kernel), (by decide +kernel)⟩,
    ⟨(twoLinks [{ linkMsg 0 0 (chunkBytes (chunkTo 9)) with pgen := 0 }]), (took (twoLinks [{ linkMsg 0 0 (chunkBytes (chunkTo 9)) with pgen := 0 }]) 0 0), 0, ({ linkMsg 0 0 (chunkBytes (chunkTo 9)) with pgen := 0 }), ⟨(by decide +kernel), (by decide +kernel), (by decide +kernel), (by decide +kernel)⟩, (by decide +kernel), (by decide +kernel), (by decide +kernel), (by decide +kernel), (by decide +kernel), (by decide +kernel), (by decide +kernel), (by decide +kernel)⟩,
    ⟨up, 31, ⟨(by decide +kernel), (by decide +kernel), (by decide +kernel), (by decide +kernel)⟩, (by decide +kernel)⟩,
    ⟨up, 31, ⟨(by decide +kernel), (by decide +kernel), (by decide +kernel), (by decide +kernel)⟩, (by decide +kernel)⟩,
    ⟨({ up with chips := [(7, { state := 4, rx := [{ mtype := 0 }] })], power := { state := 1 } }), (tookChip ({ up with chips := [(7, { state := 4, rx := [{ mtype := 0 }] })], power := { state := 1 } }) 7 0), 7, ({ mtype := 0 }), (by decide +kernel), ⟨(by decide +kernel), (by decide +kernel)⟩, (by decide +kernel), (by decide +kernel)⟩,
    ⟨({ twoLinks [{ linkMsg 0 0 (chunkBytes (chunkTo 9)) with pgen := 0 }] with chips := [(7, { state := 4, bound := some 2, rx := [{ mtype := 0 }] })], lanesTurn := 2 }), (tookChip ({ twoLinks [{ linkMsg 0 0 (chunkBytes (chunkTo 9)) with pgen := 0 }] with chips := [(7, { state := 4, bound := some 2, rx := [{ mtype := 0 }] })], lanesTurn := 2 }) 7 0), 7, ({ mtype := 0 }), (by decide +kernel), ⟨(by decide +kernel), (by decide +kernel)⟩, (by decide +kernel), (by decide +kernel), (by decide +kernel)⟩,
    ⟨({ up with chips := [(7, { state := 4, rx := [{ mtype := 0 }] })] }), (tookChip ({ up with chips := [(7, { state := 4, rx := [{ mtype := 0 }] })] }) 7 0), 7, ({ mtype := 0 }), (by decide +kernel), ⟨(by decide +kernel), (by decide +kernel)⟩, (by decide +kernel), (by decide +kernel), (by decide +kernel), (by decide +kernel), (by decide +kernel), (by decide +kernel)⟩,
    ⟨({ twoLinks [{ linkMsg 0x13 0 (leBytes 1 0 ++ List.replicate 15 6#8) with dst := 9 }] with chunkRecs := [⟨0, List.replicate 15 6#8, [.link 1 0 [5#8]]⟩] }), (took { twoLinks [{ linkMsg 0x13 0 (leBytes 1 0 ++ List.replicate 15 6#8) with dst := 9 }] with chunkRecs := [⟨0, List.replicate 15 6#8, [.link 1 0 [5#8]]⟩] } 0 0x13), 0, 1, ({ linkMsg 0x13 0 (leBytes 1 0 ++ List.replicate 15 6#8) with dst := 9 }), (⟨0, List.replicate 15 6#8, [.link 1 0 [5#8]]⟩), ([5#8]), ⟨(by decide +kernel), (by decide +kernel), (by decide +kernel), (by decide +kernel)⟩, (by decide +kernel), (by decide +kernel), (by decide +kernel), (by decide +kernel), (by decide +kernel), (by decide +kernel)⟩,
    ⟨(twoLinks [{ linkMsg 0x13 0 (leBytes 1 0 ++ List.replicate 15 6#8) with dst := 9, pgen := 9 }]), (took (twoLinks [{ linkMsg 0x13 0 (leBytes 1 0 ++ List.replicate 15 6#8) with dst := 9, pgen := 9 }]) 0 0x13), 0, ({ linkMsg 0x13 0 (leBytes 1 0 ++ List.replicate 15 6#8) with dst := 9, pgen := 9 }), ⟨(by decide +kernel), (by decide +kernel), (by decide +kernel), (by decide +kernel)⟩, (by decide +kernel), (by decide +kernel)⟩,
    ⟨up, 0, ⟨(by decide +kernel), (by decide +kernel)⟩, (by decide +kernel)⟩,
    ⟨({ twoLinks [] with early := [⟨chunkTo 9, [.link 0 0 [1#8]], none⟩] }), 0, (⟨chunkTo 9, [.link 0 0 [1#8]], none⟩), 0, ([1#8]), ⟨(by decide +kernel), (by decide +kernel)⟩, (by decide +kernel), (by decide +kernel), (by decide +kernel)⟩,
    ⟨up, 0, ⟨(by decide +kernel), (by decide +kernel)⟩, (by decide +kernel)⟩,
    ⟨({ withCmd (cmdOf 0x25) with rslots := [(3, { cmd := 5 })] }), 3, (({ cmd := 5 } : Slot7)), ⟨(by decide +kernel), (by decide +kernel)⟩, (by decide +kernel)⟩,
    ⟨({ up with power := { state := 3 } }), ⟨(by decide +kernel), (by decide +kernel)⟩, (by decide +kernel)⟩,
    ⟨up, 4095, ⟨(by decide +kernel), (by decide +kernel)⟩, (by decide +kernel), (by decide +kernel)⟩,
    ⟨({ up with comb := [(0, {})] }), 0, (({} : Comb)), ⟨(by decide +kernel), (by decide +kernel)⟩, (by decide +kernel), (by decide +kernel)⟩,
    ⟨({ twoLinks [] with links := [(1, { keyed with opc := 0 })], comb := [(0, { kind := 2, chunk := chunkTo 13 })] }), 0, (({ kind := 2, chunk := chunkTo 13 } : Comb)), 1, ⟨(by decide +kernel), (by decide +kernel)⟩, (by decide +kernel), (by decide +kernel), (by decide +kernel), (by decide +kernel), (by decide +kernel)⟩,
    ⟨({ twoLinks [] with links := [(0, { keyed with opc := 0 })], comb := [(0, { kind := 1, addr := 9 * 2 ^ 48 })] }), 0, (({ kind := 1, addr := 9 * 2 ^ 48 } : Comb)), 0, ⟨(by decide +kernel), (by decide +kernel)⟩, (by decide +kernel), (by decide +kernel), (by decide +kernel), (by decide +kernel), (by decide +kernel), (by decide +kernel)⟩,
    ⟨({ twoLinks [] with comb := [(0, { kind := 2, chunk := chunkTo 13 })] }), 0, (({ kind := 2, chunk := chunkTo 13 } : Comb)), 1, ⟨(by decide +kernel), (by decide +kernel)⟩, (by decide +kernel), (by decide +kernel), (by decide +kernel), (by decide +kernel), (by decide +kernel), (by decide +kernel), (by decide +kernel), (by decide +kernel)⟩,
    ⟨({ twoLinks [] with comb := [(0, { kind := 1, op := 1, addr := 13 * 2 ^ 48 })] }), 0, (({ kind := 1, op := 1, addr := 13 * 2 ^ 48 } : Comb)), 1, ⟨(by decide +kernel), (by decide +kernel)⟩, (by decide +kernel), (by decide +kernel), (by decide +kernel), (by decide +kernel), (by decide +kernel), (by decide +kernel), (by decide +kernel), (by decide +kernel), (by decide +kernel), (by decide +kernel)⟩⟩

theorem witness_ControlPages :
    (∃ (s : State) (h : Nat) (fn : Nat) (n : Nat), (reachesPage s h fn n)) ∧
    (∃ (s : State) (h : Nat) (fn : Nat) (n : Nat), (reachesPage s h fn n) ∧ (((s.ctx n).qbase ≤ ((s.ctx n).qcfgQ) ∧ ((s.ctx n).qcfgQ) < (s.ctx n).qbase + (s.ctx n).qcount))) ∧
    (∃ (s : State) (h : Nat) (fn : Nat) (n : Nat), (reachesPage s h fn n) ∧ (((s.ctx n).qbase ≤ ((s.ctx n).qcfgQ) ∧ ((s.ctx n).qcfgQ) < (s.ctx n).qbase + (s.ctx n).qcount)) ∧ ((s.queue ((s.ctx n).qcfgQ)).state = 0) ∧ ((s.ctx n).state = 1) ∧ (bits (s.ctx n).qcfgRing 47 0 % 4096 = 0) ∧ (bits (s.ctx n).qcfgCring 47 0 % 4096 = 0) ∧ (4 ≤ bits (s.ctx n).qcfgRing 52 48) ∧ (bits (s.ctx n).qcfgRing 52 48 ≤ 20) ∧ (4 ≤ bits (s.ctx n).qcfgCring 52 48) ∧ (bits (s.ctx n).qcfgCring 52 48 ≤ 20) ∧ ((bits (s.ctx n).qcfgCring 59 53 < 64 ∨ bits (s.ctx n).qcfgCring 59 53 = 0x7F))) ∧
    (∃ (s : State) (h : Nat) (fn : Nat) (n : Nat), (reachesPage s h fn n) ∧ (((s.ctx n).qbase ≤ ((s.ctx n).qcfgQ) ∧ ((s.ctx n).qcfgQ) < (s.ctx n).qbase + (s.ctx n).qcount)) ∧ (((s.queue ((s.ctx n).qcfgQ)).state = 1 ∨ (s.queue ((s.ctx n).qcfgQ)).state = 2)) ∧ ((s.queue ((s.ctx n).qcfgQ)).accepted = none)) ∧
    (∃ (s : State) (h : Nat) (fn : Nat) (n : Nat), (reachesPage s h fn n) ∧ (((s.ctx n).qbase ≤ ((s.ctx n).qcfgQ) ∧ ((s.ctx n).qcfgQ) < (s.ctx n).qbase + (s.ctx n).qcount)) ∧ ((s.queue ((s.ctx n).qcfgQ)).state ≠ 0)) ∧
    (∃ (s : State) (h : Nat) (fn : Nat) (n : Nat), (reachesPage s h fn n) ∧ (((s.ctx n).qbase ≤ ((s.ctx n).qcfgQ) ∧ ((s.ctx n).qcfgQ) < (s.ctx n).qbase + (s.ctx n).qcount)) ∧ ((s.queue ((s.ctx n).qcfgQ)).state = 0 ∨ (s.queue ((s.ctx n).qcfgQ)).state = 3)) ∧
    (∃ (s : State) (h : Nat) (fn : Nat) (n : Nat), (reachesPage s h fn n) ∧ (¬ ((s.ctx n).qbase ≤ ((s.ctx n).qcfgQ) ∧ ((s.ctx n).qcfgQ) < (s.ctx n).qbase + (s.ctx n).qcount))) ∧
    (∃ (s : State) (h : Nat) (fn : Nat) (n : Nat), (s.cfg.legal = true) ∧ (h < s.cfg.hostPorts) ∧ (busy s) ∧ ((s.host h).inReset = false) ∧ (s.reaches h fn n = false)) ∧
    (∃ (s : State) (h : Nat) (fn : Nat) (n : Nat) (w : Bool) (i : _), (h < s.cfg.hostPorts) ∧ (calm s) ∧ (s.faults.phase = 0) ∧ (¬ inS0 s) ∧ (i ∈ [Instr.ctxFaultClear h fn n w, .queueRead h fn n, .queueEnable h fn n, .queueDisable h fn n])) ∧
    (∃ (s : State) (h : Nat) (fn : Nat) (n : Nat) (w : Bool) (i : _), (h < s.cfg.hostPorts) ∧ (busy s) ∧ ((s.host h).inReset = true) ∧ (i ∈ [Instr.ctxFaultClear h fn n w, .queueRead h fn n, .queueEnable h fn n, .queueDisable h fn n])) ∧
    (∃ (s : State), (busy s)) :=
  ⟨⟨(withQueue {}), 3, 0, 6, ⟨(by decide +kernel), ⟨⟨(by decide +kernel), (by decide +kernel)⟩, ⟨(by decide +kernel), (by decide +kernel)⟩⟩, (by decide +kernel), (by decide +kernel), (by decide +kernel)⟩⟩,
    ⟨(withQueue {}), 0, 0, 6, ⟨(by decide +kernel), ⟨⟨(by decide +kernel), (by decide +kernel)⟩, ⟨(by decide +kernel), (by decide +kernel)⟩⟩, (by decide +kernel), (by decide +kernel), (by decide +kernel)⟩, (by decide +kernel)⟩,
    ⟨(withQueue {}), 0, 0, 6, ⟨(by decide +kernel), ⟨⟨(by decide +kernel), (by decide +kernel)⟩, ⟨(by decide +kernel), (by decide +kernel)⟩⟩, (by decide +kernel), (by decide +kernel), (by decide +kernel)⟩, (by decide +kernel), (by decide +kernel), (by decide +kernel), (by decide +kernel), (by decide +kernel), (by decide +kernel), (by decide +kernel), (by decide +kernel), (by decide +kernel), (by decide +kernel)⟩,
    ⟨(withQueue { state := 1, rlog := 4, clog := 4 }), 0, 0, 6, ⟨(by decide +kernel), ⟨⟨(by decide +kernel), (by decide +kernel)⟩, ⟨(by decide +kernel), (by decide +kernel)⟩⟩, (by decide +kernel), (by decide +kernel), (by decide +kernel)⟩, (by decide +kernel), (by decide +kernel), (by decide +kernel)⟩,
    ⟨(withQueue { state := 1, rlog := 4, clog := 4 }), 0, 0, 6, ⟨(by decide +kernel), ⟨⟨(by decide +kernel), (by decide +kernel)⟩, ⟨(by decide +kernel), (by decide +kernel)⟩⟩, (by decide +kernel), (by decide +kernel), (by decide +kernel)⟩, (by decide +kernel), (by decide +kernel)⟩,
    ⟨(withQueue { state := 3 }), 0, 0, 6, ⟨(by decide +kernel), ⟨⟨(by decide +kernel), (by decide +kernel)⟩, ⟨(by decide +kernel), (by decide +kernel)⟩⟩, (by decide +kernel), (by decide +kernel), (by decide +kernel)⟩, (by decide +kernel), (by decide +kernel)⟩,
    ⟨({ withQueue {} with ctxs := [(6, { state := 1, part := 1, qbase := 8, qcount := 4, qcfgQ := 12 })] }), 0, 0, 6, ⟨(by decide +kernel), ⟨⟨(by decide +kernel), (by decide +kernel)⟩, ⟨(by decide +kernel), (by decide +kernel)⟩⟩, (by decide +kernel), (by decide +kernel), (by decide +kernel)⟩, (by decide +kernel)⟩,
    ⟨(withQueue {}), 3, 256, 6, (by decide +kernel), (by decide +kernel), ⟨⟨(by decide +kernel), (by decide +kernel)⟩, ⟨(by decide +kernel), (by decide +kernel)⟩⟩, (by decide +kernel), (by decide +kernel)⟩,
    ⟨({ withQueue {} with power := { state := 3 } }), 0, 0, 6, false, (Instr.queueRead 0 0 6), (by decide +kernel), ⟨(by decide +kernel), (by decide +kernel)⟩, (by decide +kernel), (by unfold inS0; decide +kernel), by simp⟩,
    ⟨({ withQueue {} with hosts := [(0, { inReset := true })] }), 0, 0, 6, false, (Instr.queueRead 0 0 6), (by decide +kernel), ⟨⟨(by decide +kernel), (by decide +kernel)⟩, ⟨(by decide +kernel), (by decide +kernel)⟩⟩, (by decide +kernel), by simp⟩,
    ⟨(withQueue { state := 3 }), ⟨⟨(by decide +kernel), (by decide +kernel)⟩, ⟨(by decide +kernel), (by decide +kernel)⟩⟩⟩⟩

theorem witness_QueuesAndCommands :
    (∃ (s : State) (q : Nat) (n : Nat) (v : Nat) (h : Nat) (fn : Nat), (s.cfg.legal = true) ∧ (h < s.cfg.hostPorts) ∧ (busy s) ∧ ((s.host h).inReset = false) ∧ (q < s.cfg.queues) ∧ (s.ownerOf q = some n) ∧ (s.reaches h fn n = true) ∧ (s.tdiHolds n = false) ∧ ((s.ctx n).state = 1) ∧ ((s.queue q).state = 1) ∧ (v < 2 ^ 32) ∧ ((v + 2 ^ 32 - (s.queue q).tail) % 2 ^ 32 ≠ 0) ∧ ((v + 2 ^ 32 - (s.queue q).tail) % 2 ^ 32 < 2 ^ 31) ∧ ((v + 2 ^ 32 - (s.queue q).head) % 2 ^ 32 ≤ 2 ^ (s.queue q).rlog)) ∧
    (∃ (s : State) (q : Nat) (n : Nat) (v : Nat) (h : Nat) (fn : Nat), (s.cfg.legal = true) ∧ (h < s.cfg.hostPorts) ∧ (busy s) ∧ ((s.host h).inReset = false) ∧ (q < s.cfg.queues) ∧ (s.ownerOf q = some n) ∧ (s.reaches h fn n = true) ∧ (s.tdiHolds n = false) ∧ ((s.ctx n).state = 1) ∧ ((s.queue q).state = 1) ∧ (v < 2 ^ 32) ∧ (((s.queue q).ctail + 2 ^ 32 - v) % 2 ^ 32 ≤ 2 ^ (s.queue q).clog)) ∧
    (∃ (s : State) (q : Nat) (n : Nat) (h : Nat) (fn : Nat), (s.cfg.legal = true) ∧ (h < s.cfg.hostPorts) ∧ (busy s) ∧ ((s.host h).inReset = false) ∧ (q < s.cfg.queues) ∧ (s.ownerOf q = some n) ∧ (s.reaches h fn n = true) ∧ (s.tdiHolds n = false) ∧ ((s.ctx n).state = 1) ∧ ((s.queue q).state ≠ 1)) ∧
    (∃ (s : State) (q : Nat) (n : Nat) (h : Nat) (fn : Nat), (s.cfg.legal = true) ∧ (h < s.cfg.hostPorts) ∧ (busy s) ∧ ((s.host h).inReset = false) ∧ (q < s.cfg.queues) ∧ (s.ownerOf q = some n) ∧ (s.reaches h fn n = true) ∧ (s.tdiHolds n = false) ∧ ((s.ctx n).state = 2)) ∧
    (∃ (s : State) (q : Nat) (h : Nat) (fn : Nat), (s.cfg.legal = true) ∧ (h < s.cfg.hostPorts) ∧ (busy s) ∧ ((s.host h).inReset = false) ∧ ((∀ n, s.ownerOf q = some n → s.reaches h fn n = false))) ∧
    (∃ (s : State) (r : Ringer) (q : Nat) (be : Nat) (v : Nat), (unitThere s (.doorbell r q be v) = true) ∧ (busy s) ∧ (ringerDark r s = true)) ∧
    (∃ (s : State) (q : Nat) (n : Nat) (v : Nat) (c : Nat), (c < s.cfg.chipPorts) ∧ (busy s) ∧ ((s.chip c).inReset = false) ∧ (s.ownerOf q = some n) ∧ (s.tdiHolds n = false) ∧ ((s.ctx n).state = 1) ∧ (bit (s.ctx n).chipDb c = true) ∧ ((s.chip c).bound = some (s.ctx n).part) ∧ ((s.chip c).state = 4) ∧ ((s.queue q).state = 1) ∧ (v < 2 ^ 32) ∧ ((v + 2 ^ 32 - (s.queue q).tail) % 2 ^ 32 ≠ 0) ∧ ((v + 2 ^ 32 - (s.queue q).tail) % 2 ^ 32 < 2 ^ 31) ∧ ((v + 2 ^ 32 - (s.queue q).head) % 2 ^ 32 ≤ 2 ^ (s.queue q).rlog)) ∧
    (∃ (s : State) (r : Ringer) (q : Nat) (be : Nat) (v : Nat), (unitThere s (.doorbell r q be v) = true) ∧ (calm s) ∧ (s.faults.phase = 0) ∧ (¬ inS0 s)) ∧
    (∃ (s : State) (q : Nat) (n : Nat), (busy s) ∧ (s.ownerOf q = some n) ∧ (((s.queue q).state = 1 ∧ (s.queue q).tail ≠ (s.queue q).head ∧ (s.queue q).accepted = none ∧ (s.queue q).fetching = false ∧ (s.ctx n).state = 1 ∧ ∀ i ∈ (s.queue q).started, ¬ ((s.cmd i).opcode = 2 ∧ (s.cmd i).phase = 1)))) ∧
    (∃ (s : State) (q : Nat) (n : Nat), (busy s) ∧ (s.ownerOf q = some n) ∧ (¬ ((s.queue q).state = 1 ∧ (s.queue q).tail ≠ (s.queue q).head ∧ (s.queue q).accepted = none ∧ (s.queue q).fetching = false ∧ (s.ctx n).state = 1 ∧ ∀ i ∈ (s.queue q).started, ¬ ((s.cmd i).opcode = 2 ∧ (s.cmd i).phase = 1)))) ∧
    (∃ (d : Nat), (hOpcode d ≠ 0x11)) ∧
    (∃ (s : State) (q : Nat) (id : Nat) (c : Cmd), (busy s) ∧ ((s.queue q).accepted = some id) ∧ (tblFind s.cmds id = some c) ∧ (s.mayStart q id = true) ∧ (c.fail = none)) ∧
    (∃ (s : State) (q : Nat) (id : Nat) (c : Cmd), (busy s) ∧ ((s.queue q).accepted = some id) ∧ (tblFind s.cmds id = some c) ∧ (s.mayStart q id = false)) ∧
    (∃ (s : State) (id : Nat) (c : Cmd), (started s id 1 c)) ∧
    (∃ (s : State) (id : Nat) (c : Cmd), (started s id 1 c) ∧ (hSigEn c.desc = false) ∧ (hNoRecord c.desc = true)) ∧
    (∃ (s : State) (id : Nat) (c : Cmd), (started s id 2 c)) ∧
    (∃ (s : State) (id : Nat) (c : Cmd), (started s id 3 c)) :=
  ⟨⟨(withQueue { state := 1, rlog := 4, clog := 4 }), 8, 6, 16, 0, 0, (by decide +kernel), (by decide +kernel), ⟨⟨(by decide +kernel), (by decide +kernel)⟩, ⟨(by decide +kernel), (by decide +kernel)⟩⟩, (by decide +kernel), (by decide +kernel), (by decide +kernel), (by decide +kernel), (by decide +kernel), (by decide +kernel), (by decide +kernel), (by decide +kernel), (by decide +kernel), (by decide +kernel), (by decide +kernel)⟩,
    ⟨(withQueue { state := 1, rlog := 4, clog := 4 }), 8, 6, 0xFFFFFFF0, 0, 0, (by decide +kernel), (by decide +kernel), ⟨⟨(by decide +kernel), (by decide +kernel)⟩, ⟨(by decide +kernel), (by decide +kernel)⟩⟩, (by decide +kernel), (by decide +kernel), (by decide +kernel), (by decide +kernel), (by decide +kernel), (by decide +kernel), (by decide +kernel), (by decide +kernel), (by decide +kernel)⟩,
    ⟨(withQueue {}), 8, 6, 0, 0, (by decide +kernel), (by decide +kernel), ⟨⟨(by decide +kernel), (by decide +kernel)⟩, ⟨(by decide +kernel), (by decide +kernel)⟩⟩, (by decide +kernel), (by decide +kernel), (by decide +kernel), (by decide +kernel), (by decide +kernel), (by decide +kernel), (by decide +kernel)⟩,
    ⟨({ withQueue {} with ctxs := [(6, { state := 2, part := 1, qbase := 8, qcount := 4 })] }), 8, 6, 0, 0, (by decide +kernel), (by decide +kernel), ⟨⟨(by decide +kernel), (by decide +kernel)⟩, ⟨(by decide +kernel), (by decide +kernel)⟩⟩, (by decide +kernel), (by decide +kernel), (by decide +kernel), (by decide +kernel), (by decide +kernel), (by decide +kernel)⟩,
    ⟨up, 8, 3, 256, (by decide +kernel), (by decide +kernel), ⟨⟨(by decide +kernel), (by decide +kernel)⟩, ⟨(by decide +kernel), (by decide +kernel)⟩⟩, (by decide +kernel), fun _ h => by cases h⟩,
    ⟨({ up with hosts := [(0, { inReset := true })] }), (.host 0 0), 8, 15, 1, (by decide +kernel), ⟨⟨(by decide +kernel), (by decide +kernel)⟩, ⟨(by decide +kernel), (by decide +kernel)⟩⟩, (by decide +kernel)⟩,
    ⟨({ withQueue { state := 1, rlog := 4, clog := 4 } with chips := [(0, { state := 4, bound := some 1 })] }), 8, 6, 1, 0, (by decide +kernel), ⟨⟨(by decide +kernel), (by decide +kernel)⟩, ⟨(by decide +kernel), (by decide +kernel)⟩⟩, (by decide +kernel), (by decide +kernel), (by decide +kernel), (by decide +kernel), (by decide +kernel), (by decide +kernel), (by decide +kernel), (by decide +kernel), (by decide +kernel), (by decide +kernel), (by decide +kernel), (by decide +kernel)⟩,
    ⟨({ up with power := { state := 1 } }), (.chip 0), 8, 15, 1, (by decide +kernel), ⟨(by decide +kernel), (by decide +kernel)⟩, (by decide +kernel), (by unfold inS0; decide +kernel)⟩,
    ⟨(withQueue { state := 1, rlog := 4, tail := 1 }), 8, 6, ⟨⟨(by decide +kernel), (by decide +kernel)⟩, ⟨(by decide +kernel), (by decide +kernel)⟩⟩, (by decide +kernel), (by decide +kernel)⟩,
    ⟨(withQueue { state := 1, rlog := 4, clog := 4 }), 8, 6, ⟨⟨(by decide +kernel), (by decide +kernel)⟩, ⟨(by decide +kernel), (by decide +kernel)⟩⟩, (by decide +kernel), (by decide +kernel)⟩,
    ⟨1, (by decide +kernel)⟩,
    ⟨({ withQueue { state := 1, clog := 4, accepted := some 5 } with cmds := [(5, { cmdOf 1 with phase := 0, reserved := false })] }), 8, 5, ({ cmdOf 1 with phase := 0, reserved := false }), ⟨⟨(by decide +kernel), (by decide +kernel)⟩, ⟨(by decide +kernel), (by decide +kernel)⟩⟩, (by decide +kernel), (by decide +kernel), (by decide +kernel), (by decide +kernel)⟩,
    ⟨({ withQueue { state := 1, clog := 4, accepted := some 5 } with cmds := [(5, { cmdOf 1 with phase := 0, waitPassed := false })] }), 8, 5, ({ cmdOf 1 with phase := 0, waitPassed := false }), ⟨⟨(by decide +kernel), (by decide +kernel)⟩, ⟨(by decide +kernel), (by decide +kernel)⟩⟩, (by decide +kernel), (by decide +kernel), (by decide +kernel)⟩,
    ⟨(withCmd (cmdOf 1)), 5, (cmdOf 1), ⟨⟨⟨(by decide +kernel), (by decide +kernel)⟩, ⟨(by decide +kernel), (by decide +kernel)⟩⟩, (by decide +kernel), (by decide +kernel), (by decide +kernel), (by decide +kernel)⟩⟩,
    ⟨(withCmd (cmdOf 1)), 5, (cmdOf 1), ⟨⟨⟨(by decide +kernel), (by decide +kernel)⟩, ⟨(by decide +kernel), (by decide +kernel)⟩⟩, (by decide +kernel), (by decide +kernel), (by decide +kernel), (by decide +kernel)⟩, (by decide +kernel), (by decide +kernel)⟩,
    ⟨(withCmd (cmdOf 2)), 5, (cmdOf 2), ⟨⟨⟨(by decide +kernel), (by decide +kernel)⟩, ⟨(by decide +kernel), (by decide +kernel)⟩⟩, (by decide +kernel), (by decide +kernel), (by decide +kernel), (by decide +kernel)⟩⟩,
    ⟨(withCmd (cmdOf 3)), 5, (cmdOf 3), ⟨⟨⟨(by decide +kernel), (by decide +kernel)⟩, ⟨(by decide +kernel), (by decide +kernel)⟩⟩, (by decide +kernel), (by decide +kernel), (by decide +kernel), (by decide +kernel)⟩⟩⟩

theorem witness_ObjectCreation :
    (∃ (s : State) (id : Nat) (c : Cmd) (i : _), (started s id 0x10 c) ∧ (tblRising s.objs = true) ∧ (i < s.setting 0x5010 1) ∧ (¬ (fun (j : Nat) => (tblGet s.objs j {}).live = true ∨ (tblGet s.objs j {}).retired = true ∨ (tblGet s.objs j {}).pendingFree = true) i) ∧ ((∀ j, j < i → (fun (j : Nat) => (tblGet s.objs j {}).live = true ∨ (tblGet s.objs j {}).retired = true ∨ (tblGet s.objs j {}).pendingFree = true) j))) ∧
    (∃ (s : State) (id : Nat) (c : Cmd), (started s id 0x10 c) ∧ (tblRising s.objs = true) ∧ ((∀ i, i < s.setting 0x5010 1 → (fun (j : Nat) => (tblGet s.objs j {}).live = true ∨ (tblGet s.objs j {}).retired = true ∨ (tblGet s.objs j {}).pendingFree = true) i))) :=
  ⟨⟨({ withCmd (cmdOf 0x10) with objs := [(0, { live := true })] }), 5, (cmdOf 0x10), 1, ⟨⟨⟨(by decide +kernel), (by decide +kernel)⟩, ⟨(by decide +kernel), (by decide +kernel)⟩⟩, (by decide +kernel), (by decide +kernel), (by decide +kernel), (by decide +kernel)⟩, (by decide +kernel), (by decide +kernel), (by decide +kernel), (by decide +kernel)⟩,
    ⟨({ withCmd (cmdOf 0x10) with settings := [(ekey 0x5010 1, 1)], objs := [(0, { retired := true })] }), 5, (cmdOf 0x10), ⟨⟨⟨(by decide +kernel), (by decide +kernel)⟩, ⟨(by decide +kernel), (by decide +kernel)⟩⟩, (by decide +kernel), (by decide +kernel), (by decide +kernel), (by decide +kernel)⟩, (by decide +kernel), (by decide +kernel)⟩⟩

theorem witness_FreesAndFences :
    (∃ (s : State), (s.fclk = true)) ∧
    (∃ (d : Nat) (j : _), (j ≠ (bits d 95 64 % 2 ^ 24))) ∧
    (∃ (s : State) (id : Nat) (c : Cmd), (started s id 0x11 c)) ∧
    (∃ (s : State) (id : Nat) (i : Nat) (o : Obj) (c : Cmd), (busy s) ∧ ((s.objs.find? fun kv => kv.2.pendingFree && kv.2.freeCmd = id) = some (i, o)) ∧ (tblFind s.cmds id = some c) ∧ ((∀ x ∈ o.quiesce, tblFind s.cmds x = none)) ∧ (c.phase = 1)) ∧
    (∃ (s : State) (id : Nat) (i : Nat) (o : Obj) (c : Cmd), (busy s) ∧ ((s.objs.find? fun kv => kv.2.pendingFree && kv.2.freeCmd = id) = some (i, o)) ∧ (tblFind s.cmds id = some c) ∧ ((∃ x ∈ o.quiesce, tblFind s.cmds x ≠ none))) ∧
    (∃ (s : State) (q : Nat) (id : Nat), (busy s) ∧ (s.signalDue q = some id) ∧ (s.earlierDone id = true) ∧ ((s.queue q).failedAt = none)) ∧
    (∃ (s : State) (q : Nat), (busy s) ∧ (s.signalDue q = none)) ∧
    (∃ (s : State) (q : Nat) (id : Nat) (c : Cmd), (busy s) ∧ ((s.queue q).accepted = some id) ∧ (tblFind s.cmds id = some c) ∧ (c.waitPassed = false) ∧ (c.waitBusy = false) ∧ (c.watched = true)) ∧
    (∃ (s : State) (q : Nat) (id : Nat) (c : Cmd), (busy s) ∧ ((s.queue q).accepted = some id) ∧ (tblFind s.cmds id = some c) ∧ (c.waitPassed = false) ∧ (c.waitBusy = false) ∧ (c.watched = false)) ∧
    (∃ (s : State) (q : Nat) (id : Nat) (c : Cmd), ((s.queue q).accepted = some id) ∧ (tblFind s.cmds id = some c) ∧ (c.waitPassed = false)) ∧
    (∃ (s : State) (q : Nat) (id : Nat) (c : Cmd) (r : Result), ((s.queue q).accepted = some id) ∧ (tblFind s.cmds id = some c) ∧ (c.waitPassed = false) ∧ (r.code = .ok)) ∧
    (∃ (s : State) (q : Nat) (id : Nat) (c : Cmd) (r : Result), ((s.queue q).accepted = some id) ∧ (tblFind s.cmds id = some c) ∧ (c.waitPassed = false) ∧ (r.code ≠ .ok)) :=
  ⟨⟨up, (by decide +kernel)⟩,
    ⟨0, 1, (by decide +kernel)⟩,
    ⟨(withCmd (cmdOf 0x11)), 5, (cmdOf 0x11), ⟨⟨⟨(by decide +kernel), (by decide +kernel)⟩, ⟨(by decide +kernel), (by decide +kernel)⟩⟩, (by decide +kernel), (by decide +kernel), (by decide +kernel), (by decide +kernel)⟩⟩,
    ⟨({ withCmd { cmdOf 0x11 with stage := 1 } with objs := [(3, { pendingFree := true, freeCmd := 5 })] }), 5, 3, ({ pendingFree := true, freeCmd := 5 }), ({ cmdOf 0x11 with stage := 1 }), ⟨⟨(by decide +kernel), (by decide +kernel)⟩, ⟨(by decide +kernel), (by decide +kernel)⟩⟩, (by decide +kernel), (by decide +kernel), (by decide +kernel), (by decide +kernel)⟩,
    ⟨({ withCmd { cmdOf 0x11 with stage := 1 } with objs := [(3, { pendingFree := true, freeCmd := 5, quiesce := [5] })] }), 5, 3, ({ pendingFree := true, freeCmd := 5, quiesce := [5] }), ({ cmdOf 0x11 with stage := 1 }), ⟨⟨(by decide +kernel), (by decide +kernel)⟩, ⟨(by decide +kernel), (by decide +kernel)⟩⟩, (by decide +kernel), (by decide +kernel), (by decide +kernel)⟩,
    ⟨({ withCmd { cmdOf 1 with phase := 2, desc := 2 ^ 12 } with objs := [(0, { live := true, wr := true, owner := 6, size := 4096 })], ctxs := [(6, { state := 1, part := 1, qbase := 8, qcount := 4, slots := [(0, 1 * 2 ^ 24)] })] }), 8, 5, ⟨⟨(by decide +kernel), (by decide +kernel)⟩, ⟨(by decide +kernel), (by decide +kernel)⟩⟩, (by decide +kernel), (by decide +kernel), (by decide +kernel)⟩,
    ⟨up, 8, ⟨⟨(by decide +kernel), (by decide +kernel)⟩, ⟨(by decide +kernel), (by decide +kernel)⟩⟩, (by decide +kernel)⟩,
    ⟨({ withQueue { state := 1, clog := 4, accepted := some 5 } with cmds := [(5, { cmdOf 1 with phase := 0, waitPassed := false, watched := true })] }), 8, 5, ({ cmdOf 1 with phase := 0, waitPassed := false, watched := true }), ⟨⟨(by decide +kernel), (by decide +kernel)⟩, ⟨(by decide +kernel), (by decide +kernel)⟩⟩, (by decide +kernel), (by decide +kernel), (by decide +kernel), (by decide +kernel), (by decide +kernel)⟩,
    ⟨({ withQueue { state := 1, clog := 4, accepted := some 5 } with cmds := [(5, { cmdOf 1 with phase := 0, waitPassed := false })] }), 8, 5, ({ cmdOf 1 with phase := 0, waitPassed := false }), ⟨⟨(by decide +kernel), (by decide +kernel)⟩, ⟨(by decide +kernel), (by decide +kernel)⟩⟩, (by decide +kernel), (by decide +kernel), (by decide +kernel), (by decide +kernel), (by decide +kernel)⟩,
    ⟨({ withQueue { state := 1, clog := 4, accepted := some 5 } with cmds := [(5, { cmdOf 1 with phase := 0, waitPassed := false })] }), 8, 5, ({ cmdOf 1 with phase := 0, waitPassed := false }), (by decide +kernel), (by decide +kernel), (by decide +kernel)⟩,
    ⟨({ withQueue { state := 1, clog := 4, accepted := some 5 } with cmds := [(5, { cmdOf 1 with phase := 0, waitPassed := false })] }), 8, 5, ({ cmdOf 1 with phase := 0, waitPassed := false }), (⟨.ok, 0, List.replicate 128 0#8⟩), (by decide +kernel), (by decide +kernel), (by decide +kernel), (by decide +kernel)⟩,
    ⟨({ withQueue { state := 1, clog := 4, accepted := some 5 } with cmds := [(5, { cmdOf 1 with phase := 0, waitPassed := false })] }), 8, 5, ({ cmdOf 1 with phase := 0, waitPassed := false }), (⟨.timeout, 5, []⟩), (by decide +kernel), (by decide +kernel), (by decide +kernel), (by decide +kernel)⟩⟩

theorem witness_ContextsAndTheirResets :
    (∃ (s : State) (m : Mgmt) (n : Nat) (b : Bytes), (granted s m (ctxEntry n).1 (ctxEntry n).2 b) ∧ (n < s.cfg.contexts) ∧ ((s.ctx n).state = 0) ∧ (bits (leNat b) 1 0 = 1) ∧ ((s.partn (bits (leNat b) 7 2)).state = 3)) ∧
    (∃ (s : State) (m : Mgmt) (n : Nat) (b : Bytes), (granted s m (ctxEntry n).1 (ctxEntry n).2 b) ∧ (n < s.cfg.contexts) ∧ ((s.ctx n).state = 0) ∧ (bits (leNat b) 1 0 = 1) ∧ ((s.partn (bits (leNat b) 7 2)).state = 0)) ∧
    (∃ (s : State) (m : Mgmt) (n : Nat) (b : Bytes), (granted s m (ctxEntry n).1 (ctxEntry n).2 b) ∧ (n < s.cfg.contexts) ∧ ((s.ctx n).state = 0) ∧ (bits (leNat b) 1 0 = 1) ∧ ((s.partn (bits (leNat b) 7 2)).state ≠ 3) ∧ (¬ (bits (leNat b) 52 40 ≠ 0 ∧ bits (leNat b) 52 40 ≤ 4096 ∧ (s.partn (bits (leNat b) 7 2)).qbase ≤ bits (leNat b) 39 22 ∧ bits (leNat b) 39 22 + bits (leNat b) 52 40 ≤ (s.partn (bits (leNat b) 7 2)).qbase + (s.partn (bits (leNat b) 7 2)).qcount ∧ bits (leNat b) 13 8 ≤ 44 ∧ ∀ kv ∈ s.ctxs, kv.2.state ≠ 0 → ¬ (kv.2.qbase < bits (leNat b) 39 22 + bits (leNat b) 52 40 ∧ bits (leNat b) 39 22 < kv.2.qbase + kv.2.qcount)))) ∧
    (∃ (s : State) (m : Mgmt) (n : Nat) (b : Bytes), (granted s m (ctxEntry n).1 (ctxEntry n).2 b) ∧ (n < s.cfg.contexts) ∧ ((s.ctx n).state = 0) ∧ (bits (leNat b) 1 0 = 1) ∧ ((s.partn (bits (leNat b) 7 2)).state ≠ 0) ∧ ((s.partn (bits (leNat b) 7 2)).state ≠ 3) ∧ ((bits (leNat b) 52 40 ≠ 0 ∧ bits (leNat b) 52 40 ≤ 4096 ∧ (s.partn (bits (leNat b) 7 2)).qbase ≤ bits (leNat b) 39 22 ∧ bits (leNat b) 39 22 + bits (leNat b) 52 40 ≤ (s.partn (bits (leNat b) 7 2)).qbase + (s.partn (bits (leNat b) 7 2)).qcount ∧ bits (leNat b) 13 8 ≤ 44 ∧ ∀ kv ∈ s.ctxs, kv.2.state ≠ 0 → ¬ (kv.2.qbase < bits (leNat b) 39 22 + bits (leNat b) 52 40 ∧ bits (leNat b) 39 22 < kv.2.qbase + kv.2.qcount))) ∧ (¬ (((s.partn (bits (leNat b) 7 2)).auMask ≠ 0 → s.scratchHeld (bits (leNat b) 7 2) + bits (leNat b) 13 8 ≤ s.setting 0x2120 3) ∧ ((s.partn (bits (leNat b) 7 2)).mode = 1 → bits (leNat b) 13 8 = 0 ∨ s.scratchHeld (bits (leNat b) 7 2) = 0)))) ∧
    (∃ (s : State) (m : Mgmt) (n : Nat) (b : Bytes), (granted s m (ctxEntry n).1 (ctxEntry n).2 b) ∧ (n < s.cfg.contexts) ∧ ((s.ctx n).state = 0) ∧ (bits (leNat b) 1 0 = 1) ∧ ((s.partn (bits (leNat b) 7 2)).state ≠ 0) ∧ ((s.partn (bits (leNat b) 7 2)).state ≠ 3) ∧ ((bits (leNat b) 52 40 ≠ 0 ∧ bits (leNat b) 52 40 ≤ 4096 ∧ (s.partn (bits (leNat b) 7 2)).qbase ≤ bits (leNat b) 39 22 ∧ bits (leNat b) 39 22 + bits (leNat b) 52 40 ≤ (s.partn (bits (leNat b) 7 2)).qbase + (s.partn (bits (leNat b) 7 2)).qcount ∧ bits (leNat b) 13 8 ≤ 44 ∧ ∀ kv ∈ s.ctxs, kv.2.state ≠ 0 → ¬ (kv.2.qbase < bits (leNat b) 39 22 + bits (leNat b) 52 40 ∧ bits (leNat b) 39 22 < kv.2.qbase + kv.2.qcount))) ∧ ((((s.partn (bits (leNat b) 7 2)).auMask ≠ 0 → s.scratchHeld (bits (leNat b) 7 2) + bits (leNat b) 13 8 ≤ s.setting 0x2120 3) ∧ ((s.partn (bits (leNat b) 7 2)).mode = 1 → bits (leNat b) 13 8 = 0 ∨ s.scratchHeld (bits (leNat b) 7 2) = 0)))) ∧
    (∃ (s : State) (m : Mgmt) (n : Nat) (b : Bytes) (i : _), (granted s m (ctxEntry n).1 (ctxEntry n).2 b) ∧ (n < s.cfg.contexts) ∧ ((s.ctx n).state ≠ 0) ∧ ((s.ctx n).destroying = false) ∧ (i ∈ [Instr.contextUpdate m n b, .contextCreate m n b, .contextDestroy m n b]) ∧ (bits (leNat b) 1 0 = 1) ∧ ((bits (leNat b) 7 2 = (s.ctx n).part ∧ bits (leNat b) 13 8 = (s.ctx n).scratch ∧ bits (leNat b) 39 22 = (s.ctx n).qbase ∧ bits (leNat b) 52 40 = (s.ctx n).qcount))) ∧
    (∃ (s : State) (m : Mgmt) (n : Nat) (b : Bytes) (i : _), (granted s m (ctxEntry n).1 (ctxEntry n).2 b) ∧ (n < s.cfg.contexts) ∧ ((s.ctx n).state ≠ 0) ∧ ((s.ctx n).destroying = false) ∧ (i ∈ [Instr.contextUpdate m n b, .contextCreate m n b, .contextDestroy m n b]) ∧ (bits (leNat b) 1 0 = 1) ∧ (¬ (bits (leNat b) 7 2 = (s.ctx n).part ∧ bits (leNat b) 13 8 = (s.ctx n).scratch ∧ bits (leNat b) 39 22 = (s.ctx n).qbase ∧ bits (leNat b) 52 40 = (s.ctx n).qcount))) ∧
    (∃ (s : State) (m : Mgmt) (n : Nat) (b : Bytes) (i : _), (granted s m (ctxEntry n).1 (ctxEntry n).2 b) ∧ (n < s.cfg.contexts) ∧ ((s.ctx n).state ≠ 0) ∧ ((s.ctx n).destroying = false) ∧ (i ∈ [Instr.contextUpdate m n b, .contextCreate m n b, .contextDestroy m n b]) ∧ (bits (leNat b) 1 0 = 2) ∧ ((s.ctx n).state = 1)) ∧
    (∃ (s : State) (m : Mgmt) (n : Nat) (b : Bytes) (i : _), (granted s m (ctxEntry n).1 (ctxEntry n).2 b) ∧ (n < s.cfg.contexts) ∧ ((s.ctx n).state ≠ 0) ∧ ((s.ctx n).destroying = false) ∧ (i ∈ [Instr.contextUpdate m n b, .contextCreate m n b, .contextDestroy m n b]) ∧ (bits (leNat b) 1 0 = 0) ∧ ((∃ kv ∈ s.tdis, kv.2.names n = true ∧ (kv.2.state = 1 ∨ kv.2.state = 2)))) ∧
    (∃ (s : State) (m : Mgmt) (n : Nat) (b : Bytes) (i : _), (granted s m (ctxEntry n).1 (ctxEntry n).2 b) ∧ (n < s.cfg.contexts) ∧ ((s.ctx n).state ≠ 0) ∧ ((s.ctx n).destroying = false) ∧ (i ∈ [Instr.contextUpdate m n b, .contextCreate m n b, .contextDestroy m n b]) ∧ (bits (leNat b) 1 0 = 0) ∧ ((∀ kv ∈ s.tdis, kv.2.names n = true → kv.2.state = 0 ∨ kv.2.state = 3))) ∧
    (∃ (s : State) (m : Mgmt) (n : Nat) (b : Bytes) (i : _), (granted s m (ctxEntry n).1 (ctxEntry n).2 b) ∧ (n < s.cfg.contexts) ∧ ((s.ctx n).state ≠ 0) ∧ ((s.ctx n).destroying = false) ∧ (i ∈ [Instr.contextUpdate m n b, .contextCreate m n b, .contextDestroy m n b]) ∧ (bits (leNat b) 1 0 = 3)) ∧
    (∃ (s : State) (n : Nat), (busy s) ∧ ((s.ctx n).resetDue = false)) ∧
    (∃ (s : State) (n : Nat), (busy s) ∧ ((s.ctx n).resetDue = true) ∧ ((s.ctx n).state = 1)) ∧
    (∃ (s : State) (n : Nat), (busy s) ∧ ((s.ctx n).state ≠ 2 ∨ s.resetQuiet n = false)) ∧
    (∃ (s : State) (n : Nat), (busy s) ∧ ((s.ctx n).state = 2) ∧ (s.resetQuiet n = true) ∧ ((s.partn (s.ctx n).part).state ≠ 3) ∧ ((s.ctx n).freeing = false) ∧ ((s.ctx n).resetCmds = []) ∧ ((∀ kv ∈ s.queues, kv.2.heldBells = [])) ∧ ((s.ctx n).destroying = false)) ∧
    (∃ (s : State) (n : Nat), (busy s) ∧ ((s.ctx n).state = 2) ∧ (s.resetQuiet n = true) ∧ ((s.partn (s.ctx n).part).state ≠ 3) ∧ ((s.ctx n).freeing = false) ∧ ((s.ctx n).resetCmds = []) ∧ ((∀ kv ∈ s.queues, kv.2.heldBells = [])) ∧ ((s.ctx n).destroying = true)) ∧
    (∃ (s : State) (n : Nat), (busy s) ∧ ((s.ctx n).state = 2) ∧ (s.resetQuiet n = true) ∧ ((s.partn (s.ctx n).part).state ≠ 3) ∧ ((s.ctx n).freeing = true)) ∧
    (∃ (s : State) (n : Nat), (busy s) ∧ ((s.ctx n).state = 2) ∧ (s.resetQuiet n = true) ∧ ((s.partn (s.ctx n).part).state ≠ 3) ∧ ((s.ctx n).freeing = true) ∧ (s.freesQuiet n = true)) ∧
    (∃ (s : State) (n : Nat), (busy s) ∧ ((s.ctx n).state = 2) ∧ (s.resetQuiet n = true) ∧ ((s.partn (s.ctx n).part).state ≠ 3) ∧ ((s.ctx n).freeing = true) ∧ (s.freesQuiet n = false)) ∧
    (∃ (s : State) (p : Nat), (p < s.cfg.partitions) ∧ (busy s) ∧ ((s.partn p).resetDue = false)) ∧
    (∃ (s : State) (p : Nat), (p < s.cfg.partitions) ∧ (busy s) ∧ ((s.partn p).resetDue = true) ∧ ((s.partn p).state ≠ 0)) ∧
    (∃ (s : State) (p : Nat), (p < s.cfg.partitions) ∧ (busy s) ∧ ((s.partn p).resetting = true) ∧ ((∀ kv ∈ s.ctxs, kv.2.part = p → kv.2.state = 0 ∨ kv.2.state = 1 ∧ kv.2.resetDue = false))) ∧
    (∃ (s : State) (p : Nat), (p < s.cfg.partitions) ∧ (busy s) ∧ ((s.partn p).resetting = false ∨ (∃ kv ∈ s.ctxs, kv.2.part = p ∧ kv.2.state = 2))) :=
  ⟨⟨(withPart { state := 3 } ctx6), ins, 7, (ctxRec 1 1 0 12 4), granted_of (by decide +kernel), (by decide +kernel), (by decide +kernel), (by decide +kernel), (by decide +kernel)⟩,
    ⟨(withPart {} ctx6), ins, 7, (ctxRec 1 1 0 12 4), granted_of (by decide +kernel), (by decide +kernel), (by decide +kernel), (by decide +kernel), (by decide +kernel)⟩,
    ⟨(withPart { state := 1 } ctx6), ins, 7, (ctxRec 1 1 0 10 4), granted_of (by decide +kernel), (by decide +kernel), (by decide +kernel), (by decide +kernel), (by decide +kernel), (by decide +kernel)⟩,
    ⟨(withPart { state := 1, mode := 1, auMask := 1 } { ctx6 with scratch := 44 }), ins, 7, (ctxRec 1 1 44 12 4), granted_of (by decide +kernel), (by decide +kernel), (by decide +kernel), (by decide +kernel), (by decide +kernel), (by decide +kernel), (by decide +kernel), (by decide +kernel)⟩,
    ⟨(withPart { state := 1 } ctx6), ins, 7, (ctxRec 1 1 0 12 4), granted_of (by decide +kernel), (by decide +kernel), (by decide +kernel), (by decide +kernel), (by decide +kernel), (by decide +kernel), (by decide +kernel), (by decide +kernel)⟩,
    ⟨(withPart { state := 1 } ctx6), ins, 6, (ctxRec 1 1 0 8 4), (Instr.contextUpdate ins 6 (ctxRec 1 1 0 8 4)), granted_of (by decide +kernel), (by decide +kernel), (by decide +kernel), (by decide +kernel), by simp, (by decide +kernel), (by decide +kernel)⟩,
    ⟨(withPart { state := 1 } ctx6), ins, 6, (ctxRec 1 1 1 8 4), (Instr.contextCreate ins 6 (ctxRec 1 1 1 8 4)), granted_of (by decide +kernel), (by decide +kernel), (by decide +kernel), (by decide +kernel), by simp, (by decide +kernel), (by decide +kernel)⟩,
    ⟨(withPart { state := 1 } ctx6), ins, 6, (ctxRec 2 1 0 8 4), (Instr.contextUpdate ins 6 (ctxRec 2 1 0 8 4)), granted_of (by decide +kernel), (by decide +kernel), (by decide +kernel), (by decide +kernel), by simp, (by decide +kernel), (by decide +kernel)⟩,
    ⟨({ withPart { state := 1 } ctx6 with tdis := [(3, { state := 2, ctxBase := 6, ctxCount := 1 })] }), ins, 6, (ctxRec 0 1 0 8 4), (Instr.contextDestroy ins 6 (ctxRec 0 1 0 8 4)), granted_of (by decide +kernel), (by decide +kernel), (by decide +kernel), (by decide +kernel), by simp, (by decide +kernel), (by decide +kernel)⟩,
    ⟨(withPart { state := 1 } ctx6), ins, 6, (ctxRec 0 1 0 8 4), (Instr.contextDestroy ins 6 (ctxRec 0 1 0 8 4)), granted_of (by decide +kernel), (by decide +kernel), (by decide +kernel), (by decide +kernel), by simp, (by decide +kernel), (by decide +kernel)⟩,
    ⟨(withPart { state := 1 } ctx6), ins, 6, (ctxRec 3 1 0 8 4), (Instr.contextUpdate ins 6 (ctxRec 3 1 0 8 4)), granted_of (by decide +kernel), (by decide +kernel), (by decide +kernel), (by decide +kernel), by simp, (by decide +kernel)⟩,
    ⟨(withPart {} ctx6), 6, ⟨⟨(by decide +kernel), (by decide +kernel)⟩, ⟨(by decide +kernel), (by decide +kernel)⟩⟩, (by decide +kernel)⟩,
    ⟨(withPart {} { ctx6 with resetDue := true }), 6, ⟨⟨(by decide +kernel), (by decide +kernel)⟩, ⟨(by decide +kernel), (by decide +kernel)⟩⟩, (by decide +kernel), (by decide +kernel)⟩,
    ⟨(withPart {} ctx6), 6, ⟨⟨(by decide +kernel), (by decide +kernel)⟩, ⟨(by decide +kernel), (by decide +kernel)⟩⟩, (by decide +kernel)⟩,
    ⟨(withPart { state := 1 } { ctx6 with state := 2 }), 6, ⟨⟨(by decide +kernel), (by decide +kernel)⟩, ⟨(by decide +kernel), (by decide +kernel)⟩⟩, (by decide +kernel), (by decide +kernel), (by decide +kernel), (by decide +kernel), (by decide +kernel), (by decide +kernel), (by decide +kernel)⟩,
    ⟨(withPart { state := 1 } { ctx6 with state := 2, destroying := true }), 6, ⟨⟨(by decide +kernel), (by decide +kernel)⟩, ⟨(by decide +kernel), (by decide +kernel)⟩⟩, (by decide +kernel), (by decide +kernel), (by decide +kernel), (by decide +kernel), (by decide +kernel), (by decide +kernel), (by decide +kernel)⟩,
    ⟨(withPart { state := 1 } { ctx6 with state := 2, destroying := true, freeing := true }), 6, ⟨⟨(by decide +kernel), (by decide +kernel)⟩, ⟨(by decide +kernel), (by decide +kernel)⟩⟩, (by decide +kernel), (by decide +kernel), (by decide +kernel), (by decide +kernel)⟩,
    ⟨(withPart { state := 1 } { ctx6 with state := 2, destroying := true, freeing := true }), 6, ⟨⟨(by decide +kernel), (by decide +kernel)⟩, ⟨(by decide +kernel), (by decide +kernel)⟩⟩, (by decide +kernel), (by decide +kernel), (by decide +kernel), (by decide +kernel), (by decide +kernel)⟩,
    ⟨({ withPart { state := 1 } { ctx6 with state := 2, destroying := true, freeing := true } with objs := [(0, { pendingFree := true, owner := 6, freeCmd := 9 })], cmds := [(9, { q := 99, ctx := 7 })] }), 6, ⟨⟨(by decide +kernel), (by decide +kernel)⟩, ⟨(by decide +kernel), (by decide +kernel)⟩⟩, (by decide +kernel), (by decide +kernel), (by decide +kernel), (by decide +kernel), (by decide +kernel)⟩,
    ⟨up, 1, (by decide +kernel), ⟨⟨(by decide +kernel), (by decide +kernel)⟩, ⟨(by decide +kernel), (by decide +kernel)⟩⟩, (by decide +kernel)⟩,
    ⟨(withPart { state := 1, resetDue := true } ctx6), 1, (by decide +kernel), ⟨⟨(by decide +kernel), (by decide +kernel)⟩, ⟨(by decide +kernel), (by decide +kernel)⟩⟩, (by decide +kernel), (by decide +kernel)⟩,
    ⟨(withPart { state := 1, resetting := true } ctx6), 1, (by decide +kernel), ⟨⟨(by decide +kernel), (by decide +kernel)⟩, ⟨(by decide +kernel), (by decide +kernel)⟩⟩, (by decide +kernel), (by decide +kernel)⟩,
    ⟨(withPart { state := 1, resetting := true } { ctx6 with state := 2 }), 1, (by decide +kernel), ⟨⟨(by decide +kernel), (by decide +kernel)⟩, ⟨(by decide +kernel), (by decide +kernel)⟩⟩, (by decide +kernel)⟩⟩

theorem witness_Translation :
    (∃ (s : State) (m : Mgmt) (p : Nat) (b : Bytes), (granted s m 0x5110 (p + 1) b) ∧ (p < s.cfg.partitions) ∧ (¬ ((∀ kv ∈ s.ctxs, kv.2.part = p → kv.2.state ≠ 1) ∧ (s.transOf p).zeroing = false))) ∧
    (∃ (s : State) (m : Mgmt) (p : Nat) (b : Bytes), (granted s m 0x5110 (p + 1) b) ∧ (p < s.cfg.partitions) ∧ (((∀ kv ∈ s.ctxs, kv.2.part = p → kv.2.state ≠ 1) ∧ (s.transOf p).zeroing = false)) ∧ (¬ (bits (leNat b) 34 16 ≠ 0 ∧ bits (leNat b) 34 16 ≤ 2 ^ 18 ∧ (tblGet (s.port (bits (leNat b) 2 0)).regions (bits (leNat b) 15 8) {}).part = p ∧ (tblGet (s.port (bits (leNat b) 2 0)).regions (bits (leNat b) 15 8) {}).kind = 3 ∧ ((tblGet (s.port (bits (leNat b) 2 0)).regions (bits (leNat b) 15 8) {}).state = 2 ∨ (tblGet (s.port (bits (leNat b) 2 0)).regions (bits (leNat b) 15 8) {}).state = 3) ∧ bits (leNat b) 34 16 * 2 ^ 12 ≤ (tblGet (s.port (bits (leNat b) 2 0)).regions (bits (leNat b) 15 8) {}).pages * 2 ^ 14))) ∧
    (∃ (s : State) (m : Mgmt) (p : Nat) (b : Bytes), (granted s m 0x5110 (p + 1) b) ∧ (p < s.cfg.partitions) ∧ (((∀ kv ∈ s.ctxs, kv.2.part = p → kv.2.state ≠ 1) ∧ (s.transOf p).zeroing = false)) ∧ ((bits (leNat b) 34 16 ≠ 0 ∧ bits (leNat b) 34 16 ≤ 2 ^ 18 ∧ (tblGet (s.port (bits (leNat b) 2 0)).regions (bits (leNat b) 15 8) {}).part = p ∧ (tblGet (s.port (bits (leNat b) 2 0)).regions (bits (leNat b) 15 8) {}).kind = 3 ∧ ((tblGet (s.port (bits (leNat b) 2 0)).regions (bits (leNat b) 15 8) {}).state = 2 ∨ (tblGet (s.port (bits (leNat b) 2 0)).regions (bits (leNat b) 15 8) {}).state = 3) ∧ bits (leNat b) 34 16 * 2 ^ 12 ≤ (tblGet (s.port (bits (leNat b) 2 0)).regions (bits (leNat b) 15 8) {}).pages * 2 ^ 14))) ∧
    (∃ (s : State), (calm s) ∧ (s.fclk = false)) ∧
    (∃ (s : State) (p : Nat), (calm s) ∧ (s.fclk = false) ∧ (p < s.cfg.partitions)) ∧
    (∃ (s : State) (p : Nat), (p < s.cfg.partitions) ∧ (calm s) ∧ (s.fclk = true) ∧ ((s.transOf p).zeroing = true) ∧ ((s.transOf p).outstanding = 0) ∧ (32 * (s.transOf p).dsize ≤ (s.transOf p).cursor)) ∧
    (∃ (s : State) (p : Nat), (p < s.cfg.partitions) ∧ (calm s) ∧ (s.fclk = true) ∧ ((s.transOf p).zeroing = false ∨ (s.transOf p).outstanding ≠ 0)) ∧
    (∃ (s : State) (m : Mgmt) (b : Bytes) (i : _), (granted s m 0x5120 1 b) ∧ (i ∈ [Instr.map m b, .unmap m b]) ∧ ((s.transOf (bits (leNat b) 5 0)).enable = false ∨ s.mapJob.status = 1)) ∧
    (∃ (s : State) (m : Mgmt) (b : Bytes) (i : _), (granted s m 0x5120 1 b) ∧ (i ∈ [Instr.map m b, .unmap m b]) ∧ ((s.transOf (bits (leNat b) 5 0)).enable = true) ∧ (s.mapJob.status ≠ 1) ∧ (¬ ((bits (leNat b) 7 6 = 1 ∧ (leNat b).testBit 64 = true ∨ bits (leNat b) 7 6 = 2) ∧ bits (leNat b) 42 16 + bits (leNat b) 15 8 < (s.transOf (bits (leNat b) 5 0)).dsize * 512))) ∧
    (∃ (s : State) (m : Mgmt) (b : Bytes) (i : _), (granted s m 0x5120 1 b) ∧ (i ∈ [Instr.map m b, .unmap m b]) ∧ ((s.transOf (bits (leNat b) 5 0)).enable = true) ∧ (s.mapJob.status ≠ 1) ∧ (((bits (leNat b) 7 6 = 1 ∧ (leNat b).testBit 64 = true ∨ bits (leNat b) 7 6 = 2) ∧ bits (leNat b) 42 16 + bits (leNat b) 15 8 < (s.transOf (bits (leNat b) 5 0)).dsize * 512))) ∧
    (∃ (s : State), (calm s) ∧ (s.fclk = true) ∧ (s.mapJob.status = 1) ∧ (s.mapJob.waiting = true) ∧ (s.partInFlight (bits s.mapJob.record 5 0) = false)) ∧
    (∃ (s : State), (calm s) ∧ (s.fclk = true) ∧ (s.mapJob.status ≠ 1 ∨ s.mapJob.waiting = false ∨ s.partInFlight (bits s.mapJob.record 5 0) = true)) ∧
    (∃ (s : State), (busy s) ∧ ((∃ w ∈ s.walks, (fun (w : Walk) => w.issued = false ∧ w.line = none ∧ s.walksOut (fun v => decide (v.buf * 64 + v.part = w.buf * 64 + w.part)) < 32) w)) ∧ (s.walksOut (fun _ => true) < 1024)) ∧
    (∃ (s : State), (busy s) ∧ ((∀ w ∈ s.walks, ¬ (fun (w : Walk) => w.issued = false ∧ w.line = none ∧ s.walksOut (fun v => decide (v.buf * 64 + v.part = w.buf * 64 + w.part)) < 32) w))) ∧
    (∃ (s : State) (p : Nat) (page : Nat), (p < s.cfg.partitions) ∧ (busy s) ∧ ((s.walks.find? fun w => w.part = p && w.page = page) = none)) ∧
    (∃ (s : State) (p : Nat) (page : Nat) (w : _), (p < s.cfg.partitions) ∧ (busy s) ∧ ((s.walks.find? fun w => w.part = p && w.page = page) = some w) ∧ (w.line = none)) ∧
    (∃ (s : State) (p : Nat) (page : Nat) (w : _) (r : _), (p < s.cfg.partitions) ∧ (busy s) ∧ ((s.walks.find? fun w => w.part = p && w.page = page) = some w) ∧ (w.line = some r) ∧ (w.again = true)) ∧
    (∃ (s : State) (p : Nat) (page : Nat) (w : _) (r : _), (p < s.cfg.partitions) ∧ (busy s) ∧ ((s.walks.find? fun w => w.part = p && w.page = page) = some w) ∧ (w.line = some r) ∧ (w.again = false) ∧ ((∀ y ∈ w.waiting, y.part = p ∧ y.dev / 2 ^ 21 = page)) ∧ (r.code ≠ .ok)) ∧
    (∃ (s : State) (p : Nat) (page : Nat) (w : _) (r : _), (p < s.cfg.partitions) ∧ (busy s) ∧ ((s.walks.find? fun w => w.part = p && w.page = page) = some w) ∧ (w.line = some r) ∧ (w.again = false) ∧ ((∀ y ∈ w.waiting, y.part = p ∧ y.dev / 2 ^ 21 = page)) ∧ (r.code = .ok)) :=
  ⟨⟨({ withTrans {} with ctxs := [(6, ctx6)] }), ins, 1, (transRec 8), granted_of (by decide +kernel), (by decide +kernel), (by decide +kernel)⟩,
    ⟨(withTrans {}), ins, 1, (transRec 9), granted_of (by decide +kernel), (by decide +kernel), (by decide +kernel), (by decide +kernel)⟩,
    ⟨(withTrans {}), ins, 1, (transRec 8), granted_of (by decide +kernel), (by decide +kernel), (by decide +kernel), (by decide +kernel)⟩,
    ⟨({ up with power := { state := 3 } }), ⟨(by decide +kernel), (by decide +kernel)⟩, (by decide +kernel)⟩,
    ⟨({ up with power := { state := 3 } }), 1, ⟨(by decide +kernel), (by decide +kernel)⟩, (by decide +kernel), (by decide +kernel)⟩,
    ⟨(withTrans { zeroing := true, dsize := 8, cursor := 256 }), 1, (by decide +kernel), ⟨(by decide +kernel), (by decide +kernel)⟩, (by decide +kernel), (by decide +kernel), (by decide +kernel), (by decide +kernel)⟩,
    ⟨(withTrans {}), 1, (by decide +kernel), ⟨(by decide +kernel), (by decide +kernel)⟩, (by decide +kernel), (by decide +kernel)⟩,
    ⟨(withTrans {}), ins, (mapRec 1 1), (Instr.map ins (mapRec 1 1)), granted_of (by decide +kernel), by simp, (by decide +kernel)⟩,
    ⟨(withTrans { enable := true, dsize := 8, region := 1 }), ins, (mapRec 0 1), (Instr.unmap ins (mapRec 0 1)), granted_of (by decide +kernel), by simp, (by decide +kernel), (by decide +kernel), (by decide +kernel)⟩,
    ⟨(withTrans { enable := true, dsize := 8, region := 1 }), ins, (mapRec 1 1), (Instr.map ins (mapRec 1 1)), granted_of (by decide +kernel), by simp, (by decide +kernel), (by decide +kernel), (by decide +kernel)⟩,
    ⟨({ up with mapJob := { record := 1, status := 1, waiting := true } }), ⟨(by decide +kernel), (by decide +kernel)⟩, (by decide +kernel), (by decide +kernel), (by decide +kernel), (by decide +kernel)⟩,
    ⟨up, ⟨(by decide +kernel), (by decide +kernel)⟩, (by decide +kernel), (by decide +kernel)⟩,
    ⟨(withWalk (walkOf none)), ⟨⟨(by decide +kernel), (by decide +kernel)⟩, ⟨(by decide +kernel), (by decide +kernel)⟩⟩, (by decide +kernel), (by decide +kernel)⟩,
    ⟨up, ⟨⟨(by decide +kernel), (by decide +kernel)⟩, ⟨(by decide +kernel), (by decide +kernel)⟩⟩, (by decide +kernel)⟩,
    ⟨up, 1, 2, (by decide +kernel), ⟨⟨(by decide +kernel), (by decide +kernel)⟩, ⟨(by decide +kernel), (by decide +kernel)⟩⟩, (by decide +kernel)⟩,
    ⟨(withWalk (walkOf none)), 1, 2, (walkOf none), (by decide +kernel), ⟨⟨(by decide +kernel), (by decide +kernel)⟩, ⟨(by decide +kernel), (by decide +kernel)⟩⟩, (by decide +kernel), (by decide +kernel)⟩,
    ⟨(withWalk { walkOf (some ⟨.ok, 0, []⟩) with again := true }), 1, 2, ({ walkOf (some ⟨.ok, 0, []⟩) with again := true }), ((⟨.ok, 0, []⟩ : Result)), (by decide +kernel), ⟨⟨(by decide +kernel), (by decide +kernel)⟩, ⟨(by decide +kernel), (by decide +kernel)⟩⟩, (by decide +kernel), (by decide +kernel), (by decide +kernel)⟩,
    ⟨(withWalk (walkOf (some ⟨.timeout, 0x1005, []⟩))), 1, 2, (walkOf (some ⟨.timeout, 0x1005, []⟩)), ((⟨.timeout, 0x1005, []⟩ : Result)), (by decide +kernel), ⟨⟨(by decide +kernel), (by decide +kernel)⟩, ⟨(by decide +kernel), (by decide +kernel)⟩⟩, (by decide +kernel), (by decide +kernel), (by decide +kernel), (by decide +kernel), (by decide +kernel)⟩,
    ⟨(withWalk (walkOf (some ⟨.ok, 0, []⟩))), 1, 2, (walkOf (some ⟨.ok, 0, []⟩)), ((⟨.ok, 0, []⟩ : Result)), (by decide +kernel), ⟨⟨(by decide +kernel), (by decide +kernel)⟩, ⟨(by decide +kernel), (by decide +kernel)⟩⟩, (by decide +kernel), (by decide +kernel), (by decide +kernel), (by decide +kernel), (by decide +kernel)⟩⟩

theorem witness_PartitionLifetime :
    (∃ (s : State) (m : Mgmt) (p : Nat) (b : Bytes), (s.cfg.legal = true) ∧ (granted s m 0x5200 (p + 1) b) ∧ (p < s.cfg.partitions) ∧ ((s.partn p).state = 0) ∧ (bits (leNat b) 2 0 = 1) ∧ (s.partShape (leNat b) = true)) ∧
    (∃ (s : State) (m : Mgmt) (p : Nat) (b : Bytes), (s.cfg.legal = true) ∧ (granted s m 0x5200 (p + 1) b) ∧ (p < s.cfg.partitions) ∧ ((s.partn p).state = 0) ∧ (bits (leNat b) 2 0 = 1) ∧ (s.partShape (leNat b) = false) ∧ (s.bring.member = false ∨ s.life.debug = 4)) ∧
    (∃ (s : State) (m : Mgmt) (p : Nat) (b : Bytes), (s.cfg.legal = true) ∧ (granted s m 0x5200 (p + 1) b) ∧ (p < s.cfg.partitions) ∧ ((s.partn p).state = 0) ∧ (bits (leNat b) 2 0 = 1) ∧ (s.partShape (leNat b) = false) ∧ (s.bring.member = true) ∧ (s.life.debug ≠ 4) ∧ (bits (leNat b) 127 96 < 2 ^ 32 - 1) ∧ (bits (leNat b) 127 96 < (s.slot (partSlot p)).gen ∨ s.partQueues p (leNat b) = true)) ∧
    (∃ (s : State) (m : Mgmt) (p : Nat) (b : Bytes), (s.cfg.legal = true) ∧ (granted s m 0x5200 (p + 1) b) ∧ (p < s.cfg.partitions) ∧ ((s.partn p).state = 0) ∧ (bits (leNat b) 2 0 = 1) ∧ (s.partShape (leNat b) = false) ∧ (s.bring.member = true) ∧ (s.life.debug ≠ 4) ∧ (bits (leNat b) 127 96 < 2 ^ 32 - 1) ∧ ((s.slot (partSlot p)).gen ≤ bits (leNat b) 127 96) ∧ (s.partQueues p (leNat b) = false) ∧ (s.partAus p (leNat b) = true ∨ s.partStaging p (leNat b) = true)) ∧
    (∃ (s : State) (m : Mgmt) (p : Nat) (b : Bytes), (s.cfg.legal = true) ∧ (granted s m 0x5200 (p + 1) b) ∧ (p < s.cfg.partitions) ∧ ((s.partn p).state = 0) ∧ (bits (leNat b) 2 0 = 1) ∧ (s.partShape (leNat b) = false) ∧ (s.bring.member = true) ∧ (s.life.debug ≠ 4) ∧ (bits (leNat b) 127 96 < 2 ^ 32 - 1) ∧ ((s.slot (partSlot p)).gen ≤ bits (leNat b) 127 96) ∧ (s.partQueues p (leNat b) = false) ∧ (s.partAus p (leNat b) = false) ∧ (s.partStaging p (leNat b) = false) ∧ ((s.slot (partSlot p)).state = 0) ∧ (s.usable domainSlot = true) ∧ (s.fertile domainSlot = true)) ∧
    (∃ (s : State) (m : Mgmt) (p : Nat) (b : Bytes), (granted s m 0x5200 (p + 1) b) ∧ (p < s.cfg.partitions) ∧ ((s.partn p).state = 2) ∧ (bits (leNat b) 2 0 = 1)) ∧
    (∃ (s : State) (m : Mgmt) (p : Nat) (b : Bytes), (granted s m 0x5200 (p + 1) b) ∧ (p < s.cfg.partitions) ∧ ((s.partn p).state = 3) ∧ (bits (leNat b) 2 0 ≤ 3)) ∧
    (∃ (s : State) (m : Mgmt) (p : Nat) (b : Bytes), (granted s m 0x5200 (p + 1) b) ∧ (p < s.cfg.partitions) ∧ ((s.partn p).state = 0) ∧ (bits (leNat b) 2 0 = 0)) ∧
    (∃ (s : State) (m : Mgmt) (p : Nat) (b : Bytes), (granted s m 0x5200 (p + 1) b) ∧ (p < s.cfg.partitions) ∧ ((s.partn p).state = 1) ∧ (bits (leNat b) 2 0 = 1) ∧ (¬ (bits (leNat b) 3 3 = (s.partn p).mode ∧ bits (leNat b) 25 8 = (s.partn p).qbase ∧ bits (leNat b) 127 96 = (s.partn p).kgen ∧ bits (leNat b) 159 128 = (s.partn p).job))) ∧
    (∃ (s : State) (m : Mgmt) (p : Nat) (b : Bytes), (granted s m 0x5200 (p + 1) b) ∧ (p < s.cfg.partitions) ∧ ((s.partn p).state = 1) ∧ (bits (leNat b) 2 0 = 1) ∧ ((bits (leNat b) 3 3 = (s.partn p).mode ∧ bits (leNat b) 25 8 = (s.partn p).qbase ∧ bits (leNat b) 127 96 = (s.partn p).kgen ∧ bits (leNat b) 159 128 = (s.partn p).job)) ∧ (s.partShape (leNat b) = true ∨ s.partQueues p (leNat b) = true)) ∧
    (∃ (s : State) (m : Mgmt) (p : Nat) (b : Bytes), (granted s m 0x5200 (p + 1) b) ∧ (p < s.cfg.partitions) ∧ ((s.partn p).state = 1) ∧ (bits (leNat b) 2 0 = 1) ∧ ((bits (leNat b) 3 3 = (s.partn p).mode ∧ bits (leNat b) 25 8 = (s.partn p).qbase ∧ bits (leNat b) 127 96 = (s.partn p).kgen ∧ bits (leNat b) 159 128 = (s.partn p).job)) ∧ (s.partShape (leNat b) = false) ∧ (s.partQueues p (leNat b) = false) ∧ (s.partAus p (leNat b) = false) ∧ (s.partStaging p (leNat b) = false) ∧ ((s.partn p).stagingUsed ≤ bits (leNat b) 88 80 * 2 ^ 16) ∧ (bits (leNat b) 79 48 ≠ 0) ∧ ((∀ kv ∈ s.ctxs, kv.2.state ≠ 0 → kv.2.part = p → kv.2.qbase + kv.2.qcount ≤ (s.partn p).qbase + bits (leNat b) 44 26))) ∧
    (∃ (s : State) (p : Nat), (p < s.cfg.partitions) ∧ (busy s) ∧ ((s.partn p).state = 2) ∧ ((∀ a ∈ s.leavingAus p, s.auBusy a = false))) ∧
    (∃ (s : State) (p : Nat), (p < s.cfg.partitions) ∧ (busy s) ∧ ((s.partn p).state ≠ 2 ∨ (∃ a ∈ s.leavingAus p, s.auBusy a = true))) ∧
    (∃ (s : State) (m : Mgmt) (p : Nat) (b : Bytes), (granted s m 0x5200 (p + 1) b) ∧ (p < s.cfg.partitions) ∧ (bits (leNat b) 2 0 = 0) ∧ (((s.partn p).state = 1 ∨ (s.partn p).state = 2))) ∧
    (∃ (s : State) (p : Nat), (p < s.cfg.partitions) ∧ (busy s) ∧ ((s.partn p).state = 3) ∧ ((s.partn p).step = 8)) ∧
    (∃ (s : State) (p : Nat), (p < s.cfg.partitions) ∧ (busy s) ∧ ((s.partn p).state = 3) ∧ ((s.partn p).step = 5) ∧ (s.partQuiet p = true)) ∧
    (∃ (s : State) (p : Nat), (p < s.cfg.partitions) ∧ (busy s) ∧ ((s.partn p).state ≠ 3 ∨ (s.partn p).step = 5 ∧ s.partQuiet p = false)) ∧
    (∃ (s : State) (m : Mgmt) (i : Nat) (p : Nat) (v : Nat), (i < 44) ∧ (granted s m (0x5210 + i) (p + 1) (leBytes 4 v)) ∧ ((s.hasRegulated i = false ∨ s.cfg.partitions ≤ p ∨ 900 < bits v 15 0 ∨ bits v 23 16 = 0))) ∧
    (∃ (s : State) (m : Mgmt) (i : Nat) (p : Nat) (v : Nat), (i < 44) ∧ (granted s m (0x5210 + i) (p + 1) (leBytes 4 v)) ∧ (¬ (s.hasRegulated i = false ∨ s.cfg.partitions ≤ p ∨ 900 < bits v 15 0 ∨ bits v 23 16 = 0)) ∧ (9 * s.capacity i < 10 * (s.setSetting (0x5210 + i) (p + 1) (v % 2 ^ 24)).minSum i)) ∧
    (∃ (s : State) (m : Mgmt) (i : Nat) (p : Nat) (v : Nat), (i < 44) ∧ (granted s m (0x5210 + i) (p + 1) (leBytes 4 v)) ∧ (¬ (s.hasRegulated i = false ∨ s.cfg.partitions ≤ p ∨ 900 < bits v 15 0 ∨ bits v 23 16 = 0)) ∧ (10 * (s.setSetting (0x5210 + i) (p + 1) (v % 2 ^ 24)).minSum i ≤ 9 * s.capacity i)) :=
  ⟨⟨(withOwner owner), ins, 2, (partRec 1 128 1 2 0), (by decide +kernel), granted_of (by decide +kernel), (by decide +kernel), (by decide +kernel), (by decide +kernel), (by decide +kernel)⟩,
    ⟨({ withOwner owner with bring := { up.bring with member := false } }), ins, 2, (partRec 1 128 64 2 0), (by decide +kernel), granted_of (by decide +kernel), (by decide +kernel), (by decide +kernel), (by decide +kernel), (by decide +kernel), (by decide +kernel)⟩,
    ⟨(withOwner owner), ins, 2, (partRec 1 64 64 2 0), (by decide +kernel), granted_of (by decide +kernel), (by decide +kernel), (by decide +kernel), (by decide +kernel), (by decide +kernel), (by decide +kernel), (by decide +kernel), (by decide +kernel), (by decide +kernel)⟩,
    ⟨(withOwner owner), ins, 2, (partRec 1 128 64 1 0), (by decide +kernel), granted_of (by decide +kernel), (by decide +kernel), (by decide +kernel), (by decide +kernel), (by decide +kernel), (by decide +kernel), (by decide +kernel), (by decide +kernel), (by decide +kernel), (by decide +kernel), (by decide +kernel)⟩,
    ⟨(withOwner owner), ins, 2, (partRec 1 128 64 2 0), (by decide +kernel), granted_of (by decide +kernel), (by decide +kernel), (by decide +kernel), (by decide +kernel), (by decide +kernel), (by decide +kernel), (by decide +kernel), (by decide +kernel), (by decide +kernel), (by decide +kernel), (by decide +kernel), (by decide +kernel), (by decide +kernel), (by decide +kernel), (by decide +kernel)⟩,
    ⟨(withOwner { owner with state := 2 }), ins, 1, (partRec 1 64 64 1 0), granted_of (by decide +kernel), (by decide +kernel), (by decide +kernel), (by decide +kernel)⟩,
    ⟨(withOwner { owner with state := 3 }), ins, 1, (partRec 1 64 64 1 0), granted_of (by decide +kernel), (by decide +kernel), (by decide +kernel), (by decide +kernel)⟩,
    ⟨(withOwner { owner with state := 0 }), ins, 1, (partRec 0 64 64 1 0), granted_of (by decide +kernel), (by decide +kernel), (by decide +kernel), (by decide +kernel)⟩,
    ⟨(withOwner { owner with state := 1 }), ins, 1, (partRec 1 128 64 1 0), granted_of (by decide +kernel), (by decide +kernel), (by decide +kernel), (by decide +kernel), (by decide +kernel)⟩,
    ⟨(withOwner { owner with state := 1 }), ins, 1, (partRec 1 64 63 1 0), granted_of (by decide +kernel), (by decide +kernel), (by decide +kernel), (by decide +kernel), (by decide +kernel), (by decide +kernel)⟩,
    ⟨(withOwner { owner with state := 1 }), ins, 1, (partRec 1 64 128 3 0), granted_of (by decide +kernel), (by decide +kernel), (by decide +kernel), (by decide +kernel), (by decide +kernel), (by decide +kernel), (by decide +kernel), (by decide +kernel), (by decide +kernel), (by decide +kernel), (by decide +kernel), (by decide +kernel)⟩,
    ⟨(withOwner { owner with state := 2 }), 1, (by decide +kernel), ⟨⟨(by decide +kernel), (by decide +kernel)⟩, ⟨(by decide +kernel), (by decide +kernel)⟩⟩, (by decide +kernel), (by decide +kernel)⟩,
    ⟨(withOwner owner), 1, (by decide +kernel), ⟨⟨(by decide +kernel), (by decide +kernel)⟩, ⟨(by decide +kernel), (by decide +kernel)⟩⟩, (by decide +kernel)⟩,
    ⟨(withOwner owner), ins, 1, (partRec 0 64 64 1 0), granted_of (by decide +kernel), (by decide +kernel), (by decide +kernel), (by decide +kernel)⟩,
    ⟨(withOwner { owner with state := 3, step := 8 }), 1, (by decide +kernel), ⟨⟨(by decide +kernel), (by decide +kernel)⟩, ⟨(by decide +kernel), (by decide +kernel)⟩⟩, (by decide +kernel), (by decide +kernel)⟩,
    ⟨(withOwner { owner with state := 3, step := 5 }), 1, (by decide +kernel), ⟨⟨(by decide +kernel), (by decide +kernel)⟩, ⟨(by decide +kernel), (by decide +kernel)⟩⟩, (by decide +kernel), (by decide +kernel), (by decide +kernel)⟩,
    ⟨(withOwner owner), 1, (by decide +kernel), ⟨⟨(by decide +kernel), (by decide +kernel)⟩, ⟨(by decide +kernel), (by decide +kernel)⟩⟩, (by decide +kernel)⟩,
    ⟨up, ins, 0, 1, 1, (by decide +kernel), granted_of (by decide +kernel), (by decide +kernel)⟩,
    ⟨({ up with settings := [(ekey 0x5210 3, 2 ^ 16 + 900)] }), ins, 0, 1, (2 ^ 16 + 900), (by decide +kernel), granted_of (by decide +kernel), (by decide +kernel), (by decide +kernel)⟩,
    ⟨up, ins, 40, 1, (2 ^ 16 + 900), (by decide +kernel), granted_of (by decide +kernel), (by decide +kernel), (by decide +kernel)⟩⟩

theorem witness_AttentionAndAppends :
    (∃ (s : State) (id : Nat) (c : Cmd), (working s id 0x21 c) ∧ (c.stage ≠ 3) ∧ (c.has (c.objDev 128 (bits c.desc 191 160)) ((4 * aB c.desc + 7) / 8 * 8) = false)) ∧
    (∃ (s : State) (au : Nat) (id : Nat) (c : Cmd) (h : Shard), (au < s.cfg.aus) ∧ (working s id 0x21 c) ∧ (s.auPick au = some id) ∧ ((s.partn c.part).mode = 1) ∧ ((c.shards.find? fun x => x.au = au && !x.finished) = some h) ∧ (h.pages.length ≤ 65536) ∧ (c.has c.queryRange.1 c.queryRange.2 = true) ∧ ((∀ pg ∈ h.pages, ∀ r ∈ kvRanges (aKv c.desc) (aD c.desc) pg, c.has r.1 r.2 = true))) ∧
    (∃ (s : State) (au : Nat), (au < s.cfg.aus) ∧ (busy s) ∧ (s.auPick au = none)) ∧
    (∃ (s : State) (id : Nat) (c : Cmd) (h : Shard), (working s id 0x21 c) ∧ (c.stage = 3) ∧ (c.shards.find? (fun h => h.finished && !h.merged) = some h) ∧ ((∃ x ∈ c.shards, x ≠ h ∧ ¬ (x.finished = true ∧ x.merged = true)))) ∧
    (∃ (s : State) (id : Nat) (c : Cmd) (h : _), (working s id 0x21 c) ∧ (c.stage = 3) ∧ (aMode c.desc = 0) ∧ (s.portBad c.part (aPort c.desc) = false) ∧ (c.palette.round ≠ 1) ∧ (c.shards = [h]) ∧ (h.finished = true) ∧ (h.merged = false)) ∧
    (∃ (s : State) (id : Nat) (c : Cmd), (working s id 0x21 c) ∧ (c.stage = 3) ∧ (aMode c.desc = 0) ∧ (s.portBad c.part (aPort c.desc) = false) ∧ (c.palette.round ≠ 1) ∧ (c.shards = [])) ∧
    (∃ (s : State) (id : Nat) (c : Cmd), (working s id 0x22 c) ∧ (0 < c.writes)) ∧
    (∃ (s : State) (id : Nat) (c : Cmd), (working s id 0x22 c) ∧ (c.writes = 0) ∧ (c.hasPages [(kPage c.desc, (kvPageSize (kFmt c.desc) (kD c.desc)))] = true) ∧ (s.kvPagePort c (kPage c.desc) (kvPageSize (kFmt c.desc) (kD c.desc)) = none)) ∧
    (∃ (s : State) (id : Nat) (c : Cmd) (m : _), (working s id 0x22 c) ∧ (c.writes = 0) ∧ (c.hasPages [(kPage c.desc, (kvPageSize (kFmt c.desc) (kD c.desc)))] = true) ∧ (s.kvPagePort c (kPage c.desc) (kvPageSize (kFmt c.desc) (kD c.desc)) = some m) ∧ ((s.ctx c.ctx).scratch = 0)) ∧
    (∃ (s : State) (id : Nat) (c : Cmd) (m : _), (working s id 0x22 c) ∧ (c.writes = 0) ∧ (c.hasPages [(kPage c.desc, (kvPageSize (kFmt c.desc) (kD c.desc)))] = true) ∧ (s.kvPagePort c (kPage c.desc) (kvPageSize (kFmt c.desc) (kD c.desc)) = some m) ∧ ((s.ctx c.ctx).scratch ≠ 0) ∧ (c.au = none) ∧ (s.placeOn c.part m s.auPages = none)) ∧
    (∃ (s : State) (id : Nat) (c : Cmd) (m : _) (a : _), (working s id 0x22 c) ∧ (c.writes = 0) ∧ (c.hasPages [(kPage c.desc, (kvPageSize (kFmt c.desc) (kD c.desc)))] = true) ∧ (s.kvPagePort c (kPage c.desc) (kvPageSize (kFmt c.desc) (kD c.desc)) = some m) ∧ ((s.ctx c.ctx).scratch ≠ 0) ∧ (((∃ away, c.au = none ∧ s.placeOn c.part m s.auPages = some (a, away)) ∨ c.au = some a ∧ c.has (c.objDev 64 (bits c.desc 127 96)) (2 * kCount c.desc * rowBytes (kSrc c.desc) (kD c.desc)) = false))) ∧
    (∃ (s : State) (id : Nat) (c : Cmd) (m : _) (a : _), (working s id 0x22 c) ∧ (c.writes = 0) ∧ (c.hasPages [(kPage c.desc, (kvPageSize (kFmt c.desc) (kD c.desc)))] = true) ∧ (s.kvPagePort c (kPage c.desc) (kvPageSize (kFmt c.desc) (kD c.desc)) = some m) ∧ ((s.ctx c.ctx).scratch ≠ 0) ∧ (c.au = some a) ∧ (c.has (c.objDev 64 (bits c.desc 127 96)) (2 * kCount c.desc * rowBytes (kSrc c.desc) (kD c.desc)) = true) ∧ (c.done < kCount c.desc) ∧ (c.desc.testBit 232 = false)) ∧
    (∃ (s : State) (id : Nat) (c : Cmd) (m : _) (a : _), (working s id 0x22 c) ∧ (c.writes = 0) ∧ (c.hasPages [(kPage c.desc, (kvPageSize (kFmt c.desc) (kD c.desc)))] = true) ∧ (s.kvPagePort c (kPage c.desc) (kvPageSize (kFmt c.desc) (kD c.desc)) = some m) ∧ ((s.ctx c.ctx).scratch ≠ 0) ∧ (c.au = some a) ∧ (c.has (c.objDev 64 (bits c.desc 127 96)) (2 * kCount c.desc * rowBytes (kSrc c.desc) (kD c.desc)) = true) ∧ (c.pendingFrames = 0) ∧ (c.acksDue = 0) ∧ (kCount c.desc ≤ c.done)) ∧
    (∃ (s : State) (id : Nat) (e : Nat) (code : Code) (c : Cmd), (busy s) ∧ (tblFind s.cmds id = some c) ∧ (c.phase = 1) ∧ (c.stage ≠ 99) ∧ (c.fail = some (code, e)) ∧ (c.opcode = 0x21)) ∧
    (∃ (s : State) (id : Nat) (e : Nat) (code : Code) (c : Cmd), (busy s) ∧ (tblFind s.cmds id = some c) ∧ (c.phase = 1) ∧ (c.stage ≠ 99) ∧ (c.fail = some (code, e)) ∧ (c.opcode = 0x22)) :=
  ⟨⟨(eng (opAt 0x21 aDesc 0 [])), 5, (opAt 0x21 aDesc 0 []), ⟨⟨⟨(by decide +kernel), (by decide +kernel)⟩, ⟨(by decide +kernel), (by decide +kernel)⟩⟩, (by decide +kernel), (by decide +kernel), (by decide +kernel), (by decide +kernel), (by decide +kernel)⟩, (by decide +kernel), (by decide +kernel)⟩,
    ⟨(eng (aCmd 3 [⟨0, [⟨0, 0, 1, false, 0⟩], false, [], false, false⟩])), 0, 5, (aCmd 3 [⟨0, [⟨0, 0, 1, false, 0⟩], false, [], false, false⟩]), (⟨0, [⟨0, 0, 1, false, 0⟩], false, [], false, false⟩), (by decide +kernel), ⟨⟨⟨(by decide +kernel), (by decide +kernel)⟩, ⟨(by decide +kernel), (by decide +kernel)⟩⟩, (by decide +kernel), (by decide +kernel), (by decide +kernel), (by decide +kernel), (by decide +kernel)⟩, (by decide +kernel), (by decide +kernel), (by decide +kernel), (by decide +kernel), (by decide +kernel), (by decide +kernel)⟩,
    ⟨up, 0, (by decide +kernel), ⟨⟨(by decide +kernel), (by decide +kernel)⟩, ⟨(by decide +kernel), (by decide +kernel)⟩⟩, (by decide +kernel)⟩,
    ⟨(eng (aCmd 3 [⟨0, [], true, [aSoft], true, false⟩, ⟨1, [], true, [aSoft], false, false⟩])), 5, (aCmd 3 [⟨0, [], true, [aSoft], true, false⟩, ⟨1, [], true, [aSoft], false, false⟩]), (⟨0, [], true, [aSoft], true, false⟩), ⟨⟨⟨(by decide +kernel), (by decide +kernel)⟩, ⟨(by decide +kernel), (by decide +kernel)⟩⟩, (by decide +kernel), (by decide +kernel), (by decide +kernel), (by decide +kernel), (by decide +kernel)⟩, (by decide +kernel), (by decide +kernel), (by decide +kernel)⟩,
    ⟨(eng (aCmd 3 [⟨0, [], true, [aSoft], true, false⟩])), 5, (aCmd 3 [⟨0, [], true, [aSoft], true, false⟩]), ((⟨0, [], true, [aSoft], true, false⟩ : Shard)), ⟨⟨⟨(by decide +kernel), (by decide +kernel)⟩, ⟨(by decide +kernel), (by decide +kernel)⟩⟩, (by decide +kernel), (by decide +kernel), (by decide +kernel), (by decide +kernel), (by decide +kernel)⟩, (by decide +kernel), (by decide +kernel), (by decide +kernel), (by decide +kernel), (by decide +kernel), (by decide +kernel), (by decide +kernel)⟩,
    ⟨(eng (aCmd 3 [])), 5, (aCmd 3 []), ⟨⟨⟨(by decide +kernel), (by decide +kernel)⟩, ⟨(by decide +kernel), (by decide +kernel)⟩⟩, (by decide +kernel), (by decide +kernel), (by decide +kernel), (by decide +kernel), (by decide +kernel)⟩, (by decide +kernel), (by decide +kernel), (by decide +kernel), (by decide +kernel), (by decide +kernel)⟩,
    ⟨(engAt 1 ({ kCmd (9 * 2 ^ 48) with writes := 1, au := some 0 })), 5, ({ kCmd (9 * 2 ^ 48) with writes := 1, au := some 0 }), ⟨⟨⟨(by decide +kernel), (by decide +kernel)⟩, ⟨(by decide +kernel), (by decide +kernel)⟩⟩, (by decide +kernel), (by decide +kernel), (by decide +kernel), (by decide +kernel), (by decide +kernel)⟩, (by decide +kernel)⟩,
    ⟨(eng (kCmd 0)), 5, (kCmd 0), ⟨⟨⟨(by decide +kernel), (by decide +kernel)⟩, ⟨(by decide +kernel), (by decide +kernel)⟩⟩, (by decide +kernel), (by decide +kernel), (by decide +kernel), (by decide +kernel), (by decide +kernel)⟩, (by decide +kernel), (by decide +kernel), (by decide +kernel)⟩,
    ⟨({ engAt 1 (kCmd (9 * 2 ^ 48)) with ctxs := [(6, ctx6)] }), 5, (kCmd (9 * 2 ^ 48)), ((0 : Nat)), ⟨⟨⟨(by decide +kernel), (by decide +kernel)⟩, ⟨(by decide +kernel), (by decide +kernel)⟩⟩, (by decide +kernel), (by decide +kernel), (by decide +kernel), (by decide +kernel), (by decide +kernel)⟩, (by decide +kernel), (by decide +kernel), (by decide +kernel), (by decide +kernel)⟩,
    ⟨({ engAt 1 (kCmd (9 * 2 ^ 48)) with auOwner := [] }), 5, (kCmd (9 * 2 ^ 48)), ((0 : Nat)), ⟨⟨⟨(by decide +kernel), (by decide +kernel)⟩, ⟨(by decide +kernel), (by decide +kernel)⟩⟩, (by decide +kernel), (by decide +kernel), (by decide +kernel), (by decide +kernel), (by decide +kernel)⟩, (by decide +kernel), (by decide +kernel), (by decide +kernel), (by decide +kernel), (by decide +kernel), (by decide +kernel)⟩,
    ⟨(engAt 1 (kCmd (9 * 2 ^ 48))), 5, (kCmd (9 * 2 ^ 48)), ((0 : Nat)), ((0 : Nat)), ⟨⟨⟨(by decide +kernel), (by decide +kernel)⟩, ⟨(by decide +kernel), (by decide +kernel)⟩⟩, (by decide +kernel), (by decide +kernel), (by decide +kernel), (by decide +kernel), (by decide +kernel)⟩, (by decide +kernel), (by decide +kernel), (by decide +kernel), (by decide +kernel), .inl ⟨false, rfl, (by decide +kernel)⟩⟩,
    ⟨(engAt 1 ({ kCmd (9 * 2 ^ 48) with au := some 0 })), 5, ({ kCmd (9 * 2 ^ 48) with au := some 0 }), ((0 : Nat)), ((0 : Nat)), ⟨⟨⟨(by decide +kernel), (by decide +kernel)⟩, ⟨(by decide +kernel), (by decide +kernel)⟩⟩, (by decide +kernel), (by decide +kernel), (by decide +kernel), (by decide +kernel), (by decide +kernel)⟩, (by decide +kernel), (by decide +kernel), (by decide +kernel), (by decide +kernel), (by decide +kernel), (by decide +kernel), (by decide +kernel), (by decide +kernel)⟩,
    ⟨(engAt 1 ({ kCmd (9 * 2 ^ 48) with done := 1, au := some 0 })), 5, ({ kCmd (9 * 2 ^ 48) with done := 1, au := some 0 }), ((0 : Nat)), ((0 : Nat)), ⟨⟨⟨(by decide +kernel), (by decide +kernel)⟩, ⟨(by decide +kernel), (by decide +kernel)⟩⟩, (by decide +kernel), (by decide +kernel), (by decide +kernel), (by decide +kernel), (by decide +kernel)⟩, (by decide +kernel), (by decide +kernel), (by decide +kernel), (by decide +kernel), (by decide +kernel), (by decide +kernel), (by decide +kernel), (by decide +kernel), (by decide +kernel)⟩,
    ⟨(eng ({ aCmd 3 [] with fail := some (.timeout, 7) })), 5, 7, .timeout, ({ aCmd 3 [] with fail := some (.timeout, 7) }), ⟨⟨(by decide +kernel), (by decide +kernel)⟩, ⟨(by decide +kernel), (by decide +kernel)⟩⟩, (by decide +kernel), (by decide +kernel), (by decide +kernel), (by decide +kernel), (by decide +kernel)⟩,
    ⟨(eng ({ kCmd 0 with fail := some (.timeout, 7) })), 5, 7, .timeout, ({ kCmd 0 with fail := some (.timeout, 7) }), ⟨⟨(by decide +kernel), (by decide +kernel)⟩, ⟨(by decide +kernel), (by decide +kernel)⟩⟩, (by decide +kernel), (by decide +kernel), (by decide +kernel), (by decide +kernel), (by decide +kernel)⟩⟩

theorem witness_SamplingBridgeAndReduction :
    (∃ (s : State) (id : Nat) (c : Cmd), (working s id 0x23 c) ∧ (c.stage = 0) ∧ (c.writes = 0) ∧ (s.samplePort c.part c.desc ≠ 0)) ∧
    (∃ (s : State) (id : Nat) (c : Cmd), (working s id 0x23 c) ∧ (c.stage = 0) ∧ (c.writes = 0) ∧ (s.samplePort c.part c.desc = 0) ∧ (c.hasPages [c.logitRange, c.mapRange, c.tokenRange] = true) ∧ (s.samplePages c = true)) ∧
    (∃ (s : State) (id : Nat) (c : Cmd), (working s id 0x23 c) ∧ (c.stage = 0) ∧ (c.writes = 0) ∧ (s.samplePort c.part c.desc = 0) ∧ (c.hasPages [c.logitRange, c.mapRange, c.tokenRange] = true) ∧ (s.samplePages c = false)) ∧
    (∃ (s : State) (n : Nat), (n < s.cfg.samplers) ∧ (busy s) ∧ (s.samplerHolds n = none) ∧ ((∀ kv ∈ s.samplerFifo, ∀ id, kv.2.head? = some id → (s.cmd id).stage ≠ 1))) ∧
    (∃ (s : State) (n : Nat) (p : Nat) (id : Nat) (rest : List Nat) (c : Cmd), (n < s.cfg.samplers) ∧ (working s id 0x23 c) ∧ (c.stage = 1) ∧ (s.samplerHolds n = none) ∧ (s.samplerFifo = [(p, id :: rest)]) ∧ (s.samplerFor p = some n) ∧ (s.samplePort c.part c.desc = 0) ∧ (c.has c.logitRange.1 c.logitRange.2 = false)) ∧
    (∃ (s : State) (n : Nat) (id : Nat) (c : Cmd), (n < s.cfg.samplers) ∧ (working s id 0x23 c) ∧ (s.samplerHolds n = some id) ∧ (sGreedy c.desc = true) ∧ ((s.sampler n).out = none) ∧ (c.writes = 0) ∧ (s.samplePort c.part (c.desc) = 0) ∧ (c.has (c.logitRange).1 (c.logitRange).2 = true) ∧ (c.has (c.mapRange).1 (c.mapRange).2 = true) ∧ ((∀ x ∈ ((unpack (if sFmt (c.desc) = 0 then 32 else 16) (sV (c.desc)) (c.bytes (c.logitRange).1 (c.logitRange).2)).zipIdx.map fun x => (scoreStep (c.desc) (sUse (c.desc) && (leNat (c.bytes (c.mapRange).1 (c.mapRange).2)).testBit x.2) (logit32 (sFmt (c.desc)) x.1)).1), (f32 x).special = true))) ∧
    (∃ (s : State) (n : Nat) (id : Nat) (c : Cmd), (n < s.cfg.samplers) ∧ (working s id 0x23 c) ∧ (s.samplerHolds n = some id) ∧ (sGreedy c.desc = true) ∧ ((s.sampler n).out = none) ∧ (c.writes = 0) ∧ (s.samplePort c.part (c.desc) = 0) ∧ (c.has (c.logitRange).1 (c.logitRange).2 = true) ∧ (c.has (c.mapRange).1 (c.mapRange).2 = true) ∧ ((∃ x ∈ ((unpack (if sFmt (c.desc) = 0 then 32 else 16) (sV (c.desc)) (c.bytes (c.logitRange).1 (c.logitRange).2)).zipIdx.map fun x => (scoreStep (c.desc) (sUse (c.desc) && (leNat (c.bytes (c.mapRange).1 (c.mapRange).2)).testBit x.2) (logit32 (sFmt (c.desc)) x.1)).1), (f32 x).special = false)) ∧ (sMode (c.desc) = 1) ∧ (sUpdate (c.desc) = false)) ∧
    (∃ (s : State) (id : Nat) (c : Cmd), (working s id 0x24 c) ∧ (s.portBad c.part (bPort c.desc) = false) ∧ (c.stage = 0) ∧ (c.hasPages ([(c.objDev 64 (bits (c.desc) 127 96), rowBytes (bSrc (c.desc)) (bRows (c.desc) * (bElems (c.desc)))), (c.objDev 64 (bMeta (c.desc)), rowMeta (bSrc (c.desc)) (bRows (c.desc) * (bElems (c.desc))))]) = true) ∧ (s.pagesPass c ([(c.objDev 64 (bits (c.desc) 127 96), rowBytes (bSrc (c.desc)) (bRows (c.desc) * (bElems (c.desc)))), (c.objDev 64 (bMeta (c.desc)), rowMeta (bSrc (c.desc)) (bRows (c.desc) * (bElems (c.desc))))]) (s.pieceMay c.part 2 false) = true)) ∧
    (∃ (s : State) (id : Nat) (c : Cmd), (working s id 0x24 c) ∧ (s.portBad c.part (bPort c.desc) = false) ∧ (c.stage ≠ 0) ∧ (id ∈ (s.chip (bPort (c.desc))).streams) ∧ ((∀ x ∈ (s.chip (bPort (c.desc))).rows, x.cmd ≠ id)) ∧ (bRows (c.desc) ≤ c.done)) ∧
    (∃ (s : State) (id : Nat) (c : Cmd), (working s id 0x24 c) ∧ (s.portBad c.part (bPort c.desc) = false) ∧ (c.stage ≠ 0) ∧ (id ∈ (s.chip (bPort (c.desc))).streams) ∧ ((∀ x ∈ (s.chip (bPort (c.desc))).rows, x.cmd ≠ id)) ∧ (c.done < bRows (c.desc)) ∧ ((c.palette.round ≠ 1 ∨ (bTarget (c.desc) c.palette) = (bSrc (c.desc)))) ∧ (c.has (c.streamRow c.done).1.1 (c.streamRow c.done).1.2 = true) ∧ (c.has (c.streamRow c.done).2.1 (c.streamRow c.done).2.2 = true)) ∧
    (∃ (s : State) (c : Nat) (x : LaneItem) (rest : List LaneItem), (c < s.cfg.chipPorts) ∧ (busy s) ∧ ((s.chip c).state = 4) ∧ ((s.chip c).standby = 0) ∧ ((s.chip c).deliveries = x :: rest) ∧ (((s.chip c).ran < s.setting 0x2230 1 ∨ (s.chip c).streamTurn = none))) ∧
    (∃ (s : State) (id : Nat) (c : Cmd), (working s id 0x25 c) ∧ (s.early = []) ∧ (c.stage = 0) ∧ (c.writes = 0) ∧ (c.hasPages ((if rMode (c.desc) = 0 then [(c.objDev 128 (bits (c.desc) 191 160), rOutBytes (c.desc))] else []) ++ ((List.range (rLocal (c.desc))).flatMap fun i => [(c.operandRanges i).1, (c.operandRanges i).2])) = true) ∧ (s.pagesPass c (if rMode (c.desc) = 0 then [(c.objDev 128 (bits (c.desc) 191 160), rOutBytes (c.desc))] else []) (s.pieceMay c.part 3 true) = true) ∧ (s.pagesPass c ((List.range (rLocal (c.desc))).flatMap fun i => [(c.operandRanges i).1, (c.operandRanges i).2]) (s.pieceMay c.part 3 false) = true) ∧ (rExpect (c.desc) = 0)) ∧
    (∃ (s : State) (id : Nat) (c : Cmd), (working s id 0x25 c) ∧ (s.early = []) ∧ (c.stage = 0) ∧ (c.writes = 0) ∧ (c.hasPages ((if rMode (c.desc) = 0 then [(c.objDev 128 (bits (c.desc) 191 160), rOutBytes (c.desc))] else []) ++ ((List.range (rLocal (c.desc))).flatMap fun i => [(c.operandRanges i).1, (c.operandRanges i).2])) = true) ∧ (s.pagesPass c (if rMode (c.desc) = 0 then [(c.objDev 128 (bits (c.desc) 191 160), rOutBytes (c.desc))] else []) (s.pieceMay c.part 3 true) = true) ∧ (s.pagesPass c ((List.range (rLocal (c.desc))).flatMap fun i => [(c.operandRanges i).1, (c.operandRanges i).2]) (s.pieceMay c.part 3 false) = true) ∧ (rExpect (c.desc) ≠ 0) ∧ (tblFind s.rslots (slotKey7 c.part (rSlot (c.desc))) ≠ none)) ∧
    (∃ (s : State) (id : Nat) (c : Cmd), (working s id 0x25 c) ∧ (s.early = []) ∧ (c.stage = 0) ∧ (c.writes = 0) ∧ (c.hasPages ((if rMode (c.desc) = 0 then [(c.objDev 128 (bits (c.desc) 191 160), rOutBytes (c.desc))] else []) ++ ((List.range (rLocal (c.desc))).flatMap fun i => [(c.operandRanges i).1, (c.operandRanges i).2])) = true) ∧ (s.pagesPass c (if rMode (c.desc) = 0 then [(c.objDev 128 (bits (c.desc) 191 160), rOutBytes (c.desc))] else []) (s.pieceMay c.part 3 true) = true) ∧ (s.pagesPass c ((List.range (rLocal (c.desc))).flatMap fun i => [(c.operandRanges i).1, (c.operandRanges i).2]) (s.pieceMay c.part 3 false) = true) ∧ (rExpect (c.desc) ≠ 0) ∧ (tblFind s.rslots (slotKey7 c.part (rSlot (c.desc))) = none) ∧ (s.rslots.length < 1024) ∧ ((s.partn c.part).stagingUsed + 4 * rElems (c.desc) ≤ (s.partn c.part).staging * 2 ^ 16)) ∧
    (∃ (s : State) (id : Nat) (c : Cmd), (working s id 0x25 c) ∧ (s.early = []) ∧ (c.stage ≠ 0) ∧ (c.done < (rLocal (c.desc)) * (chunksOf (rElems (c.desc)))) ∧ (c.has (c.operandRanges (c.done / (chunksOf (rElems (c.desc))))).1.1 (c.operandRanges (c.done / (chunksOf (rElems (c.desc))))).1.2 = true) ∧ (c.has (c.operandRanges (c.done / (chunksOf (rElems (c.desc))))).2.1 (c.operandRanges (c.done / (chunksOf (rElems (c.desc))))).2.2 = true) ∧ (s.lanesFor c.part = false)) ∧
    (∃ (s : State) (id : Nat) (c : Cmd) (old : _), (working s id 0x25 c) ∧ (s.early = []) ∧ (c.stage ≠ 0) ∧ (c.done < (rLocal (c.desc)) * (chunksOf (rElems (c.desc)))) ∧ (rExpect (c.desc) = 0) ∧ (c.has (c.operandRanges (c.done / (chunksOf (rElems (c.desc))))).1.1 (c.operandRanges (c.done / (chunksOf (rElems (c.desc))))).1.2 = true) ∧ (c.has (c.operandRanges (c.done / (chunksOf (rElems (c.desc))))).2.1 (c.operandRanges (c.done / (chunksOf (rElems (c.desc))))).2.2 = true) ∧ (s.lanesFor c.part = true) ∧ (c.done / (chunksOf (rElems (c.desc))) + 1 < (rLocal (c.desc))) ∧ ((c.total = [] ∧ old = List.replicate (rElems (c.desc)) (laneZero (rOp (c.desc))) ∨ ∃ a, c.total = [a] ∧ old = a.o))) ∧
    (∃ (s : State) (id : Nat) (c : Cmd), (working s id 0x25 c) ∧ (s.early = []) ∧ (c.stage ≠ 0) ∧ (c.done < (rLocal (c.desc)) * (chunksOf (rElems (c.desc)))) ∧ (rExpect (c.desc) = 0) ∧ (c.has (c.operandRanges (c.done / (chunksOf (rElems (c.desc))))).1.1 (c.operandRanges (c.done / (chunksOf (rElems (c.desc))))).1.2 = true) ∧ (c.has (c.operandRanges (c.done / (chunksOf (rElems (c.desc))))).2.1 (c.operandRanges (c.done / (chunksOf (rElems (c.desc))))).2.2 = true) ∧ (s.lanesFor c.part = true) ∧ ((rLocal (c.desc)) = 1) ∧ (rMode (c.desc) = 0) ∧ ((c.desc).testBit 240 = false)) ∧
    (∃ (s : State) (id : Nat) (i : Nat) (c : Cmd), (working s id 0x26 c) ∧ (s.early = []) ∧ (c.hasPages (if mMode (c.desc) = 1 then [(c.objDev 128 (bits (c.desc) 191 160), mRecs (c.desc) * (partialSize (mD (c.desc))))] else []) = true) ∧ (s.pagesPass c (if mMode (c.desc) = 1 then [(c.objDev 128 (bits (c.desc) 191 160), mRecs (c.desc) * (partialSize (mD (c.desc))))] else []) (s.pieceMay c.part 3 true) = true) ∧ (c.has (c.objDev 64 (bits (c.desc) 127 96)) (8 * mSets (c.desc)) = true) ∧ ((∀ b ∈ ((List.range (mSets (c.desc))).map fun i => leNat (c.bytes ((c.objDev 64 (bits (c.desc) 127 96)) + 8 * i) 8)), b % 128 = 0 ∧ b < 2 ^ 48)) ∧ (c.hasPages (((List.range (mSets (c.desc))).map fun i => leNat (c.bytes ((c.objDev 64 (bits (c.desc) 127 96)) + 8 * i) 8)).map fun b => (b, mRecs (c.desc) * (partialSize (mD (c.desc))))) = true) ∧ (s.pagesPass c (((List.range (mSets (c.desc))).map fun i => leNat (c.bytes ((c.objDev 64 (bits (c.desc) 127 96)) + 8 * i) 8)).map fun b => (b, mRecs (c.desc) * (partialSize (mD (c.desc))))) (s.pieceMay c.part 3 false) = true) ∧ ((∃ before after, c.setOrder = before ++ i :: after ∧ (∀ j ∈ before, ∃ h ∈ c.shards, h.au = j) ∧ ∀ h ∈ c.shards, h.au ≠ i)) ∧ (s.lanesFor c.part = false)) ∧
    (∃ (s : State) (id : Nat) (i : Nat) (c : Cmd), (working s id 0x26 c) ∧ (s.early = []) ∧ (c.hasPages (if mMode (c.desc) = 1 then [(c.objDev 128 (bits (c.desc) 191 160), mRecs (c.desc) * (partialSize (mD (c.desc))))] else []) = true) ∧ (s.pagesPass c (if mMode (c.desc) = 1 then [(c.objDev 128 (bits (c.desc) 191 160), mRecs (c.desc) * (partialSize (mD (c.desc))))] else []) (s.pieceMay c.part 3 true) = true) ∧ (c.has (c.objDev 64 (bits (c.desc) 127 96)) (8 * mSets (c.desc)) = true) ∧ ((∀ b ∈ ((List.range (mSets (c.desc))).map fun i => leNat (c.bytes ((c.objDev 64 (bits (c.desc) 127 96)) + 8 * i) 8)), b % 128 = 0 ∧ b < 2 ^ 48)) ∧ (c.hasPages (((List.range (mSets (c.desc))).map fun i => leNat (c.bytes ((c.objDev 64 (bits (c.desc) 127 96)) + 8 * i) 8)).map fun b => (b, mRecs (c.desc) * (partialSize (mD (c.desc))))) = true) ∧ (s.pagesPass c (((List.range (mSets (c.desc))).map fun i => leNat (c.bytes ((c.objDev 64 (bits (c.desc) 127 96)) + 8 * i) 8)).map fun b => (b, mRecs (c.desc) * (partialSize (mD (c.desc))))) (s.pieceMay c.part 3 false) = true) ∧ ((∃ before after, c.setOrder = before ++ i :: after ∧ (∀ j ∈ before, ∃ h ∈ c.shards, h.au = j) ∧ ∀ h ∈ c.shards, h.au ≠ i)) ∧ (s.lanesFor c.part = true) ∧ (c.shards.length + 1 < mSets (c.desc))) ∧
    (∃ (s : State) (id : Nat) (i : Nat) (c : Cmd), (working s id 0x26 c) ∧ (s.early = []) ∧ (c.hasPages (if mMode (c.desc) = 1 then [(c.objDev 128 (bits (c.desc) 191 160), mRecs (c.desc) * (partialSize (mD (c.desc))))] else []) = true) ∧ (s.pagesPass c (if mMode (c.desc) = 1 then [(c.objDev 128 (bits (c.desc) 191 160), mRecs (c.desc) * (partialSize (mD (c.desc))))] else []) (s.pieceMay c.part 3 true) = true) ∧ (c.has (c.objDev 64 (bits (c.desc) 127 96)) (8 * mSets (c.desc)) = true) ∧ ((∀ b ∈ ((List.range (mSets (c.desc))).map fun i => leNat (c.bytes ((c.objDev 64 (bits (c.desc) 127 96)) + 8 * i) 8)), b % 128 = 0 ∧ b < 2 ^ 48)) ∧ (c.hasPages (((List.range (mSets (c.desc))).map fun i => leNat (c.bytes ((c.objDev 64 (bits (c.desc) 127 96)) + 8 * i) 8)).map fun b => (b, mRecs (c.desc) * (partialSize (mD (c.desc))))) = true) ∧ (s.pagesPass c (((List.range (mSets (c.desc))).map fun i => leNat (c.bytes ((c.objDev 64 (bits (c.desc) 127 96)) + 8 * i) 8)).map fun b => (b, mRecs (c.desc) * (partialSize (mD (c.desc))))) (s.pieceMay c.part 3 false) = true) ∧ ((∃ before after, c.setOrder = before ++ i :: after ∧ (∀ j ∈ before, ∃ h ∈ c.shards, h.au = j) ∧ ∀ h ∈ c.shards, h.au ≠ i)) ∧ (s.lanesFor c.part = true) ∧ (mSets (c.desc) ≤ c.shards.length + 1)) ∧
    (∃ (s : State) (id : Nat) (c : Cmd), (working s id 0x27 c) ∧ (c.stage = 0) ∧ (iTargets c.desc = 0) ∧ (c.writes = 0) ∧ (c.pendingFrames = 0) ∧ (c.acksDue = 0)) :=
  ⟨⟨({ engAt 2 (opAt 0x23 (2 ^ 464 + 2 ^ 469) 0 [pg0 (9 * 2 ^ 48), (0, leBytes 128 0)]) with chips := [] }), 5, (opAt 0x23 (2 ^ 464 + 2 ^ 469) 0 [pg0 (9 * 2 ^ 48), (0, leBytes 128 0)]), ⟨⟨⟨(by decide +kernel), (by decide +kernel)⟩, ⟨(by decide +kernel), (by decide +kernel)⟩⟩, (by decide +kernel), (by decide +kernel), (by decide +kernel), (by decide +kernel), (by decide +kernel)⟩, (by decide +kernel), (by decide +kernel), (by decide +kernel)⟩,
    ⟨(engAt 2 (opAt 0x23 (2 ^ 464 + 2 ^ 469) 0 [pg0 (9 * 2 ^ 48), (0, leBytes 128 0)])), 5, (opAt 0x23 (2 ^ 464 + 2 ^ 469) 0 [pg0 (9 * 2 ^ 48), (0, leBytes 128 0)]), ⟨⟨⟨(by decide +kernel), (by decide +kernel)⟩, ⟨(by decide +kernel), (by decide +kernel)⟩⟩, (by decide +kernel), (by decide +kernel), (by decide +kernel), (by decide +kernel), (by decide +kernel)⟩, (by decide +kernel), (by decide +kernel), (by decide +kernel), (by decide +kernel), (by decide +kernel)⟩,
    ⟨(engAt 0 (opAt 0x23 (2 ^ 464 + 2 ^ 469) 0 [pg0 (9 * 2 ^ 48), (0, leBytes 128 0)])), 5, (opAt 0x23 (2 ^ 464 + 2 ^ 469) 0 [pg0 (9 * 2 ^ 48), (0, leBytes 128 0)]), ⟨⟨⟨(by decide +kernel), (by decide +kernel)⟩, ⟨(by decide +kernel), (by decide +kernel)⟩⟩, (by decide +kernel), (by decide +kernel), (by decide +kernel), (by decide +kernel), (by decide +kernel)⟩, (by decide +kernel), (by decide +kernel), (by decide +kernel), (by decide +kernel), (by decide +kernel)⟩,
    ⟨up, 0, (by decide +kernel), ⟨⟨(by decide +kernel), (by decide +kernel)⟩, ⟨(by decide +kernel), (by decide +kernel)⟩⟩, (by decide +kernel), (by decide +kernel)⟩,
    ⟨({ engAt 2 (opAt 0x23 (2 ^ 464 + 2 ^ 469) 1 [pg0 (9 * 2 ^ 48), (0, leBytes 128 0)]) with cmds := [(5, opAt 0x23 0 1 [])], samplerFifo := [(1, [5])] }), 0, 1, 5, ([]), (opAt 0x23 0 1 []), (by decide +kernel), ⟨⟨⟨(by decide +kernel), (by decide +kernel)⟩, ⟨(by decide +kernel), (by decide +kernel)⟩⟩, (by decide +kernel), (by decide +kernel), (by decide +kernel), (by decide +kernel), (by decide +kernel)⟩, (by decide +kernel), (by decide +kernel), (by decide +kernel), (by decide +kernel), (by decide +kernel), (by decide +kernel)⟩,
    ⟨({ engAt 2 (opAt 0x23 (2 ^ 464 + 2 ^ 469) 2 [pg0 (9 * 2 ^ 48), (0, leBytes 128 2143289344)]) with samplerCmd := [(0, 5)] }), 0, 5, (opAt 0x23 (2 ^ 464 + 2 ^ 469) 2 [pg0 (9 * 2 ^ 48), (0, leBytes 128 2143289344)]), (by decide +kernel), ⟨⟨⟨(by decide +kernel), (by decide +kernel)⟩, ⟨(by decide +kernel), (by decide +kernel)⟩⟩, (by decide +kernel), (by decide +kernel), (by decide +kernel), (by decide +kernel), (by decide +kernel)⟩, (by decide +kernel), (by decide +kernel), (by decide +kernel), (by decide +kernel), (by decide +kernel), (by decide +kernel), (by decide +kernel), (List.all_eq_true (p := fun x => (f32 x).special)).mp (by decide +kernel)⟩,
    ⟨({ engAt 2 (opAt 0x23 (2 ^ 464 + 2 ^ 469) 2 [pg0 (9 * 2 ^ 48), (0, leBytes 128 1065353216)]) with samplerCmd := [(0, 5)] }), 0, 5, (opAt 0x23 (2 ^ 464 + 2 ^ 469) 2 [pg0 (9 * 2 ^ 48), (0, leBytes 128 1065353216)]), (by decide +kernel), ⟨⟨⟨(by decide +kernel), (by decide +kernel)⟩, ⟨(by decide +kernel), (by decide +kernel)⟩⟩, (by decide +kernel), (by decide +kernel), (by decide +kernel), (by decide +kernel), (by decide +kernel)⟩, (by decide +kernel), (by decide +kernel), (by decide +kernel), (by decide +kernel), (by decide +kernel), (by decide +kernel), (by decide +kernel), ⟨1065353216#32, (by decide +kernel), (by decide +kernel)⟩, (by decide +kernel), (by decide +kernel)⟩,
    ⟨(eng (bCmd 0)), 5, (bCmd 0), ⟨⟨⟨(by decide +kernel), (by decide +kernel)⟩, ⟨(by decide +kernel), (by decide +kernel)⟩⟩, (by decide +kernel), (by decide +kernel), (by decide +kernel), (by decide +kernel), (by decide +kernel)⟩, (by decide +kernel), (by decide +kernel), (by decide +kernel), (by decide +kernel)⟩,
    ⟨({ eng ({ bCmd 1 with done := 1 }) with chips := [(0, { state := 4, bound := some 1, streams := [5] })] }), 5, ({ bCmd 1 with done := 1 }), ⟨⟨⟨(by decide +kernel), (by decide +kernel)⟩, ⟨(by decide +kernel), (by decide +kernel)⟩⟩, (by decide +kernel), (by decide +kernel), (by decide +kernel), (by decide +kernel), (by decide +kernel)⟩, (by decide +kernel), (by decide +kernel), (by decide +kernel), (by decide +kernel), (by decide +kernel)⟩,
    ⟨({ eng (bCmd 1) with chips := [(0, { state := 4, bound := some 1, streams := [5] })] }), 5, (bCmd 1), ⟨⟨⟨(by decide +kernel), (by decide +kernel)⟩, ⟨(by decide +kernel), (by decide +kernel)⟩⟩, (by decide +kernel), (by decide +kernel), (by decide +kernel), (by decide +kernel), (by decide +kernel)⟩, (by decide +kernel), (by decide +kernel), (by decide +kernel), (by decide +kernel), (by decide +kernel), (by decide +kernel), (by decide +kernel), (by decide +kernel)⟩,
    ⟨({ up with chips := [(0, { state := 4, bound := some 1, deliveries := [⟨5, 1, { mtype := 0x18 }, true⟩] })] }), 0, (⟨5, 1, { mtype := 0x18 }, true⟩), ([]), (by decide +kernel), ⟨⟨(by decide +kernel), (by decide +kernel)⟩, ⟨(by decide +kernel), (by decide +kernel)⟩⟩, (by decide +kernel), (by decide +kernel), (by decide +kernel), (by decide +kernel)⟩,
    ⟨(eng (rCmd 1 0 0)), 5, (rCmd 1 0 0), ⟨⟨⟨(by decide +kernel), (by decide +kernel)⟩, ⟨(by decide +kernel), (by decide +kernel)⟩⟩, (by decide +kernel), (by decide +kernel), (by decide +kernel), (by decide +kernel), (by decide +kernel)⟩, (by decide +kernel), (by decide +kernel), (by decide +kernel), (by decide +kernel), (by decide +kernel), (by decide +kernel), (by decide +kernel)⟩,
    ⟨({ eng (rCmd 1 1 0) with rslots := [(slotKey7 1 0, {})] }), 5, (rCmd 1 1 0), ⟨⟨⟨(by decide +kernel), (by decide +kernel)⟩, ⟨(by decide +kernel), (by decide +kernel)⟩⟩, (by decide +kernel), (by decide +kernel), (by decide +kernel), (by decide +kernel), (by decide +kernel)⟩, (by decide +kernel), (by decide +kernel), (by decide +kernel), (by decide +kernel), (by decide +kernel), (by decide +kernel), (by decide +kernel), (by decide +kernel)⟩,
    ⟨(eng (rCmd 1 1 0)), 5, (rCmd 1 1 0), ⟨⟨⟨(by decide +kernel), (by decide +kernel)⟩, ⟨(by decide +kernel), (by decide +kernel)⟩⟩, (by decide +kernel), (by decide +kernel), (by decide +kernel), (by decide +kernel), (by decide +kernel)⟩, (by decide +kernel), (by decide +kernel), (by decide +kernel), (by decide +kernel), (by decide +kernel), (by decide +kernel), (by decide +kernel), (by decide +kernel), (by decide +kernel), (by decide +kernel)⟩,
    ⟨({ eng (rCmd 1 0 1) with lanesTurn := 1, cmds := [(5, rCmd 1 0 1), (6, { rCmd 1 0 1 with part := 2 })] }), 5, (rCmd 1 0 1), ⟨⟨⟨(by decide +kernel), (by decide +kernel)⟩, ⟨(by decide +kernel), (by decide +kernel)⟩⟩, (by decide +kernel), (by decide +kernel), (by decide +kernel), (by decide +kernel), (by decide +kernel)⟩, (by decide +kernel), (by decide +kernel), (by decide +kernel), (by decide +kernel), (by decide +kernel), (by decide +kernel)⟩,
    ⟨(eng (rCmd 2 0 1)), 5, (rCmd 2 0 1), ((List.replicate 4 (laneZero 0))), ⟨⟨⟨(by decide +kernel), (by decide +kernel)⟩, ⟨(by decide +kernel), (by decide +kernel)⟩⟩, (by decide +kernel), (by decide +kernel), (by decide +kernel), (by decide +kernel), (by decide +kernel)⟩, (by decide +kernel), (by decide +kernel), (by decide +kernel), (by decide +kernel), (by decide +kernel), (by decide +kernel), (by decide +kernel), (by decide +kernel), .inl (by decide +kernel)⟩,
    ⟨(eng (rCmd 1 0 1)), 5, (rCmd 1 0 1), ⟨⟨⟨(by decide +kernel), (by decide +kernel)⟩, ⟨(by decide +kernel), (by decide +kernel)⟩⟩, (by decide +kernel), (by decide +kernel), (by decide +kernel), (by decide +kernel), (by decide +kernel)⟩, (by decide +kernel), (by decide +kernel), (by decide +kernel), (by decide +kernel), (by decide +kernel), (by decide +kernel), (by decide +kernel), (by decide +kernel), (by decide +kernel), (by decide +kernel)⟩,
    ⟨({ eng (mCmd 1) with lanesTurn := 1, cmds := [(5, mCmd 1), (6, { rCmd 1 0 1 with part := 2 })] }), 5, 0, (mCmd 1), ⟨⟨⟨(by decide +kernel), (by decide +kernel)⟩, ⟨(by decide +kernel), (by decide +kernel)⟩⟩, (by decide +kernel), (by decide +kernel), (by decide +kernel), (by decide +kernel), (by decide +kernel)⟩, (by decide +kernel), (by decide +kernel), (by decide +kernel), (by decide +kernel), (by decide +kernel), (by decide +kernel), (by decide +kernel), ⟨[], [], rfl, (fun _ h => nomatch h), (by decide +kernel)⟩, (by decide +kernel)⟩,
    ⟨(eng (mCmd 1)), 5, 0, (mCmd 1), ⟨⟨⟨(by decide +kernel), (by decide +kernel)⟩, ⟨(by decide +kernel), (by decide +kernel)⟩⟩, (by decide +kernel), (by decide +kernel), (by decide +kernel), (by decide +kernel), (by decide +kernel)⟩, (by decide +kernel), (by decide +kernel), (by decide +kernel), (by decide +kernel), (by decide +kernel), (by decide +kernel), (by decide +kernel), ⟨[], [], rfl, (fun _ h => nomatch h), (by decide +kernel)⟩, (by decide +kernel), (by decide +kernel)⟩,
    ⟨(eng (mCmd 0)), 5, 0, (mCmd 0), ⟨⟨⟨(by decide +kernel), (by decide +kernel)⟩, ⟨(by decide +kernel), (by decide +kernel)⟩⟩, (by decide +kernel), (by decide +kernel), (by decide +kernel), (by decide +kernel), (by decide +kernel)⟩, (by decide +kernel), (by decide +kernel), (by decide +kernel), (by decide +kernel), (by decide +kernel), (by decide +kernel), (by decide +kernel), ⟨[], [], rfl, (fun _ h => nomatch h), (by decide +kernel)⟩, (by decide +kernel), (by decide +kernel)⟩,
    ⟨(eng (opAt 0x27 0 0 [])), 5, (opAt 0x27 0 0 []), ⟨⟨⟨(by decide +kernel), (by decide +kernel)⟩, ⟨(by decide +kernel), (by decide +kernel)⟩⟩, (by decide +kernel), (by decide +kernel), (by decide +kernel), (by decide +kernel), (by decide +kernel)⟩, (by decide +kernel), (by decide +kernel), (by decide +kernel), (by decide +kernel), (by decide +kernel)⟩⟩

theorem witness_ChipletAdmission :
    (∃ (s : State) (c : Nat) (n : Nat), (c < s.cfg.chipPorts) ∧ (s.due = []) ∧ (s.alive = true) ∧ ((s.chip c).state = 0) ∧ ((s.chip c).inReset = false) ∧ (n ≠ 0)) ∧
    (∃ (s : State) (c : Nat) (n : Nat), (c < s.cfg.chipPorts) ∧ (s.due = []) ∧ (s.alive = false ∨ (s.chip c).state ≠ 0 ∨ (s.chip c).inReset = true ∨ n = 0)) ∧
    (∃ (s : State) (c : Nat), (hasChip s c) ∧ ((s.chip c).state = 0)) ∧
    (∃ (s : State) (c : Nat), (hasChip s c) ∧ ((s.chip c).state = 4) ∧ (2 ≤ (s.chip c).modules)) ∧
    (∃ (s : State) (c : Nat), (hasChip s c) ∧ ((s.chip c).state = 4) ∧ ((s.chip c).modules ≤ 1)) ∧
    (∃ (s : State) (c : Nat), (hasChip s c) ∧ ((s.chip c).state ≠ 0) ∧ ((s.chip c).state ≠ 4) ∧ ((s.chip c).state ≠ 6)) ∧
    (∃ (s : State) (c : Nat), (hasChip s c) ∧ (s.bring.gate = true) ∧ (s.fw.fw = 0) ∧ ((s.chip c).state = 1 ∨ ((s.chip c).state = 4 ∧ (s.chip c).withhold = true ∧ (s.chip c).session.stage = 0))) ∧
    (∃ (s : State) (c : Nat), (hasChip s c) ∧ (s.bring.gate = false ∨ s.fw.fw ≠ 0 ∨ (s.chip c).state ≠ 1 ∧ ¬ ((s.chip c).state = 4 ∧ (s.chip c).withhold = true ∧ (s.chip c).session.stage = 0))) ∧
    (∃ (s : State) (c : Nat), (serves s (.chip c)) ∧ (s.life.state = .blank ∨ s.life.state = .endOfLife)) ∧
    (∃ (s : State) (c : Nat), (serves s (.chip c)) ∧ (s.life.state ≠ .blank) ∧ (s.life.state ≠ .endOfLife) ∧ (s.fw.fw = 1) ∧ ((s.chip c).session.stage ≠ 4)) ∧
    (∃ (s : State) (c : Nat), (servesAll s (.chip c)) ∧ (¬ ((s.chip c).state = 2 ∧ (s.chip c).session.stage = 5))) ∧
    (∃ (s : State) (c : Nat) (b : Bytes), (servesAll s (.chip c)) ∧ (((s.chip c).state = 2 ∧ (s.chip c).session.stage = 5)) ∧ (¬ (b.length = 16 ∧ bits (leNat b) 43 40 ≠ 0 ∧ bits (leNat b) 43 40 ≤ s.cfg.chipModules.getD c 0 ∧ bits (leNat b) 43 40 ≤ (s.chip c).modules ∧ 256 ≤ bits (leNat b) 63 48))) ∧
    (∃ (s : State) (c : Nat) (b : Bytes), (servesAll s (.chip c)) ∧ (((s.chip c).state = 2 ∧ (s.chip c).session.stage = 5)) ∧ ((b.length = 16 ∧ bits (leNat b) 43 40 ≠ 0 ∧ bits (leNat b) 43 40 ≤ s.cfg.chipModules.getD c 0 ∧ bits (leNat b) 43 40 ≤ (s.chip c).modules ∧ 256 ≤ bits (leNat b) 63 48)) ∧ ((s.chip c).bound = none)) ∧
    (∃ (s : State) (c : Nat), (hasChip s c) ∧ ((s.chip c).boundRunning = true)) ∧
    (∃ (s : State) (c : Nat), (hasChip s c) ∧ ((s.chip c).boundRunning = false)) ∧
    (∃ (s : State) (c : Nat), (hasChip s c) ∧ ((s.chip c).state = 5)) ∧
    (∃ (s : State) (c : Nat), (hasChip s c) ∧ ((s.chip c).state ≠ 5)) ∧
    (∃ (s : State) (m : Mgmt) (c : Nat) (p : Nat), (c < s.cfg.chipPorts) ∧ (granted s m 0x3301 (c + 1) (leBytes 1 p)) ∧ (s.cfg.partitions ≤ p) ∧ (p ≠ 0xFF)) ∧
    (∃ (s : State) (m : Mgmt) (c : Nat) (p : Nat), (c < s.cfg.chipPorts) ∧ (granted s m 0x3301 (c + 1) (leBytes 1 p)) ∧ (p < s.cfg.partitions ∨ p = 0xFF) ∧ ((s.chip c).state = 4)) ∧
    (∃ (s : State) (m : Mgmt) (c : Nat) (p : Nat), (c < s.cfg.chipPorts) ∧ (granted s m 0x3301 (c + 1) (leBytes 1 p)) ∧ (p = 0xFF) ∧ ((s.chip c).state ≠ 4)) ∧
    (∃ (s : State) (m : Mgmt) (c : Nat) (p : Nat), (c < s.cfg.chipPorts) ∧ (granted s m 0x3301 (c + 1) (leBytes 1 p)) ∧ (p < s.cfg.partitions) ∧ (p ≠ 0xFF) ∧ ((s.chip c).state ≠ 4) ∧ ((s.chip c).state ≠ 3)) ∧
    (∃ (s : State) (m : Mgmt) (c : Nat) (p : Nat), (c < s.cfg.chipPorts) ∧ (granted s m 0x3301 (c + 1) (leBytes 1 p)) ∧ (p < s.cfg.partitions) ∧ ((s.chip c).state = 3) ∧ ((s.partn p).live = true) ∧ (s.freeLeaf = none)) ∧
    (∃ (s : State) (m : Mgmt) (c : Nat) (p : Nat) (i : _), (c < s.cfg.chipPorts) ∧ (granted s m 0x3301 (c + 1) (leBytes 1 p)) ∧ (s.cfg.legal = true) ∧ (p < s.cfg.partitions) ∧ ((s.chip c).state = 3) ∧ ((s.partn p).live = true) ∧ (s.freeLeaf = some i) ∧ ((s.slot i).state = 0) ∧ (s.usable (partSlot p) = true) ∧ (s.fertile (partSlot p) = true) ∧ (s.drawMaster 8 ≠ none)) ∧
    (∃ (s : State) (m : Mgmt) (i : Nat) (j : Nat) (v : Nat), ((i = 0x2020 ∨ i = 0x2030)) ∧ (granted s m i j (leBytes (if i = 0x2020 then 2 else 1) v)) ∧ ((i = 0x2020 ∧ s.cfg.chipPorts < j ∨ i = 0x2030 ∧ 2 ≤ v))) ∧
    (∃ (s : State) (m : Mgmt) (i : Nat) (j : Nat) (v : Nat), ((i = 0x2020 ∨ i = 0x2030)) ∧ (granted s m i j (leBytes (if i = 0x2020 then 2 else 1) v)) ∧ (¬ (i = 0x2020 ∧ s.cfg.chipPorts < j ∨ i = 0x2030 ∧ 2 ≤ v))) :=
  ⟨⟨up, 7, 2, (by decide +kernel), (by decide +kernel), (by decide +kernel), (by decide +kernel), (by decide +kernel), (by decide +kernel)⟩,
    ⟨off, 7, 2, (by decide +kernel), (by decide +kernel), (by decide +kernel)⟩,
    ⟨up, 7, ⟨(by decide +kernel), (by decide +kernel), (by decide +kernel)⟩, (by decide +kernel)⟩,
    ⟨(withChip open4), 0, ⟨(by decide +kernel), (by decide +kernel), (by decide +kernel)⟩, (by decide +kernel), (by decide +kernel)⟩,
    ⟨(withChip { open4 with modules := 1 }), 0, ⟨(by decide +kernel), (by decide +kernel), (by decide +kernel)⟩, (by decide +kernel), (by decide +kernel)⟩,
    ⟨(withChip { open4 with state := 3 }), 0, ⟨(by decide +kernel), (by decide +kernel), (by decide +kernel)⟩, (by decide +kernel), (by decide +kernel), (by decide +kernel)⟩,
    ⟨(withChip { state := 1 }), 0, ⟨(by decide +kernel), (by decide +kernel), (by decide +kernel)⟩, (by decide +kernel), (by decide +kernel), (by decide +kernel)⟩,
    ⟨({ withChip { state := 1 } with fw := { fw := 1 } }), 0, ⟨(by decide +kernel), (by decide +kernel), (by decide +kernel)⟩, (by decide +kernel)⟩,
    ⟨({ withChip { state := 1 } with life := { state := .blank } }), 0, ⟨(by decide +kernel), ⟨(by decide +kernel), (by decide +kernel)⟩, (by decide +kernel), (by decide +kernel), (by decide +kernel)⟩, (by decide +kernel)⟩,
    ⟨({ withChip { state := 1 } with fw := { fw := 1 } }), 0, ⟨(by decide +kernel), ⟨(by decide +kernel), (by decide +kernel)⟩, (by decide +kernel), (by decide +kernel), (by decide +kernel)⟩, (by decide +kernel), (by decide +kernel), (by decide +kernel), (by decide +kernel)⟩,
    ⟨(withChip { state := 2 }), 0, ⟨⟨(by decide +kernel), ⟨(by decide +kernel), (by decide +kernel)⟩, (by decide +kernel), (by decide +kernel), (by decide +kernel)⟩, (by decide +kernel), (by decide +kernel), (by decide +kernel)⟩, (by decide +kernel)⟩,
    ⟨(withChip { state := 2, modules := 2, session := { stage := 5 } }), 0, (admits 3), ⟨⟨(by decide +kernel), ⟨(by decide +kernel), (by decide +kernel)⟩, (by decide +kernel), (by decide +kernel), (by decide +kernel)⟩, (by decide +kernel), (by decide +kernel), (by decide +kernel)⟩, (by decide +kernel), (by decide +kernel)⟩,
    ⟨(withChip { state := 2, modules := 2, session := { stage := 5 } }), 0, (admits 2), ⟨⟨(by decide +kernel), ⟨(by decide +kernel), (by decide +kernel)⟩, (by decide +kernel), (by decide +kernel), (by decide +kernel)⟩, (by decide +kernel), (by decide +kernel), (by decide +kernel)⟩, (by decide +kernel), (by decide +kernel), (by decide +kernel)⟩,
    ⟨(withChip { state := 2, boundRunning := true }), 0, ⟨(by decide +kernel), (by decide +kernel), (by decide +kernel)⟩, (by decide +kernel)⟩,
    ⟨up, 7, ⟨(by decide +kernel), (by decide +kernel), (by decide +kernel)⟩, (by decide +kernel)⟩,
    ⟨(withChip { state := 5 }), 0, ⟨(by decide +kernel), (by decide +kernel), (by decide +kernel)⟩, (by decide +kernel)⟩,
    ⟨up, 7, ⟨(by decide +kernel), (by decide +kernel), (by decide +kernel)⟩, (by decide +kernel)⟩,
    ⟨up, ins, 0, 64, (by decide +kernel), granted_of (by decide +kernel), (by decide +kernel), (by decide +kernel)⟩,
    ⟨(withChip open4), ins, 0, 1, (by decide +kernel), granted_of (by decide +kernel), (by decide +kernel), (by decide +kernel)⟩,
    ⟨up, ins, 0, 0xFF, (by decide +kernel), granted_of (by decide +kernel), (by decide +kernel), (by decide +kernel)⟩,
    ⟨up, ins, 0, 1, (by decide +kernel), granted_of (by decide +kernel), (by decide +kernel), (by decide +kernel), (by decide +kernel), (by decide +kernel)⟩,
    ⟨({ withChip { state := 3 } with keys := { slots := fullKeys } }), ins, 0, 1, (by decide +kernel), granted_of (by decide +kernel), (by decide +kernel), (by decide +kernel), (by decide +kernel), noLeaf rfl⟩,
    ⟨(withChip { state := 3, session := { stage := 5 } }), ins, 0, 1, ((0 : Nat)), (by decide +kernel), granted_of (by decide +kernel), (by decide +kernel), (by decide +kernel), (by decide +kernel), (by decide +kernel), (by decide +kernel), (by decide +kernel), (by decide +kernel), (by decide +kernel), (by decide +kernel)⟩,
    ⟨up, ins, 0x2030, 1, 2, (by decide +kernel), granted_of (by decide +kernel), (by decide +kernel)⟩,
    ⟨up, ins, 0x2020, 8, 0xFFFF, (by decide +kernel), granted_of (by decide +kernel), (by decide +kernel)⟩⟩

theorem witness_ChipletFramesAndStandby :
    (∃ (s : State) (c : Nat), (hasChip s c) ∧ (s.sealing = false)) ∧
    (∃ (s : State) (c : Nat), (hasChip s c) ∧ ((s.chip c).state ≠ 4) ∧ (s.sealing = true)) ∧
    (∃ (s : State) (c : Nat), (hasChip s c) ∧ ((s.chip c).state ≠ 4)) ∧
    (∃ (s : State) (c : Nat) (b : Bytes), (hasChip s c) ∧ (s.sealing = true) ∧ ((s.chip c).state = 4) ∧ (s.alarms.point ≠ 6) ∧ (s.alarms.point ≠ 0x13) ∧ ((s.chip c).fs.hunting = false) ∧ ((s.chip c).fs.refusals < 7) ∧ ((s.chip c).standby ≠ 2) ∧ (hcrcOk (padTo (256 * (bits (leNat (b.take 16)) 4 2 + 1)) b) = false) ∧ (hcrcOk b = false ∨ bits (leNat (b.take 16)) 1 0 ≠ 3)) ∧
    (∃ (s : State) (c : Nat) (b : Bytes), (hasChip s c) ∧ (s.sealing = true) ∧ ((s.chip c).state = 4) ∧ (s.alarms.point ≠ 6) ∧ (s.alarms.point ≠ 0x13) ∧ ((s.chip c).fs.hunting = false) ∧ ((s.chip c).fs.refusals < 7) ∧ ((s.chip c).standby ≠ 2) ∧ (hcrcOk b = true) ∧ (bits (leNat (b.take 16)) 1 0 = 3)) ∧
    (∃ (s : State) (c : Nat) (b : Bytes), (hasChip s c) ∧ (s.sealing = true) ∧ ((s.chip c).state = 4) ∧ (s.alarms.point ≠ 6) ∧ (s.alarms.point ≠ 0x13) ∧ ((s.chip c).fs.hunting = false) ∧ ((s.chip c).fs.refusals < 7) ∧ ((s.chip c).standby ≠ 2) ∧ (hcrcOk (padTo (256 * (bits (leNat (b.take 16)) 4 2 + 1)) b) = true) ∧ ((bits (leNat (b.take 16)) 1 0 = 1 ∨ bits (leNat (b.take 16)) 1 0 = 2)) ∧ (s.chipRxGen (s.chip c) (bits (leNat (b.take 16)) 15 8) ((leNat (b.take 16)).testBit 5) = none)) ∧
    (∃ (s : State) (c : Nat) (b : Bytes) (g : _), (hasChip s c) ∧ (s.sealing = true) ∧ ((s.chip c).state = 4) ∧ (s.alarms.point ≠ 6) ∧ (s.alarms.point ≠ 0x13) ∧ ((s.chip c).fs.hunting = false) ∧ ((s.chip c).fs.refusals < 7) ∧ ((s.chip c).standby ≠ 2) ∧ (hcrcOk (padTo (256 * (bits (leNat (b.take 16)) 4 2 + 1)) b) = true) ∧ ((bits (leNat (b.take 16)) 1 0 = 1 ∨ bits (leNat (b.take 16)) 1 0 = 2)) ∧ (s.chipRxGen (s.chip c) (bits (leNat (b.take 16)) 15 8) ((leNat (b.take 16)).testBit 5) = some g) ∧ ((s.chip c).fs.rxSeq < (bits (leNat (b.take 16)) 103 40))) ∧
    (∃ (s : State) (c : Nat) (b : Bytes) (g : _), (hasChip s c) ∧ (s.sealing = true) ∧ ((s.chip c).state = 4) ∧ (s.alarms.point ≠ 6) ∧ (s.alarms.point ≠ 0x13) ∧ ((s.chip c).fs.hunting = false) ∧ ((s.chip c).fs.refusals < 7) ∧ ((s.chip c).standby ≠ 2) ∧ (hcrcOk (padTo (256 * (bits (leNat (b.take 16)) 4 2 + 1)) b) = true) ∧ ((bits (leNat (b.take 16)) 1 0 = 1 ∨ bits (leNat (b.take 16)) 1 0 = 2)) ∧ (s.chipRxGen (s.chip c) (bits (leNat (b.take 16)) 15 8) ((leNat (b.take 16)).testBit 5) = some g) ∧ ((bits (leNat (b.take 16)) 103 40) < (s.chip c).fs.rxSeq)) ∧
    (∃ (s : State) (c : Nat) (b : Bytes) (g : _) (ks : Bytes × Bytes) (u : State), (hasChip s c) ∧ (s.sealing = true) ∧ ((s.chip c).state = 4) ∧ (s.alarms.point ≠ 6) ∧ (s.alarms.point ≠ 0x13) ∧ ((s.chip c).fs.hunting = false) ∧ ((s.chip c).fs.refusals < 7) ∧ ((s.chip c).standby ≠ 2) ∧ (hcrcOk (padTo (256 * (bits (leNat (b.take 16)) 4 2 + 1)) b) = true) ∧ ((bits (leNat (b.take 16)) 1 0 = 1 ∨ bits (leNat (b.take 16)) 1 0 = 2)) ∧ (s.chipRxGen (s.chip c) (bits (leNat (b.take 16)) 15 8) ((leNat (b.take 16)).testBit 5) = some g) ∧ ((bits (leNat (b.take 16)) 103 40) = (s.chip c).fs.rxSeq) ∧ (s.chipKey c g false = .ok (ks, u)) ∧ (openFrame ks.1 ks.2 (bits (leNat (b.take 16)) 103 40) (padTo (256 * (bits (leNat (b.take 16)) 4 2 + 1)) b) = none)) ∧
    (∃ (s : State) (c : Nat) (b : Bytes) (g : _) (ks : Bytes × Bytes) (u : State) (text : _), (hasChip s c) ∧ (s.sealing = true) ∧ ((s.chip c).state = 4) ∧ (s.alarms.point ≠ 6) ∧ (s.alarms.point ≠ 0x13) ∧ ((s.chip c).fs.hunting = false) ∧ ((s.chip c).fs.refusals < 7) ∧ ((s.chip c).standby ≠ 2) ∧ (hcrcOk (padTo (256 * (bits (leNat (b.take 16)) 4 2 + 1)) b) = true) ∧ ((bits (leNat (b.take 16)) 1 0 = 1 ∨ bits (leNat (b.take 16)) 1 0 = 2)) ∧ (s.chipRxGen (s.chip c) (bits (leNat (b.take 16)) 15 8) ((leNat (b.take 16)).testBit 5) = some g) ∧ ((bits (leNat (b.take 16)) 103 40) = (s.chip c).fs.rxSeq) ∧ (s.chipKey c g false = .ok (ks, u)) ∧ (openFrame ks.1 ks.2 (bits (leNat (b.take 16)) 103 40) (padTo (256 * (bits (leNat (b.take 16)) 4 2 + 1)) b) = some text)) ∧
    (∃ (s : State) (c : Nat) (b : Bytes) (g : _) (ks : Bytes × Bytes) (u : State) (text : _), (hasChip s c) ∧ (s.sealing = true) ∧ ((s.chip c).state = 4) ∧ (s.alarms.point ≠ 6) ∧ (s.alarms.point ≠ 0x13) ∧ ((s.chip c).fs.hunting = false) ∧ ((s.chip c).fs.refusals < 7) ∧ ((s.chip c).standby ≠ 2) ∧ (hcrcOk (padTo (256 * (bits (leNat (b.take 16)) 4 2 + 1)) b) = true) ∧ ((bits (leNat (b.take 16)) 1 0 = 1 ∨ bits (leNat (b.take 16)) 1 0 = 2)) ∧ (s.chipRxGen (s.chip c) (bits (leNat (b.take 16)) 15 8) ((leNat (b.take 16)).testBit 5) = some g) ∧ ((bits (leNat (b.take 16)) 103 40) = (s.chip c).fs.rxSeq) ∧ (s.chipKey c g false = .ok (ks, u)) ∧ (openFrame ks.1 ks.2 (bits (leNat (b.take 16)) 103 40) (padTo (256 * (bits (leNat (b.take 16)) 4 2 + 1)) b) = some text) ∧ (bits (leNat (b.take 16)) 1 0 = 2)) ∧
    (∃ (s : State) (c : Nat) (b : Bytes), (hasChip s c) ∧ (s.sealing = true) ∧ ((s.chip c).state = 4) ∧ ((s.chip c).standby = 2) ∧ (b ≠ chipWakeBeat)) ∧
    (∃ (s : State) (c : Nat), (hasChip s c) ∧ (s.sealing = true) ∧ ((s.chip c).state = 4) ∧ ((s.chip c).standby = 2)) ∧
    (∃ (s : State) (c : Nat) (ks : Bytes × Bytes), (hasChip s c) ∧ (canIdle s c ks) ∧ ((s.chip c).standby = 0)) ∧
    (∃ (s : State) (c : Nat) (ks : Bytes × Bytes), (hasChip s c) ∧ (canIdle s c ks) ∧ ((s.chip c).standby = 2) ∧ (s.power.state = 0) ∧ (s.power.exiting = none)) ∧
    (∃ (s : State) (c : Nat) (x : ChipMsg) (rest : List ChipMsg), (hasChip s c) ∧ ((s.chip c).state = 4) ∧ ((s.chip c).standby = 1) ∧ ((s.chip c).rx = x :: rest) ∧ (x.mtype = 0x07)) ∧
    (∃ (s : State) (c : Nat), (hasChip s c) ∧ ((s.chip c).standby ≠ 1)) ∧
    (∃ (s : State) (c : Nat), (hasChip s c) ∧ ((s.chip c).standby = 1)) ∧
    (∃ (s : State) (c : Nat), (hasChip s c) ∧ ((s.chip c).retryDue = true) ∧ ((s.chip c).state = 4) ∧ ((s.chip c).standby = 0)) ∧
    (∃ (s : State) (c : Nat), (hasChip s c) ∧ ((s.chip c).retryDue = false)) ∧
    (∃ (s : State) (c : Nat), (hasChip s c) ∧ ((s.chip c).state = 4) ∧ ((s.chip c).standby = 2) ∧ (s.power.state ≠ 0)) ∧
    (∃ (s : State) (c : Nat), (hasChip s c) ∧ ((s.chip c).state = 4) ∧ ((s.chip c).standby = 3)) ∧
    (∃ (s : State) (c : Nat), (hasChip s c) ∧ ((s.chip c).standby ≠ 3)) :=
  ⟨⟨({ up with power := { state := 3 } }), 7, ⟨(by decide +kernel), (by decide +kernel), (by decide +kernel)⟩, (by decide +kernel)⟩,
    ⟨up, 7, ⟨(by decide +kernel), (by decide +kernel), (by decide +kernel)⟩, (by decide +kernel), (by decide +kernel)⟩,
    ⟨up, 7, ⟨(by decide +kernel), (by decide +kernel), (by decide +kernel)⟩, (by decide +kernel)⟩,
    ⟨(withChip open4), 0, ([]), ⟨(by decide +kernel), (by decide +kernel), (by decide +kernel)⟩, (by decide +kernel), (by decide +kernel), (by decide +kernel), (by decide +kernel), (by decide +kernel), (by decide +kernel), (by decide +kernel), (by decide +kernel), (by decide +kernel)⟩,
    ⟨(withChip open4), 0, chipWakeBeat, ⟨(by decide +kernel), (by decide +kernel), (by decide +kernel)⟩, (by decide +kernel), (by decide +kernel), (by decide +kernel), (by decide +kernel), (by decide +kernel), (by decide +kernel), (by decide +kernel), (by decide +kernel), (by decide +kernel)⟩,
    ⟨(withChip open4), 0, (chipHdr 1 3 0), ⟨(by decide +kernel), (by decide +kernel), (by decide +kernel)⟩, (by decide +kernel), (by decide +kernel), (by decide +kernel), (by decide +kernel), (by decide +kernel), (by decide +kernel), (by decide +kernel), (by decide +kernel), (by decide +kernel), (by decide +kernel)⟩,
    ⟨(withChip open4), 0, (chipHdr 1 0 5), ((0 : Nat)), ⟨(by decide +kernel), (by decide +kernel), (by decide +kernel)⟩, (by decide +kernel), (by decide +kernel), (by decide +kernel), (by decide +kernel), (by decide +kernel), (by decide +kernel), (by decide +kernel), (by decide +kernel), (by decide +kernel), (by decide +kernel), (by decide +kernel)⟩,
    ⟨(withChip { open4 with fs := { rxSeq := 7 } }), 0, (chipHdr 1 0 5), ((0 : Nat)), ⟨(by decide +kernel), (by decide +kernel), (by decide +kernel)⟩, (by decide +kernel), (by decide +kernel), (by decide +kernel), (by decide +kernel), (by decide +kernel), (by decide +kernel), (by decide +kernel), (by decide +kernel), (by decide +kernel), (by decide +kernel), (by decide +kernel)⟩,
    ⟨(withChip open4), 0, (chipHdr 2 0 0), ((0 : Nat)), ((cKeyOf (withChip open4) 0 0 false).1), ((cKeyOf (withChip open4) 0 0 false).2), ⟨(by decide +kernel), (by decide +kernel), (by decide +kernel)⟩, (by decide +kernel), (by decide +kernel), (by decide +kernel), (by decide +kernel), (by decide +kernel), (by decide +kernel), (by decide +kernel), (by decide +kernel), (by decide +kernel), (by decide +kernel), (by decide +kernel), is_ok (by decide +kernel), (by decide +kernel)⟩,
    ⟨(withChip open4), 0, chipSealed, ((0 : Nat)), ((cKeyOf (withChip open4) 0 0 false).1), ((cKeyOf (withChip open4) 0 0 false).2), ((List.replicate 224 0#8)), ⟨(by decide +kernel), (by decide +kernel), (by decide +kernel)⟩, (by decide +kernel), (by decide +kernel), (by decide +kernel), (by decide +kernel), (by decide +kernel), (by decide +kernel), (by decide +kernel), (by decide +kernel), (by decide +kernel), (by decide +kernel), (by decide +kernel), is_ok (by decide +kernel), (by decide +kernel)⟩,
    ⟨(withChip open4), 0, chipSealed, ((0 : Nat)), ((cKeyOf (withChip open4) 0 0 false).1), ((cKeyOf (withChip open4) 0 0 false).2), ((List.replicate 224 0#8)), ⟨(by decide +kernel), (by decide +kernel), (by decide +kernel)⟩, (by decide +kernel), (by decide +kernel), (by decide +kernel), (by decide +kernel), (by decide +kernel), (by decide +kernel), (by decide +kernel), (by decide +kernel), (by decide +kernel), (by decide +kernel), (by decide +kernel), is_ok (by decide +kernel), (by decide +kernel), (by decide +kernel)⟩,
    ⟨(withChip { open4 with standby := 2 }), 0, ([]), ⟨(by decide +kernel), (by decide +kernel), (by decide +kernel)⟩, (by decide +kernel), (by decide +kernel), (by decide +kernel), (by decide +kernel)⟩,
    ⟨(withChip { open4 with standby := 2 }), 0, ⟨(by decide +kernel), (by decide +kernel), (by decide +kernel)⟩, (by decide +kernel), (by decide +kernel), (by decide +kernel)⟩,
    ⟨(withChip open4), 0, ((cKeyOf (withChip open4) 0 0 true).1), ⟨(by decide +kernel), (by decide +kernel), (by decide +kernel)⟩, ⟨(by decide +kernel), (by decide +kernel), (by decide +kernel), (by decide +kernel), (by decide +kernel), (by decide +kernel), (by decide +kernel), cKey_of (by decide +kernel)⟩, (by decide +kernel)⟩,
    ⟨(withChip { open4 with standby := 2 }), 0, ((cKeyOf (withChip { open4 with standby := 2 }) 0 0 true).1), ⟨(by decide +kernel), (by decide +kernel), (by decide +kernel)⟩, ⟨(by decide +kernel), (by decide +kernel), (by decide +kernel), (by decide +kernel), (by decide +kernel), (by decide +kernel), (by decide +kernel), cKey_of (by decide +kernel)⟩, (by decide +kernel), (by decide +kernel), (by decide +kernel)⟩,
    ⟨(withChip { open4 with standby := 1, rx := [{ mtype := 7 }] }), 0, ({ mtype := 7 }), ([]), ⟨(by decide +kernel), (by decide +kernel), (by decide +kernel)⟩, (by decide +kernel), (by decide +kernel), (by decide +kernel), (by decide +kernel)⟩,
    ⟨up, 7, ⟨(by decide +kernel), (by decide +kernel), (by decide +kernel)⟩, (by decide +kernel)⟩,
    ⟨(withChip { open4 with standby := 1 }), 0, ⟨(by decide +kernel), (by decide +kernel), (by decide +kernel)⟩, (by decide +kernel)⟩,
    ⟨(withChip { open4 with retryDue := true }), 0, ⟨(by decide +kernel), (by decide +kernel), (by decide +kernel)⟩, (by decide +kernel), (by decide +kernel), (by decide +kernel)⟩,
    ⟨up, 7, ⟨(by decide +kernel), (by decide +kernel), (by decide +kernel)⟩, (by decide +kernel)⟩,
    ⟨({ withChip { open4 with standby := 2 } with power := { state := 2 } }), 0, ⟨(by decide +kernel), (by decide +kernel), (by decide +kernel)⟩, (by decide +kernel), (by decide +kernel), (by decide +kernel)⟩,
    ⟨(withChip { open4 with standby := 3 }), 0, ⟨(by decide +kernel), (by decide +kernel), (by decide +kernel)⟩, (by decide +kernel), (by decide +kernel)⟩,
    ⟨up, 7, ⟨(by decide +kernel), (by decide +kernel), (by decide +kernel)⟩, (by decide +kernel)⟩⟩

theorem witness_HostSessionsAndStreams :
    (∃ (s : State) (h : Nat) (i : Nat), (hasHost s h) ∧ (s.slotUp h i = false)) ∧
    (∃ (s : State) (h : Nat) (i : Nat), (hasHost s h) ∧ (s.slotUp h i = true)) ∧
    (∃ (s : State) (h : Nat) (i : Nat) (stream : _) (sub : _) (set : _) (key : Bytes), (hasHost s h) ∧ (s.slotUp h i = true) ∧ ((s.boundLeaf (s.hslot i) = true ∧ sub < 3 ∧ set < 2 ∧ stream < 256 ∧ ((s.hslot i).stream = none ∨ (s.hslot i).stream = some stream) ∧ key.length = 32 ∧ ∀ kv ∈ s.slots, kv.1 ≠ i → kv.2.held = true → kv.2.port = h → kv.2.stream ≠ some stream)) ∧ ((s.usable (s.hslot i).leaf = true ∧ (s.slot (s.hslot i).leaf).use.testBit 5 = true))) ∧
    (∃ (s : State) (h : Nat) (i : Nat) (stream : _) (sub : _) (set : _) (key : Bytes), (hasHost s h) ∧ (s.slotUp h i = true) ∧ ((s.boundLeaf (s.hslot i) = true ∧ sub < 3 ∧ set < 2 ∧ stream < 256 ∧ ((s.hslot i).stream = none ∨ (s.hslot i).stream = some stream) ∧ key.length = 32 ∧ ∀ kv ∈ s.slots, kv.1 ≠ i → kv.2.held = true → kv.2.port = h → kv.2.stream ≠ some stream)) ∧ (¬ (s.usable (s.hslot i).leaf = true ∧ (s.slot (s.hslot i).leaf).use.testBit 5 = true))) ∧
    (∃ (s : State) (h : Nat) (i : Nat) (stream : _) (sub : _) (set : _) (key : Bytes), (hasHost s h) ∧ (s.slotUp h i = true) ∧ (¬ (s.boundLeaf (s.hslot i) = true ∧ sub < 3 ∧ set < 2 ∧ stream < 256 ∧ ((s.hslot i).stream = none ∨ (s.hslot i).stream = some stream) ∧ key.length = 32 ∧ ∀ kv ∈ s.slots, kv.1 ≠ i → kv.2.held = true → kv.2.port = h → kv.2.stream ≠ some stream))) ∧
    (∃ (s : State) (h : Nat) (i : Nat) (stream : _) (set : _), (hasHost s h) ∧ (s.slotUp h i = true) ∧ ((s.hslot i).stream = some stream) ∧ ((∀ sub rx, sub < 3 → tblFind (s.hslot i).cells (ideCell sub rx set) ≠ none))) ∧
    (∃ (s : State) (h : Nat) (i : Nat) (stream : _) (set : _), (hasHost s h) ∧ (s.slotUp h i = true) ∧ ((s.hslot i).stream = some stream) ∧ (¬ (∀ sub rx, sub < 3 → tblFind (s.hslot i).cells (ideCell sub rx set) ≠ none))) ∧
    (∃ (s : State) (h : Nat) (i : Nat) (stream : _), (hasHost s h) ∧ (s.slotUp h i = true) ∧ ((s.hslot i).stream = some stream)) ∧
    (∃ (s : State) (h : Nat) (fn : Nat) (a : Nat), (hasHost s h) ∧ ((0x200 ≤ a ∧ a < 0x300 ∧ fn ≤ 256)) ∧ (¬ (fn = 0 ∧ (doeControl ≤ a ∧ a ≤ doeReadMailbox ∨ a = ideCap ∨ a = ideCap + 1 ∨ ∃ b, b < ideBlocks ∧ (a = ideBlock b ∨ a = ideBlock b + 2))))) ∧
    (∃ (s : State) (h : Nat), (hasHost s h)) ∧
    (∃ (s : State) (h : Nat) (d : Nat) (be : Nat), (hasHost s h) ∧ ((enableBytes 4 be 0 d % 2 ^ 32).testBit 0 = true)) ∧
    (∃ (s : State) (h : Nat) (d : Nat) (be : Nat), (hasHost s h) ∧ ((enableBytes 4 be 0 d % 2 ^ 32).testBit 0 = false) ∧ ((enableBytes 4 be 0 d % 2 ^ 32).testBit 31 = true) ∧ ((s.host h).doeIn ≠ [])) ∧
    (∃ (s : State) (h : Nat) (b : _), (hasHost s h) ∧ (b < ideBlocks)) ∧
    (∃ (s : State) (h : Nat) (fn : Nat) (a : Nat), (hasHost s h) ∧ (¬ (0x200 ≤ a ∧ a < 0x300 ∧ fn ≤ 256))) :=
  ⟨⟨up, 0, 3, ⟨(by decide +kernel), ⟨⟨(by decide +kernel), (by decide +kernel)⟩, ⟨(by decide +kernel), (by decide +kernel)⟩⟩, (by decide +kernel)⟩, (by decide +kernel)⟩,
    ⟨(withTdi (tdi6 0)), 0, 3, ⟨(by decide +kernel), ⟨⟨(by decide +kernel), (by decide +kernel)⟩, ⟨(by decide +kernel), (by decide +kernel)⟩⟩, (by decide +kernel)⟩, (by decide +kernel)⟩,
    ⟨(withTdi (tdi6 0)), 0, 3, ((4 : Nat)), ((2 : Nat)), ((1 : Nat)), ((List.replicate 32 1#8 : Bytes)), ⟨(by decide +kernel), ⟨⟨(by decide +kernel), (by decide +kernel)⟩, ⟨(by decide +kernel), (by decide +kernel)⟩⟩, (by decide +kernel)⟩, (by decide +kernel), (by decide +kernel), (by decide +kernel)⟩,
    ⟨({ withTdi (tdi6 0) with keys := { slots := tblPut slots0 4 { slotOf 6 0x41 with use := 0x1F } } }), 0, 3, ((4 : Nat)), ((2 : Nat)), ((1 : Nat)), ((List.replicate 32 1#8 : Bytes)), ⟨(by decide +kernel), ⟨⟨(by decide +kernel), (by decide +kernel)⟩, ⟨(by decide +kernel), (by decide +kernel)⟩⟩, (by decide +kernel)⟩, (by decide +kernel), (by decide +kernel), (by decide +kernel)⟩,
    ⟨(withTdi (tdi6 0)), 0, 3, ((5 : Nat)), ((2 : Nat)), ((1 : Nat)), ((List.replicate 32 1#8 : Bytes)), ⟨(by decide +kernel), ⟨⟨(by decide +kernel), (by decide +kernel)⟩, ⟨(by decide +kernel), (by decide +kernel)⟩⟩, (by decide +kernel)⟩, (by decide +kernel), (by decide +kernel)⟩,
    ⟨({ withTdi (tdi6 0) with slots := [(3, { hslot3 with cells := [(0, [1#8]), (2, [1#8]), (4, [1#8]), (6, [1#8]), (8, [1#8]), (10, [1#8])] })] }), 0, 3, ((4 : Nat)), ((0 : Nat)), ⟨(by decide +kernel), ⟨⟨(by decide +kernel), (by decide +kernel)⟩, ⟨(by decide +kernel), (by decide +kernel)⟩⟩, (by decide +kernel)⟩, (by decide +kernel), (by decide +kernel), fun sub rx h => by
    rcases (show sub = 0 ∨ sub = 1 ∨ sub = 2 by omega) with rfl | rfl | rfl <;> cases rx <;> decide +kernel⟩,
    ⟨(withTdi (tdi6 0)), 0, 3, ((4 : Nat)), ((0 : Nat)), ⟨(by decide +kernel), ⟨⟨(by decide +kernel), (by decide +kernel)⟩, ⟨(by decide +kernel), (by decide +kernel)⟩⟩, (by decide +kernel)⟩, (by decide +kernel), (by decide +kernel), fun h => absurd rfl (h 0 false (by decide))⟩,
    ⟨(withTdi (tdi6 0)), 0, 3, ((4 : Nat)), ⟨(by decide +kernel), ⟨⟨(by decide +kernel), (by decide +kernel)⟩, ⟨(by decide +kernel), (by decide +kernel)⟩⟩, (by decide +kernel)⟩, (by decide +kernel), (by decide +kernel)⟩,
    ⟨up, 0, 256, 0x200, ⟨(by decide +kernel), ⟨⟨(by decide +kernel), (by decide +kernel)⟩, ⟨(by decide +kernel), (by decide +kernel)⟩⟩, (by decide +kernel)⟩, (by decide +kernel), (by decide +kernel)⟩,
    ⟨up, 0, ⟨(by decide +kernel), ⟨⟨(by decide +kernel), (by decide +kernel)⟩, ⟨(by decide +kernel), (by decide +kernel)⟩⟩, (by decide +kernel)⟩⟩,
    ⟨up, 0, 1, 15, ⟨(by decide +kernel), ⟨⟨(by decide +kernel), (by decide +kernel)⟩, ⟨(by decide +kernel), (by decide +kernel)⟩⟩, (by decide +kernel)⟩, (by decide +kernel)⟩,
    ⟨({ up with hosts := [(0, { doeIn := [7] })] }), 0, (2 ^ 31), 15, ⟨(by decide +kernel), ⟨⟨(by decide +kernel), (by decide +kernel)⟩, ⟨(by decide +kernel), (by decide +kernel)⟩⟩, (by decide +kernel)⟩, (by decide +kernel), (by decide +kernel), (by decide +kernel)⟩,
    ⟨up, 0, ((15 : Nat)), ⟨(by decide +kernel), ⟨⟨(by decide +kernel), (by decide +kernel)⟩, ⟨(by decide +kernel), (by decide +kernel)⟩⟩, (by decide +kernel)⟩, (by decide +kernel)⟩,
    ⟨up, 0, 0, 0x300, ⟨(by decide +kernel), ⟨⟨(by decide +kernel), (by decide +kernel)⟩, ⟨(by decide +kernel), (by decide +kernel)⟩⟩, (by decide +kernel)⟩, (by decide +kernel)⟩⟩

theorem witness_TdisAndHostTlps :
    (∃ (s : State) (h : Nat) (i : Nat) (n : Nat), (hasHost s h) ∧ (mine s h i n) ∧ ((s.tdi (tdiKey h n)).state = 0) ∧ ((s.tdi (tdiKey h n)).stopping = false) ∧ ((1 ≤ (s.tdi (tdiKey h n)).ctxCount ∧ (s.hslot i).secure = true ∧ ∀ c, (s.tdi (tdiKey h n)).ctxBase ≤ c → c < (s.tdi (tdiKey h n)).ctxBase + (s.tdi (tdiKey h n)).ctxCount → (s.ctx c).state ≠ 0 ∧ (s.ctx c).part = (s.tdi (tdiKey h n)).part ∧ ∀ kv ∈ s.tdis, kv.1 ≠ (tdiKey h n) → kv.2.state ≠ 0 → kv.2.names c = false))) ∧
    (∃ (s : State) (h : Nat) (i : Nat) (n : Nat), (hasHost s h) ∧ (mine s h i n) ∧ ((s.tdi (tdiKey h n)).state = 0) ∧ ((s.tdi (tdiKey h n)).stopping = false) ∧ (¬ (1 ≤ (s.tdi (tdiKey h n)).ctxCount ∧ (s.hslot i).secure = true ∧ ∀ c, (s.tdi (tdiKey h n)).ctxBase ≤ c → c < (s.tdi (tdiKey h n)).ctxBase + (s.tdi (tdiKey h n)).ctxCount → (s.ctx c).state ≠ 0 ∧ (s.ctx c).part = (s.tdi (tdiKey h n)).part ∧ ∀ kv ∈ s.tdis, kv.1 ≠ (tdiKey h n) → kv.2.state ≠ 0 → kv.2.names c = false))) ∧
    (∃ (s : State) (h : Nat) (i : Nat) (n : Nat), (hasHost s h) ∧ (mine s h i n) ∧ ((s.tdi (tdiKey h n)).state = 1) ∧ ((s.tdi (tdiKey h n)).stopping = false)) ∧
    (∃ (s : State) (h : Nat) (i : Nat) (n : Nat), (hasHost s h) ∧ (mine s h i n) ∧ ((s.tdi (tdiKey h n)).state = 1 ∨ (s.tdi (tdiKey h n)).state = 2) ∧ ((s.tdi (tdiKey h n)).stopping = false)) ∧
    (∃ (s : State) (h : Nat) (i : Nat) (n : Nat), (hasHost s h) ∧ (mine s h i n) ∧ ((s.tdi (tdiKey h n)).state = 1 ∨ (s.tdi (tdiKey h n)).state = 2 ∨ (s.tdi (tdiKey h n)).state = 3) ∧ ((s.tdi (tdiKey h n)).stopping = false) ∧ (tblRising s.tdis = true)) ∧
    (∃ (s : State) (h : Nat) (i : Nat) (n : Nat), (hasHost s h) ∧ (mine s h i n)) ∧
    (∃ (s : State) (h : Nat) (i : Nat) (n : Nat), (hasHost s h) ∧ (mine s h i n) ∧ ((s.tdi (tdiKey h n)).state ≠ 0 ∨ (s.tdi (tdiKey h n)).stopping = true)) ∧
    (∃ (s : State) (h : Nat) (i : Nat) (n : Nat), (hasHost s h) ∧ (mine s h i n) ∧ ((s.tdi (tdiKey h n)).state ≠ 1 ∨ (s.tdi (tdiKey h n)).stopping = true)) ∧
    (∃ (s : State) (h : Nat) (i : Nat) (n : Nat), (hasHost s h) ∧ (mine s h i n) ∧ ((s.tdi (tdiKey h n)).state = 0 ∨ (s.tdi (tdiKey h n)).stopping = true)) ∧
    (∃ (s : State) (h : Nat) (i : Nat) (n : Nat) (c : _), (hasHost s h) ∧ (n < 256) ∧ (¬ mine s h i n) ∧ (c ∈ [Instr.lockInterface h i n, .startInterface h i n, .stopInterface h i n, .getDeviceInterfaceReport h i n, .getDeviceInterfaceState h i n])) ∧
    (∃ (s : State) (m : Mgmt) (i : Nat) (j : Nat) (b : Bytes), (granted s m i j b) ∧ (0x3330 ≤ i) ∧ (i ≤ 0x3337) ∧ ((i - 0x3330) / 2 < s.cfg.hostPorts) ∧ ((s.tdi (tdiKey ((i - 0x3330) / 2) (128 * ((i - 0x3330) % 2) + j - 1))).state ≠ 0)) ∧
    (∃ (s : State) (m : Mgmt) (i : Nat) (j : Nat) (b : Bytes), (granted s m i j b) ∧ (0x3330 ≤ i) ∧ (i ≤ 0x3337) ∧ ((i - 0x3330) / 2 < s.cfg.hostPorts) ∧ ((s.tdi (tdiKey ((i - 0x3330) / 2) (128 * ((i - 0x3330) % 2) + j - 1))).state = 0) ∧ (¬ (bits (leNat b) 44 38 ≤ 64 ∧ bits (leNat b) 37 24 + bits (leNat b) 44 38 ≤ s.cfg.contexts ∧ bits (leNat b) 21 16 < s.cfg.partitions))) ∧
    (∃ (s : State) (m : Mgmt) (i : Nat) (j : Nat) (b : Bytes), (granted s m i j b) ∧ (0x3330 ≤ i) ∧ (i ≤ 0x3337) ∧ ((i - 0x3330) / 2 < s.cfg.hostPorts) ∧ ((s.tdi (tdiKey ((i - 0x3330) / 2) (128 * ((i - 0x3330) % 2) + j - 1))).state = 0) ∧ ((bits (leNat b) 44 38 ≤ 64 ∧ bits (leNat b) 37 24 + bits (leNat b) 44 38 ≤ s.cfg.contexts ∧ bits (leNat b) 21 16 < s.cfg.partitions))) ∧
    (∃ (s : State) (h : Nat) (t : Tlp), (s.cfg.legal = true) ∧ (hasHost s h) ∧ (t.malformed = true)) ∧
    (∃ (s : State) (h : Nat) (t : Tlp) (x : _) (i : _) (k : _) (key : Bytes), (s.cfg.legal = true) ∧ (hasHost s h) ∧ (t.malformed = false) ∧ (t.stream = some x) ∧ ((s.slots.find? fun kv => kv.2.held && kv.2.port = h && kv.2.stream = some x) = some (i, k)) ∧ (s.hslot i = k) ∧ (k.secure = true) ∧ (s.ideKey k (if t.posted then subPr else subNpr) true = some key) ∧ (ideMac key (tblGet k.rxCount (if t.posted then subPr else subNpr) 0) (ideHeader (bn t.write) t.fn t.addr t.be t.tag x t.data.length t.tbit) t.data ≠ t.mac)) ∧
    (∃ (s : State) (h : Nat) (t : Tlp) (x : _), (s.cfg.legal = true) ∧ (hasHost s h) ∧ (t.malformed = false) ∧ (t.stream = some x) ∧ (s.streamSlot h x = none) ∧ (¬ (1 ≤ t.fn ∧ t.fn ≤ 256 ∧ (s.tdi (tdiKey h (t.fn - 1))).state = 2))) ∧
    (∃ (s : State) (h : Nat) (t : Tlp) (text : _) (u : _), (s.cfg.legal = true) ∧ (hasHost s h) ∧ (t.malformed = false) ∧ ((t.stream = none → text = t.data ∧ u = s)) ∧ ((∀ x, t.stream = some x → s.ideCheck h t = (.passed text, u))) ∧ ((1 ≤ t.fn ∧ t.fn ≤ 256 ∧ (s.tdi (tdiKey h (t.fn - 1))).state = 2)) ∧ (¬ (t.stream = some (s.tdi (tdiKey h (t.fn - 1))).stream ∧ t.tbit = true))) ∧
    (∃ (s : State) (h : Nat) (t : Tlp) (text : _) (u : _) (q : _) (n : _), (s.cfg.legal = true) ∧ (hasHost s h) ∧ (t.malformed = false) ∧ ((t.stream = none → text = t.data ∧ u = s)) ∧ ((∀ x, t.stream = some x → s.ideCheck h t = (.passed text, u))) ∧ (((1 ≤ t.fn ∧ t.fn ≤ 256 ∧ (s.tdi (tdiKey h (t.fn - 1))).state = 2) → (t.stream = some (s.tdi (tdiKey h (t.fn - 1))).stream ∧ t.tbit = true))) ∧ (t.addr = 8 * q) ∧ (q < 2 ^ 18) ∧ (t.be = 0xFF) ∧ (t.write = true) ∧ (leNat text < 2 ^ 64) ∧ (q < s.cfg.queues) ∧ (s.ownerOf q = some n) ∧ (s.reaches h t.fn n = true)) ∧
    (∃ (s : State) (h : Nat) (t : Tlp) (text : _) (u : _) (q : _) (n : _), (s.cfg.legal = true) ∧ (hasHost s h) ∧ (t.malformed = false) ∧ ((t.stream = none → text = t.data ∧ u = s)) ∧ ((∀ x, t.stream = some x → s.ideCheck h t = (.passed text, u))) ∧ (((1 ≤ t.fn ∧ t.fn ≤ 256 ∧ (s.tdi (tdiKey h (t.fn - 1))).state = 2) → (t.stream = some (s.tdi (tdiKey h (t.fn - 1))).stream ∧ t.tbit = true))) ∧ (t.addr = 8 * q) ∧ (q < 2 ^ 18) ∧ (t.be = 0xFF) ∧ (t.write = false) ∧ (q < s.cfg.queues) ∧ (s.ownerOf q = some n) ∧ (s.reaches h t.fn n = true)) ∧
    (∃ (s : State) (h : Nat) (t : Tlp) (text : _) (u : _) (q : _), (s.cfg.legal = true) ∧ (hasHost s h) ∧ (t.malformed = false) ∧ ((t.stream = none → text = t.data ∧ u = s)) ∧ ((∀ x, t.stream = some x → s.ideCheck h t = (.passed text, u))) ∧ (((1 ≤ t.fn ∧ t.fn ≤ 256 ∧ (s.tdi (tdiKey h (t.fn - 1))).state = 2) → (t.stream = some (s.tdi (tdiKey h (t.fn - 1))).stream ∧ t.tbit = true))) ∧ (t.addr = 8 * q) ∧ (q < 2 ^ 18) ∧ (t.be = 0xFF) ∧ (s.cfg.queues ≤ q ∨ (∀ n, s.ownerOf q = some n → s.reaches h t.fn n = false))) ∧
    (∃ (s : State) (h : Nat) (c : Instr), (h < s.cfg.hostPorts) ∧ (calm s) ∧ (s.fclk = false) ∧ ((∃ tag code data, c = .hostDmaCompletion h tag code data) ∨ s.faults.phase = 0 ∧ (∃ t, c = .hostTlp h t))) ∧
    (∃ (s : State) (h : Nat) (tag : Nat), (h < s.cfg.hostPorts) ∧ (calm s) ∧ (inS0 s) ∧ (tblFind (s.host h).dma tag = none)) ∧
    (∃ (s : State) (h : Nat) (tag : Nat) (d : _), (h < s.cfg.hostPorts) ∧ (calm s) ∧ (inS0 s) ∧ (tblFind (s.host h).dma tag = some d) ∧ ((s.host h).dmaWaiting = []) ∧ (d.lost = true)) ∧
    (∃ (s : State) (h : Nat) (tag : Nat) (d : _), (h < s.cfg.hostPorts) ∧ (calm s) ∧ (inS0 s) ∧ (tblFind (s.host h).dma tag = some d) ∧ ((s.host h).dmaWaiting = []) ∧ (d.lost = false) ∧ (s.tdiOf d.ctx = none)) ∧
    (∃ (s : State) (h : Nat) (tag : Nat) (code : Nat) (data : Bytes) (d : _) (k : _) (t : _), (h < s.cfg.hostPorts) ∧ (calm s) ∧ (inS0 s) ∧ (tblFind (s.host h).dma tag = some d) ∧ ((s.host h).dmaWaiting = []) ∧ (d.lost = false) ∧ (s.tdiOf d.ctx = some (k, t)) ∧ (t.state ≠ 2 ∨ (((s.modHost h fun p => { p with dma := tblDel p.dma tag }).touch 7 h).ideOpen h t.stream subCpl (ideHeader 2 (k % 256 + 1) 0 code tag t.stream (data.take (data.length - 12)).length true) (data.take (data.length - 12)) (data.drop (data.length - 12))).1 = .unknown)) ∧
    (∃ (s : State) (h : Nat) (tag : Nat) (code : Nat) (data : Bytes) (d : _) (k : _) (t : _), (h < s.cfg.hostPorts) ∧ (calm s) ∧ (inS0 s) ∧ (tblFind (s.host h).dma tag = some d) ∧ ((s.host h).dmaWaiting = []) ∧ (d.lost = false) ∧ (s.tdiOf d.ctx = some (k, t)) ∧ (t.state = 2) ∧ ((((s.modHost h fun p => { p with dma := tblDel p.dma tag }).touch 7 h).ideOpen h t.stream subCpl (ideHeader 2 (k % 256 + 1) 0 code tag t.stream (data.take (data.length - 12)).length true) (data.take (data.length - 12)) (data.drop (data.length - 12))).1 = .failed)) ∧
    (∃ (s : State) (h : Nat) (tag : Nat) (code : Nat) (data : Bytes) (d : _) (k : _) (t : _) (text : _), (h < s.cfg.hostPorts) ∧ (calm s) ∧ (inS0 s) ∧ (tblFind (s.host h).dma tag = some d) ∧ ((s.host h).dmaWaiting = []) ∧ (d.lost = false) ∧ (s.tdiOf d.ctx = some (k, t)) ∧ (t.state = 2) ∧ ((((s.modHost h fun p => { p with dma := tblDel p.dma tag }).touch 7 h).ideOpen h t.stream subCpl (ideHeader 2 (k % 256 + 1) 0 code tag t.stream (data.take (data.length - 12)).length true) (data.take (data.length - 12)) (data.drop (data.length - 12))).1 = .passed text) ∧ (codeOf code = .ok)) ∧
    (∃ (s : State) (h : Nat) (tag : Nat) (code : Nat) (data : Bytes) (d : _) (k : _) (t : _) (text : _), (h < s.cfg.hostPorts) ∧ (calm s) ∧ (inS0 s) ∧ (tblFind (s.host h).dma tag = some d) ∧ ((s.host h).dmaWaiting = []) ∧ (d.lost = false) ∧ (s.tdiOf d.ctx = some (k, t)) ∧ (t.state = 2) ∧ ((((s.modHost h fun p => { p with dma := tblDel p.dma tag }).touch 7 h).ideOpen h t.stream subCpl (ideHeader 2 (k % 256 + 1) 0 code tag t.stream (data.take (data.length - 12)).length true) (data.take (data.length - 12)) (data.drop (data.length - 12))).1 = .passed text) ∧ (codeOf code ≠ .ok)) :=
  ⟨⟨(withTdi (tdi6 0)), 0, 3, 0, ⟨(by decide +kernel), ⟨⟨(by decide +kernel), (by decide +kernel)⟩, ⟨(by decide +kernel), (by decide +kernel)⟩⟩, (by decide +kernel)⟩, ⟨(by decide +kernel), (by decide +kernel), (by decide +kernel)⟩, (by decide +kernel), (by decide +kernel), ⟨(by decide +kernel), (by decide +kernel), fun c h1 h2 => by
    rcases (show c = 6 from by have h3 := h1; have h4 := h2; revert h3 h4; show 6 ≤ c → c < 6 + 1 → c = 6; omega) with rfl; decide +kernel⟩⟩,
    ⟨(withTdi { tdi6 0 with ctxCount := 0 }), 0, 3, 0, ⟨(by decide +kernel), ⟨⟨(by decide +kernel), (by decide +kernel)⟩, ⟨(by decide +kernel), (by decide +kernel)⟩⟩, (by decide +kernel)⟩, ⟨(by decide +kernel), (by decide +kernel), (by decide +kernel)⟩, (by decide +kernel), (by decide +kernel), fun h => absurd h.1 (by decide +kernel)⟩,
    ⟨(withTdi (tdi6 1)), 0, 3, 0, ⟨(by decide +kernel), ⟨⟨(by decide +kernel), (by decide +kernel)⟩, ⟨(by decide +kernel), (by decide +kernel)⟩⟩, (by decide +kernel)⟩, ⟨(by decide +kernel), (by decide +kernel), (by decide +kernel)⟩, (by decide +kernel), (by decide +kernel)⟩,
    ⟨(withTdi (tdi6 2)), 0, 3, 0, ⟨(by decide +kernel), ⟨⟨(by decide +kernel), (by decide +kernel)⟩, ⟨(by decide +kernel), (by decide +kernel)⟩⟩, (by decide +kernel)⟩, ⟨(by decide +kernel), (by decide +kernel), (by decide +kernel)⟩, (by decide +kernel), (by decide +kernel)⟩,
    ⟨(withTdi (tdi6 3)), 0, 3, 0, ⟨(by decide +kernel), ⟨⟨(by decide +kernel), (by decide +kernel)⟩, ⟨(by decide +kernel), (by decide +kernel)⟩⟩, (by decide +kernel)⟩, ⟨(by decide +kernel), (by decide +kernel), (by decide +kernel)⟩, (by decide +kernel), (by decide +kernel), (by decide +kernel)⟩,
    ⟨(withTdi (tdi6 0)), 0, 3, 0, ⟨(by decide +kernel), ⟨⟨(by decide +kernel), (by decide +kernel)⟩, ⟨(by decide +kernel), (by decide +kernel)⟩⟩, (by decide +kernel)⟩, ⟨(by decide +kernel), (by decide +kernel), (by decide +kernel)⟩⟩,
    ⟨(withTdi (tdi6 2)), 0, 3, 0, ⟨(by decide +kernel), ⟨⟨(by decide +kernel), (by decide +kernel)⟩, ⟨(by decide +kernel), (by decide +kernel)⟩⟩, (by decide +kernel)⟩, ⟨(by decide +kernel), (by decide +kernel), (by decide +kernel)⟩, (by decide +kernel)⟩,
    ⟨(withTdi (tdi6 2)), 0, 3, 0, ⟨(by decide +kernel), ⟨⟨(by decide +kernel), (by decide +kernel)⟩, ⟨(by decide +kernel), (by decide +kernel)⟩⟩, (by decide +kernel)⟩, ⟨(by decide +kernel), (by decide +kernel), (by decide +kernel)⟩, (by decide +kernel)⟩,
    ⟨(withTdi (tdi6 0)), 0, 3, 0, ⟨(by decide +kernel), ⟨⟨(by decide +kernel), (by decide +kernel)⟩, ⟨(by decide +kernel), (by decide +kernel)⟩⟩, (by decide +kernel)⟩, ⟨(by decide +kernel), (by decide +kernel), (by decide +kernel)⟩, (by decide +kernel)⟩,
    ⟨(withTdi { tdi6 2 with slot := 2 }), 0, 3, 0, (Instr.getDeviceInterfaceState 0 3 0), ⟨(by decide +kernel), ⟨⟨(by decide +kernel), (by decide +kernel)⟩, ⟨(by decide +kernel), (by decide +kernel)⟩⟩, (by decide +kernel)⟩, (by decide +kernel), fun h => absurd h.2.2 (by decide +kernel), by simp⟩,
    ⟨(withTdi (tdi6 1)), ins, 0x3330, 1, (leBytes 16 (1 * 2 ^ 16 + 6 * 2 ^ 24 + 2 ^ 38)), granted_of (by decide +kernel), (by decide +kernel), (by decide +kernel), (by decide +kernel), (by decide +kernel)⟩,
    ⟨(withTdi (tdi6 0)), ins, 0x3330, 1, (leBytes 16 (1 * 2 ^ 16 + 65 * 2 ^ 38)), granted_of (by decide +kernel), (by decide +kernel), (by decide +kernel), (by decide +kernel), (by decide +kernel), (by decide +kernel)⟩,
    ⟨(withTdi (tdi6 0)), ins, 0x3330, 1, (leBytes 16 (1 * 2 ^ 16 + 6 * 2 ^ 24 + 2 ^ 38)), granted_of (by decide +kernel), (by decide +kernel), (by decide +kernel), (by decide +kernel), (by decide +kernel), (by decide +kernel)⟩,
    ⟨up, 0, ({ tlp 0 64 true with malformed := true }), (by decide +kernel), ⟨(by decide +kernel), ⟨⟨(by decide +kernel), (by decide +kernel)⟩, ⟨(by decide +kernel), (by decide +kernel)⟩⟩, (by decide +kernel)⟩, (by decide +kernel)⟩,
    ⟨ideRun, 0, ({ tlp 1 64 true with stream := some 4, mac := List.replicate 13 0#8 }), ((4 : Nat)), ((3 : Nat)), ideSlot, (ideKeyOf 0), (by decide +kernel), ⟨(by decide +kernel), ⟨⟨(by decide +kernel), (by decide +kernel)⟩, ⟨(by decide +kernel), (by decide +kernel)⟩⟩, (by decide +kernel)⟩, (by decide +kernel), (by decide +kernel), (by decide +kernel), (by decide +kernel), (by decide +kernel), (by decide +kernel), macTooLong⟩,
    ⟨up, 0, ({ tlp 0 64 true with stream := some 9 }), ((9 : Nat)), (by decide +kernel), ⟨(by decide +kernel), ⟨⟨(by decide +kernel), (by decide +kernel)⟩, ⟨(by decide +kernel), (by decide +kernel)⟩⟩, (by decide +kernel)⟩, (by decide +kernel), (by decide +kernel), (by decide +kernel), (by decide +kernel)⟩,
    ⟨(withTdi (tdi6 2)), 0, (tlp 1 64 true), (leBytes 8 5), (withTdi (tdi6 2)), (by decide +kernel), ⟨(by decide +kernel), ⟨⟨(by decide +kernel), (by decide +kernel)⟩, ⟨(by decide +kernel), (by decide +kernel)⟩⟩, (by decide +kernel)⟩, (by decide +kernel), fun _ => ⟨rfl, rfl⟩, fun x h => (nomatch h), (by decide +kernel), (by decide +kernel)⟩,
    ⟨(withTdi { tdi6 0 with ctxCount := 0 }), 0, (tlp 0 64 true), (leBytes 8 5), (withTdi { tdi6 0 with ctxCount := 0 }), ((8 : Nat)), ((6 : Nat)), (by decide +kernel), ⟨(by decide +kernel), ⟨⟨(by decide +kernel), (by decide +kernel)⟩, ⟨(by decide +kernel), (by decide +kernel)⟩⟩, (by decide +kernel)⟩, (by decide +kernel), fun _ => ⟨rfl, rfl⟩, fun x h => (nomatch h), (by decide +kernel), (by decide +kernel), (by decide +kernel), (by decide +kernel), (by decide +kernel), (by decide +kernel), (by decide +kernel), (by decide +kernel), (by decide +kernel)⟩,
    ⟨(withTdi { tdi6 0 with ctxCount := 0 }), 0, (tlp 0 64 false), (leBytes 8 5), (withTdi { tdi6 0 with ctxCount := 0 }), ((8 : Nat)), ((6 : Nat)), (by decide +kernel), ⟨(by decide +kernel), ⟨⟨(by decide +kernel), (by decide +kernel)⟩, ⟨(by decide +kernel), (by decide +kernel)⟩⟩, (by decide +kernel)⟩, (by decide +kernel), fun _ => ⟨rfl, rfl⟩, fun x h => (nomatch h), (by decide +kernel), (by decide +kernel), (by decide +kernel), (by decide +kernel), (by decide +kernel), (by decide +kernel), (by decide +kernel), (by decide +kernel)⟩,
    ⟨up, 0, (tlp 0 64 false), (leBytes 8 5), up, ((8 : Nat)), (by decide +kernel), ⟨(by decide +kernel), ⟨⟨(by decide +kernel), (by decide +kernel)⟩, ⟨(by decide +kernel), (by decide +kernel)⟩⟩, (by decide +kernel)⟩, (by decide +kernel), fun _ => ⟨rfl, rfl⟩, fun x h => (nomatch h), (by decide +kernel), (by decide +kernel), (by decide +kernel), (by decide +kernel), (by decide +kernel)⟩,
    ⟨({ up with power := { state := 3 } }), 0, (Instr.hostTlp 0 (tlp 0 64 true)), (by decide +kernel), ⟨(by decide +kernel), (by decide +kernel)⟩, (by decide +kernel), .inr ⟨rfl, _, rfl⟩⟩,
    ⟨up, 0, 1023, (by decide +kernel), ⟨(by decide +kernel), (by decide +kernel)⟩, ⟨(by decide +kernel), (by decide +kernel)⟩, (by decide +kernel)⟩,
    ⟨({ up with hosts := [(0, { dma := [(3, ⟨.none, 6, true⟩)] })] }), 0, 3, ((⟨.none, 6, true⟩ : DmaTag)), (by decide +kernel), ⟨(by decide +kernel), (by decide +kernel)⟩, ⟨(by decide +kernel), (by decide +kernel)⟩, (by decide +kernel), (by decide +kernel), (by decide +kernel)⟩,
    ⟨({ up with hosts := [(0, { dma := [(3, ⟨.none, 6, false⟩)] })] }), 0, 3, ((⟨.none, 6, false⟩ : DmaTag)), (by decide +kernel), ⟨(by decide +kernel), (by decide +kernel)⟩, ⟨(by decide +kernel), (by decide +kernel)⟩, (by decide +kernel), (by decide +kernel), (by decide +kernel), (by decide +kernel)⟩,
    ⟨({ ideRun with tdis := [(tdiKey 0 0, tdi6 0)] }), 0, 3, 0, ([]), ((⟨.none, 6, false⟩ : DmaTag)), (tdiKey 0 0), (tdi6 0), (by decide +kernel), ⟨(by decide +kernel), (by decide +kernel)⟩, ⟨(by decide +kernel), (by decide +kernel)⟩, (by decide +kernel), (by decide +kernel), (by decide +kernel), (by decide +kernel), .inl (by decide +kernel)⟩,
    ⟨ideRun, 0, 3, 0, ([]), ((⟨.none, 6, false⟩ : DmaTag)), (tdiKey 0 0), (tdi6 2), (by decide +kernel), ⟨(by decide +kernel), (by decide +kernel)⟩, ⟨(by decide +kernel), (by decide +kernel)⟩, (by decide +kernel), (by decide +kernel), (by decide +kernel), (by decide +kernel), (by decide +kernel), cpl_fails⟩,
    ⟨ideRun, 0, 3, 0, (cpl 0), ((⟨.none, 6, false⟩ : DmaTag)), (tdiKey 0 0), (tdi6 2), cplText, (by decide +kernel), ⟨(by decide +kernel), (by decide +kernel)⟩, ⟨(by decide +kernel), (by decide +kernel)⟩, (by decide +kernel), (by decide +kernel), (by decide +kernel), (by decide +kernel), (by decide +kernel), cpl_passes 0, (by decide +kernel)⟩,
    ⟨ideRun, 0, 3, 3, (cpl 3), ((⟨.none, 6, false⟩ : DmaTag)), (tdiKey 0 0), (tdi6 2), cplText, (by decide +kernel), ⟨(by decide +kernel), (by decide +kernel)⟩, ⟨(by decide +kernel), (by decide +kernel)⟩, (by decide +kernel), (by decide +kernel), (by decide +kernel), (by decide +kernel), (by decide +kernel), cpl_passes 3, (by decide +kernel)⟩⟩

theorem witness_SpdmNegotiationAndEvidence :
    (∃ (s : State) (p : Peer), (serves s p) ∧ (s.peerSession p = none) ∧ (s.asks p = false)) ∧
    (∃ (s : State) (p : Peer), (serves s p) ∧ (s.peerSession p = none) ∧ (s.asks p = false) ∧ ((s.conn p).stage = 1)) ∧
    (∃ (s : State) (p : Peer), (serves s p) ∧ (s.peerSession p = none) ∧ (s.asks p = false) ∧ ((s.conn p).stage ≠ 1)) ∧
    (∃ (s : State) (p : Peer), (serves s p) ∧ (s.peerSession p = none) ∧ (s.asks p = false) ∧ ((s.conn p).stage = 2)) ∧
    (∃ (s : State) (p : Peer), (serves s p) ∧ (s.peerSession p = none) ∧ (s.asks p = false) ∧ ((s.conn p).stage ≠ 2)) ∧
    (∃ (s : State) (p : Peer), (s.hasPeer p = true) ∧ (calm s) ∧ (s.bring.ready = false ∨ s.reachable p = false ∨ s.fw.fw = 2)) ∧
    (∃ (s : State) (p : Peer) (a : Nat) (b : Nat) (n : Bytes) (w : Bool) (c : _), (s.hasPeer p = true) ∧ (calm s) ∧ (serves s p) ∧ (s.life.state = .blank ∨ s.life.state = .endOfLife) ∧ (c ∈ [Instr.getCertificate p a b b, .challenge p a n, .getMeasurements p a w n, .keyExchange p n, .finish p w, .heartbeat p, .endSession p, .getPqSignature p, .getPqChain p a b])) ∧
    (∃ (s : State) (p : Peer) (a : Nat) (b : Nat) (n : Bytes) (w : Bool) (c : _), (s.hasPeer p = true) ∧ (calm s) ∧ (serves s p) ∧ (s.life.state ≠ .blank) ∧ (s.life.state ≠ .endOfLife) ∧ (s.fw.fw = 1) ∧ ((∀ k, s.peerSession p = some k → k.stage ≠ 4)) ∧ (c ∈ [Instr.getCertificate p a b b, .challenge p a n, .getMeasurements p a w n, .keyExchange p n, .getPqSignature p, .getPqChain p a b])) ∧
    (∃ (s : State) (p : Peer) (off : _), (servesAll s p) ∧ (agreed s p) ∧ (off < (s.servedChain false).length)) ∧
    (∃ (s : State) (p : Peer) (off : _), (servesAll s p) ∧ (agreed s p) ∧ ((s.servedChain false).length ≤ off)) ∧
    (∃ (s : State) (p : Peer) (slot : _), (servesAll s p) ∧ (agreed s p) ∧ (slot ≠ 0)) ∧
    (∃ (s : State) (p : Peer), (servesAll s p) ∧ (agreed s p) ∧ (draws s)) ∧
    (∃ (s : State) (p : Peer) (i : _) (blocks : _), (servesAll s p) ∧ (agreed s p) ∧ ((i = 0 ∧ blocks = [leBytes 1 (measIndices s.cfg ++ [0x60]).length] ∨ i = 0xFF ∧ blocks = (measIndices s.cfg ++ [0x60]).map (fun (i : Nat) => leBytes 1 i ++ leBytes 1 (measType i) ++ s.measBlock i) ∨ i ≠ 0 ∧ i ≠ 0xFF ∧ i ∈ (measIndices s.cfg ++ [0x60]) ∧ blocks = [(fun (i : Nat) => leBytes 1 i ++ leBytes 1 (measType i) ++ s.measBlock i) i]))) ∧
    (∃ (s : State) (p : Peer) (i : _) (blocks : _), (servesAll s p) ∧ (agreed s p) ∧ ((i = 0 ∧ blocks = [leBytes 1 (measIndices s.cfg ++ [0x60]).length] ∨ i = 0xFF ∧ blocks = (measIndices s.cfg ++ [0x60]).map (fun (i : Nat) => leBytes 1 i ++ leBytes 1 (measType i) ++ s.measBlock i) ∨ i ≠ 0 ∧ i ≠ 0xFF ∧ i ∈ (measIndices s.cfg ++ [0x60]) ∧ blocks = [(fun (i : Nat) => leBytes 1 i ++ leBytes 1 (measType i) ++ s.measBlock i) i])) ∧ (draws s)) ∧
    (∃ (s : State) (p : Peer) (i : _), (servesAll s p) ∧ (agreed s p) ∧ (i ≠ 0) ∧ (i ≠ 0xFF) ∧ (¬ i ∈ measIndices s.cfg ++ [0x60])) ∧
    (∃ (s : State) (p : Peer) (held : _) (r : _) (sig : _), (servesAll s p) ∧ (agreed s p) ∧ (held = (match s.peerSession p with | some k => k.heldPq | none => (s.conn p).heldPq)) ∧ (held = some (r, sig))) ∧
    (∃ (s : State) (p : Peer) (held : _), (servesAll s p) ∧ (agreed s p) ∧ (held = (match s.peerSession p with | some k => k.heldPq | none => (s.conn p).heldPq)) ∧ (held = none)) ∧
    (∃ (s : State) (p : Peer) (off : _) (len : _), (servesAll s p) ∧ (agreed s p) ∧ (len ≤ 4096) ∧ (off < (s.servedChain true).length)) ∧
    (∃ (s : State) (p : Peer) (off : _) (len : _), (servesAll s p) ∧ (agreed s p) ∧ (4096 < len ∨ (s.servedChain true).length ≤ off)) ∧
    (∃ (s : State) (p : Peer) (a : Nat) (b : Nat) (n : Bytes) (c : _), (servesAll s p) ∧ (¬ agreed s p) ∧ (c ∈ [Instr.getCertificate p a b b, .challenge p a n, .getMeasurements p a true n, .keyExchange p n, .getPqSignature p, .getPqChain p a b])) :=
  ⟨⟨up, (.mgmt none), ⟨(by decide +kernel), ⟨(by decide +kernel), (by decide +kernel)⟩, (by decide +kernel), (by decide +kernel), (by decide +kernel)⟩, (by decide +kernel), (by decide +kernel)⟩,
    ⟨(atStage 1), (.mgmt none), ⟨(by decide +kernel), ⟨(by decide +kernel), (by decide +kernel)⟩, (by decide +kernel), (by decide +kernel), (by decide +kernel)⟩, (by decide +kernel), (by decide +kernel), (by decide +kernel)⟩,
    ⟨up, (.mgmt none), ⟨(by decide +kernel), ⟨(by decide +kernel), (by decide +kernel)⟩, (by decide +kernel), (by decide +kernel), (by decide +kernel)⟩, (by decide +kernel), (by decide +kernel), (by decide +kernel)⟩,
    ⟨(atStage 2), (.mgmt none), ⟨(by decide +kernel), ⟨(by decide +kernel), (by decide +kernel)⟩, (by decide +kernel), (by decide +kernel), (by decide +kernel)⟩, (by decide +kernel), (by decide +kernel), (by decide +kernel)⟩,
    ⟨up, (.mgmt none), ⟨(by decide +kernel), ⟨(by decide +kernel), (by decide +kernel)⟩, (by decide +kernel), (by decide +kernel), (by decide +kernel)⟩, (by decide +kernel), (by decide +kernel), (by decide +kernel)⟩,
    ⟨({ up with bring := { up.bring with ready := false } }), (.mgmt none), (by decide +kernel), ⟨(by decide +kernel), (by decide +kernel)⟩, (by decide +kernel)⟩,
    ⟨blank, (.mgmt none), 0, 0, ([]), true, (Instr.getPqSignature (.mgmt none)), (by decide +kernel), ⟨(by decide +kernel), (by decide +kernel)⟩, ⟨(by decide +kernel), ⟨(by decide +kernel), (by decide +kernel)⟩, (by decide +kernel), (by decide +kernel), (by decide +kernel)⟩, (by decide +kernel), by simp⟩,
    ⟨({ up with fw := { fw := 1 } }), (.mgmt none), 0, 0, ([]), true, (Instr.getPqSignature (.mgmt none)), (by decide +kernel), ⟨(by decide +kernel), (by decide +kernel)⟩, ⟨(by decide +kernel), ⟨(by decide +kernel), (by decide +kernel)⟩, (by decide +kernel), (by decide +kernel), (by decide +kernel)⟩, (by decide +kernel), (by decide +kernel), (by decide +kernel), (fun k h => by cases h), by simp⟩,
    ⟨(atStage 3), (.mgmt none), ((0 : Nat)), ⟨⟨(by decide +kernel), ⟨(by decide +kernel), (by decide +kernel)⟩, (by decide +kernel), (by decide +kernel), (by decide +kernel)⟩, (by decide +kernel), (by decide +kernel), (by decide +kernel)⟩, Or.inr ⟨(by decide +kernel), (by decide +kernel)⟩, (by decide +kernel)⟩,
    ⟨(atStage 3), (.mgmt none), ((2 : Nat)), ⟨⟨(by decide +kernel), ⟨(by decide +kernel), (by decide +kernel)⟩, (by decide +kernel), (by decide +kernel), (by decide +kernel)⟩, (by decide +kernel), (by decide +kernel), (by decide +kernel)⟩, Or.inr ⟨(by decide +kernel), (by decide +kernel)⟩, (by decide +kernel)⟩,
    ⟨(atStage 3), (.mgmt none), ((1 : Nat)), ⟨⟨(by decide +kernel), ⟨(by decide +kernel), (by decide +kernel)⟩, (by decide +kernel), (by decide +kernel), (by decide +kernel)⟩, (by decide +kernel), (by decide +kernel), (by decide +kernel)⟩, Or.inr ⟨(by decide +kernel), (by decide +kernel)⟩, (by decide +kernel)⟩,
    ⟨(atStage 3), (.mgmt none), ⟨⟨(by decide +kernel), ⟨(by decide +kernel), (by decide +kernel)⟩, (by decide +kernel), (by decide +kernel), (by decide +kernel)⟩, (by decide +kernel), (by decide +kernel), (by decide +kernel)⟩, Or.inr ⟨(by decide +kernel), (by decide +kernel)⟩, ⟨(by decide +kernel), (by decide +kernel)⟩⟩,
    ⟨(atStage 3), (.mgmt none), ((0 : Nat)), ([leBytes 1 (measIndices (atStage 3).cfg ++ [0x60]).length]), ⟨⟨(by decide +kernel), ⟨(by decide +kernel), (by decide +kernel)⟩, (by decide +kernel), (by decide +kernel), (by decide +kernel)⟩, (by decide +kernel), (by decide +kernel), (by decide +kernel)⟩, Or.inr ⟨(by decide +kernel), (by decide +kernel)⟩, .inl ⟨rfl, rfl⟩⟩,
    ⟨(atStage 3), (.mgmt none), ((0 : Nat)), ([leBytes 1 (measIndices (atStage 3).cfg ++ [0x60]).length]), ⟨⟨(by decide +kernel), ⟨(by decide +kernel), (by decide +kernel)⟩, (by decide +kernel), (by decide +kernel), (by decide +kernel)⟩, (by decide +kernel), (by decide +kernel), (by decide +kernel)⟩, Or.inr ⟨(by decide +kernel), (by decide +kernel)⟩, .inl ⟨rfl, rfl⟩, ⟨(by decide +kernel), (by decide +kernel)⟩⟩,
    ⟨(atStage 3), (.mgmt none), ((0x61 : Nat)), ⟨⟨(by decide +kernel), ⟨(by decide +kernel), (by decide +kernel)⟩, (by decide +kernel), (by decide +kernel), (by decide +kernel)⟩, (by decide +kernel), (by decide +kernel), (by decide +kernel)⟩, Or.inr ⟨(by decide +kernel), (by decide +kernel)⟩, (by decide +kernel), (by decide +kernel), (by decide +kernel)⟩,
    ⟨(atStage 3), (.mgmt none), ((some (1, [9#8]) : Option (Nat × Bytes))), ((1 : Nat)), (([9#8] : Bytes)), ⟨⟨(by decide +kernel), ⟨(by decide +kernel), (by decide +kernel)⟩, (by decide +kernel), (by decide +kernel), (by decide +kernel)⟩, (by decide +kernel), (by decide +kernel), (by decide +kernel)⟩, Or.inr ⟨(by decide +kernel), (by decide +kernel)⟩, (by decide +kernel), (by decide +kernel)⟩,
    ⟨(sess3 5), (.mgmt (some 3)), ((none : Option (Nat × Bytes))), ⟨⟨(by decide +kernel), ⟨(by decide +kernel), (by decide +kernel)⟩, (by decide +kernel), (by decide +kernel), (by decide +kernel)⟩, (by decide +kernel), (by decide +kernel), (by decide +kernel)⟩, .inl (by decide +kernel), (by decide +kernel), (by decide +kernel)⟩,
    ⟨(atStage 3), (.mgmt none), ((0 : Nat)), ((4096 : Nat)), ⟨⟨(by decide +kernel), ⟨(by decide +kernel), (by decide +kernel)⟩, (by decide +kernel), (by decide +kernel), (by decide +kernel)⟩, (by decide +kernel), (by decide +kernel), (by decide +kernel)⟩, Or.inr ⟨(by decide +kernel), (by decide +kernel)⟩, (by decide +kernel), (by decide +kernel)⟩,
    ⟨(atStage 3), (.mgmt none), ((0 : Nat)), ((4097 : Nat)), ⟨⟨(by decide +kernel), ⟨(by decide +kernel), (by decide +kernel)⟩, (by decide +kernel), (by decide +kernel), (by decide +kernel)⟩, (by decide +kernel), (by decide +kernel), (by decide +kernel)⟩, Or.inr ⟨(by decide +kernel), (by decide +kernel)⟩, (by decide +kernel)⟩,
    ⟨up, (.mgmt none), 0, 0, ([]), (Instr.getPqSignature (.mgmt none)), ⟨⟨(by decide +kernel), ⟨(by decide +kernel), (by decide +kernel)⟩, (by decide +kernel), (by decide +kernel), (by decide +kernel)⟩, (by decide +kernel), (by decide +kernel), (by decide +kernel)⟩, by unfold agreed; decide +kernel, by simp⟩⟩

theorem witness_SpdmSessions :
    (∃ (s : State) (n : Nat), (servesAll s (.mgmt none)) ∧ ((s.conn (.mgmt none)).stage = 3) ∧ (n < 4) ∧ ((s.session n).spdm.stage = 0) ∧ ((∀ j, j < n → (s.session j).spdm.stage ≠ 0)) ∧ (draws s)) ∧
    (∃ (s : State), (servesAll s (.mgmt none)) ∧ ((s.conn (.mgmt none)).stage = 3) ∧ ((∀ j, j < 4 → (s.session j).spdm.stage ≠ 0))) ∧
    (∃ (s : State) (h : Nat) (i : Nat), (servesAll s (.host h none)) ∧ ((s.conn (.host h none)).stage = 3) ∧ (i < 64) ∧ (s.slotFree i = true) ∧ ((∀ j, j < i → s.slotFree j = false)) ∧ (draws s)) ∧
    (∃ (s : State) (h : Nat), (servesAll s (.host h none)) ∧ ((s.conn (.host h none)).stage = 3) ∧ ((∀ j, j < 64 → s.slotFree j = false))) ∧
    (∃ (s : State) (n : Nat), (servesAll s (.mgmt (some n))) ∧ (n < 4) ∧ (((s.session n).spdm.stage) = 4)) ∧
    (∃ (s : State) (n : Nat), (servesAll s (.mgmt (some n))) ∧ (n < 4) ∧ (((s.session n).spdm.stage) ≠ 4)) ∧
    (∃ (s : State) (n : Nat), (servesAll s (.mgmt (some n))) ∧ (n < 4) ∧ (((s.session n).spdm.stage) = 5)) ∧
    (∃ (s : State) (n : Nat), (servesAll s (.mgmt (some n))) ∧ (n < 4) ∧ (((s.session n).spdm.stage) ≠ 5)) ∧
    (∃ (s : State) (h : Nat) (i : Nat) (leaf : _), (servesAll s (.host h (some i))) ∧ ((s.hslot i).held = true) ∧ ((s.hslot i).port = h) ∧ ((s.hslot i).session.stage = 4) ∧ (s.freeLeaf = some leaf) ∧ ((s.slot leaf).state = 0) ∧ (s.usable rootSlot = true) ∧ (s.fertile rootSlot = true) ∧ (draws s)) ∧
    (∃ (s : State) (h : Nat) (i : Nat), (servesAll s (.host h (some i))) ∧ ((s.hslot i).held = true) ∧ ((s.hslot i).port = h) ∧ ((s.hslot i).session.stage = 4)) ∧
    (∃ (s : State) (h : Nat) (i : Nat), (servesAll s (.host h (some i))) ∧ ((s.hslot i).held = true) ∧ ((s.hslot i).port = h) ∧ ((s.hslot i).session.stage = 5)) ∧
    (∃ (s : State) (l : Nat), (servesAll s (.link l)) ∧ ((s.link l).session.stage = 5) ∧ ((s.link l).session.requester = false)) ∧
    (∃ (s : State) (l : Nat), (servesAll s (.link l)) ∧ ((s.link l).session.stage = 5) ∧ ((s.link l).session.requester = true)) ∧
    (∃ (s : State) (l : Nat) (i : _), (servesAll s (.link l)) ∧ ((s.link l).session.stage = 5) ∧ ((s.link l).slot = some i) ∧ ((s.link l).update = false) ∧ (i < 65536) ∧ (s.usable i = true) ∧ (s.fertile i = true) ∧ ((s.slot i).kind = 4) ∧ ((s.slot i).next = false) ∧ ((s.slot i).gen < 0xFFFFFFFE)) ∧
    (∃ (s : State) (c : Nat), (servesAll s (.chip c))) ∧
    (∃ (s : State) (c : Nat), (serves s (.chip c)) ∧ ((s.chip c).session.requester = true) ∧ (((s.chip c).session).stage = 0)) ∧
    (∃ (s : State) (c : Nat) (ec : _) (ok : _), (serves s (.chip c)) ∧ ((s.chip c).session.requester = true) ∧ (((s.chip c).session).stage = 1) ∧ (ok = true) ∧ (s.listed 0x3303 16 (sha384 ec) = true)) ∧
    (∃ (s : State) (c : Nat) (ec : _) (ok : _), (serves s (.chip c)) ∧ ((s.chip c).session.requester = true) ∧ (((s.chip c).session).stage = 1) ∧ (ok = false ∨ s.listed 0x3303 16 (sha384 ec) = false)) ∧
    (∃ (s : State) (c : Nat) (record : _) (a : _), (serves s (.chip c)) ∧ ((s.chip c).session.requester = true) ∧ (((s.chip c).session).stage = 2) ∧ (a = true) ∧ (s.listed 0x3304 64 (sha384 record) = true)) ∧
    (∃ (s : State) (c : Nat) (record : _) (a : _), (serves s (.chip c)) ∧ ((s.chip c).session.requester = true) ∧ (((s.chip c).session).stage = 2) ∧ (a = false ∨ s.listed 0x3304 64 (sha384 record) = false)) ∧
    (∃ (s : State) (c : Nat), (serves s (.chip c)) ∧ ((s.chip c).session.requester = true) ∧ (((s.chip c).session).stage = 3)) ∧
    (∃ (s : State) (c : Nat), (serves s (.chip c)) ∧ ((s.chip c).session.requester = true) ∧ (((s.chip c).session).stage = 3)) ∧
    (∃ (s : State) (c : Nat), (serves s (.chip c)) ∧ ((s.chip c).session.requester = true) ∧ (((s.chip c).session).stage = 3) ∧ (draws s)) ∧
    (∃ (s : State) (c : Nat), (serves s (.chip c)) ∧ ((s.chip c).session.requester = true) ∧ (((s.chip c).session).stage = 4)) ∧
    (∃ (s : State) (c : Nat), (serves s (.chip c)) ∧ ((s.chip c).session.requester = true) ∧ (((s.chip c).session).stage = 4) ∧ ((s.chip c).state ≠ 4)) ∧
    (∃ (s : State) (c : Nat), (serves s (.chip c)) ∧ ((s.chip c).session.requester = true) ∧ (((s.chip c).session).stage ≠ 0)) :=
  ⟨⟨({ atStage 3 with agent := up.agent }), 3, ⟨⟨(by decide +kernel), ⟨(by decide +kernel), (by decide +kernel)⟩, (by decide +kernel), (by decide +kernel), (by decide +kernel)⟩, (by decide +kernel), (by decide +kernel), (by decide +kernel)⟩, (by decide +kernel), (by decide +kernel), (by decide +kernel), (by decide +kernel), ⟨(by decide +kernel), (by decide +kernel)⟩⟩,
    ⟨({ atStage 3 with agent := { sessions := up.agent.sessions ++ [(3, { spdm := { stage := 5 } })] } }), ⟨⟨(by decide +kernel), ⟨(by decide +kernel), (by decide +kernel)⟩, (by decide +kernel), (by decide +kernel), (by decide +kernel)⟩, (by decide +kernel), (by decide +kernel), (by decide +kernel)⟩, (by decide +kernel), (by decide +kernel)⟩,
    ⟨(atStage 3), 0, 0, ⟨⟨(by decide +kernel), ⟨(by decide +kernel), (by decide +kernel)⟩, (by decide +kernel), (by decide +kernel), (by decide +kernel)⟩, (by decide +kernel), (by decide +kernel), (by decide +kernel)⟩, (by decide +kernel), (by decide +kernel), (by decide +kernel), (by decide +kernel), ⟨(by decide +kernel), (by decide +kernel)⟩⟩,
    ⟨({ atStage 3 with slots := (List.range 64).map fun j => (j, { held := true }) }), 0, ⟨⟨(by decide +kernel), ⟨(by decide +kernel), (by decide +kernel)⟩, (by decide +kernel), (by decide +kernel), (by decide +kernel)⟩, (by decide +kernel), (by decide +kernel), (by decide +kernel)⟩, (by decide +kernel), (by decide +kernel)⟩,
    ⟨(sess3 4), 3, ⟨⟨(by decide +kernel), ⟨(by decide +kernel), (by decide +kernel)⟩, (by decide +kernel), (by decide +kernel), (by decide +kernel)⟩, (by decide +kernel), (by decide +kernel), (by decide +kernel)⟩, (by decide +kernel), (by decide +kernel)⟩,
    ⟨(sess3 5), 3, ⟨⟨(by decide +kernel), ⟨(by decide +kernel), (by decide +kernel)⟩, (by decide +kernel), (by decide +kernel), (by decide +kernel)⟩, (by decide +kernel), (by decide +kernel), (by decide +kernel)⟩, (by decide +kernel), (by decide +kernel)⟩,
    ⟨(sess3 5), 3, ⟨⟨(by decide +kernel), ⟨(by decide +kernel), (by decide +kernel)⟩, (by decide +kernel), (by decide +kernel), (by decide +kernel)⟩, (by decide +kernel), (by decide +kernel), (by decide +kernel)⟩, (by decide +kernel), (by decide +kernel)⟩,
    ⟨(sess3 4), 3, ⟨⟨(by decide +kernel), ⟨(by decide +kernel), (by decide +kernel)⟩, (by decide +kernel), (by decide +kernel), (by decide +kernel)⟩, (by decide +kernel), (by decide +kernel), (by decide +kernel)⟩, (by decide +kernel), (by decide +kernel)⟩,
    ⟨(hostAt 4), 0, 3, ((0 : Nat)), ⟨⟨(by decide +kernel), ⟨(by decide +kernel), (by decide +kernel)⟩, (by decide +kernel), (by decide +kernel), (by decide +kernel)⟩, (by decide +kernel), (by decide +kernel), (by decide +kernel)⟩, (by decide +kernel), (by decide +kernel), (by decide +kernel), (by decide +kernel), (by decide +kernel), (by decide +kernel), (by decide +kernel), ⟨(by decide +kernel), (by decide +kernel)⟩⟩,
    ⟨(hostAt 4), 0, 3, ⟨⟨(by decide +kernel), ⟨(by decide +kernel), (by decide +kernel)⟩, (by decide +kernel), (by decide +kernel), (by decide +kernel)⟩, (by decide +kernel), (by decide +kernel), (by decide +kernel)⟩, (by decide +kernel), (by decide +kernel), (by decide +kernel)⟩,
    ⟨(hostAt 5), 0, 3, ⟨⟨(by decide +kernel), ⟨(by decide +kernel), (by decide +kernel)⟩, (by decide +kernel), (by decide +kernel), (by decide +kernel)⟩, (by decide +kernel), (by decide +kernel), (by decide +kernel)⟩, (by decide +kernel), (by decide +kernel), (by decide +kernel)⟩,
    ⟨(linkAt false), 0, ⟨⟨(by decide +kernel), ⟨(by decide +kernel), (by decide +kernel)⟩, (by decide +kernel), (by decide +kernel), (by decide +kernel)⟩, (by decide +kernel), (by decide +kernel), (by decide +kernel)⟩, (by decide +kernel), (by decide +kernel)⟩,
    ⟨(linkAt true), 0, ⟨⟨(by decide +kernel), ⟨(by decide +kernel), (by decide +kernel)⟩, (by decide +kernel), (by decide +kernel), (by decide +kernel)⟩, (by decide +kernel), (by decide +kernel), (by decide +kernel)⟩, (by decide +kernel), (by decide +kernel)⟩,
    ⟨(linkAt false), 0, ((5 : Nat)), ⟨⟨(by decide +kernel), ⟨(by decide +kernel), (by decide +kernel)⟩, (by decide +kernel), (by decide +kernel), (by decide +kernel)⟩, (by decide +kernel), (by decide +kernel), (by decide +kernel)⟩, (by decide +kernel), (by decide +kernel), (by decide +kernel), (by decide +kernel), (by decide +kernel), (by decide +kernel), (by decide +kernel), (by decide +kernel), (by decide +kernel)⟩,
    ⟨(withChip open4), 0, ⟨⟨(by decide +kernel), ⟨(by decide +kernel), (by decide +kernel)⟩, (by decide +kernel), (by decide +kernel), (by decide +kernel)⟩, (by decide +kernel), (by decide +kernel), (by decide +kernel)⟩⟩,
    ⟨(asking 0), 0, ⟨(by decide +kernel), ⟨(by decide +kernel), (by decide +kernel)⟩, (by decide +kernel), (by decide +kernel), (by decide +kernel)⟩, (by decide +kernel), (by decide +kernel)⟩,
    ⟨(asking 1), 0, (([] : Bytes)), true, ⟨(by decide +kernel), ⟨(by decide +kernel), (by decide +kernel)⟩, (by decide +kernel), (by decide +kernel), (by decide +kernel)⟩, (by decide +kernel), (by decide +kernel), (by decide +kernel), (by decide +kernel)⟩,
    ⟨(asking 1), 0, (([1#8] : Bytes)), true, ⟨(by decide +kernel), ⟨(by decide +kernel), (by decide +kernel)⟩, (by decide +kernel), (by decide +kernel), (by decide +kernel)⟩, (by decide +kernel), (by decide +kernel), (by decide +kernel)⟩,
    ⟨(asking 2), 0, (([] : Bytes)), true, ⟨(by decide +kernel), ⟨(by decide +kernel), (by decide +kernel)⟩, (by decide +kernel), (by decide +kernel), (by decide +kernel)⟩, (by decide +kernel), (by decide +kernel), (by decide +kernel), (by decide +kernel)⟩,
    ⟨(asking 2), 0, (([] : Bytes)), false, ⟨(by decide +kernel), ⟨(by decide +kernel), (by decide +kernel)⟩, (by decide +kernel), (by decide +kernel), (by decide +kernel)⟩, (by decide +kernel), (by decide +kernel), (by decide +kernel)⟩,
    ⟨(asking 3), 0, ⟨(by decide +kernel), ⟨(by decide +kernel), (by decide +kernel)⟩, (by decide +kernel), (by decide +kernel), (by decide +kernel)⟩, (by decide +kernel), (by decide +kernel)⟩,
    ⟨(asking 3), 0, ⟨(by decide +kernel), ⟨(by decide +kernel), (by decide +kernel)⟩, (by decide +kernel), (by decide +kernel), (by decide +kernel)⟩, (by decide +kernel), (by decide +kernel)⟩,
    ⟨(asking 3), 0, ⟨(by decide +kernel), ⟨(by decide +kernel), (by decide +kernel)⟩, (by decide +kernel), (by decide +kernel), (by decide +kernel)⟩, (by decide +kernel), (by decide +kernel), ⟨(by decide +kernel), (by decide +kernel)⟩⟩,
    ⟨(asking 4), 0, ⟨(by decide +kernel), ⟨(by decide +kernel), (by decide +kernel)⟩, (by decide +kernel), (by decide +kernel), (by decide +kernel)⟩, (by decide +kernel), (by decide +kernel)⟩,
    ⟨(asking 4), 0, ⟨(by decide +kernel), ⟨(by decide +kernel), (by decide +kernel)⟩, (by decide +kernel), (by decide +kernel), (by decide +kernel)⟩, (by decide +kernel), (by decide +kernel), (by decide +kernel)⟩,
    ⟨(asking 1), 0, ⟨(by decide +kernel), ⟨(by decide +kernel), (by decide +kernel)⟩, (by decide +kernel), (by decide +kernel), (by decide +kernel)⟩, (by decide +kernel), (by decide +kernel)⟩⟩

theorem witness_ConfigurationIsFixed :
    (∃ (c : Instr) (s : State), ∃ (t : State), (exec c s = .next t)) ∧
    (∃ (s : State), (s.cfg.legal = true)) ∧
    (∃ (s : State) (k : _), (s.cfg.legal = true) ∧ (k < 8)) :=
  ⟨⟨(.tableZeroingDone 0), up, next_of (by decide +kernel)⟩,
    ⟨up, (by decide +kernel)⟩,
    ⟨up, 7, (by decide +kernel), (by decide +kernel)⟩⟩

theorem witness_HeldInReset : ∃ (s : State), (held s) ∧ ((∀ e i rest, s.pending ≠ .powerOnReset e i :: rest)) ∧ ∃ (t : State), (step s = .next t) :=
  ⟨State.reset, ⟨(by decide +kernel), (by decide +kernel), (by decide +kernel), (by decide +kernel), (by decide +kernel), (by decide +kernel), (by decide +kernel), (by decide +kernel), (by decide +kernel), (by decide +kernel), (by decide +kernel), (by decide +kernel)⟩, (fun _ _ _ h => by cases h), next_of (by decide +kernel)⟩

end Sys2Proof.Tests
end

namespace Sys2Proof.Machine
open Sys2Proof.Ob

/-- An outcome is a next state where the unit is there and the stop `absentUnit` where it is not: nothing else ends a command. -/
def Completes (there : Bool) (o : Host.Outcome State Fault Refusal) : Prop := ∃ t, o = withUnit there (.next t)

theorem completes_done (s : State) : Completes true (done s) := ⟨s, rfl⟩

theorem completes_doneS (s : State) : Completes true (doneS s) := ⟨s.settle, rfl⟩

theorem completes_withUnit (there : Bool) (s : State) : Completes there (withUnit there (doneS s)) := ⟨s.settle, rfl⟩

theorem completes_frameRow (s : State) (p : FramePort) (fl fc : Nat → State → State) : Completes (frameThere s p) (s.frameRow p fl fc) := by
  cases p with
  | link l => exact completes_withUnit _ _
  | chip c => exact completes_withUnit _ _

theorem hasPeer_framePeer (s : State) (p : FramePort) : s.hasPeer (framePeer p) = frameThere s p := by
  cases p <;> rfl

theorem completes_spdmResponse (s : State) (p : FramePort) (r : SpdmMsg) : Completes (frameThere s p) (execSpdmResponse p r s) := by
  rw [← hasPeer_framePeer]
  exact completes_withUnit _ _

theorem completes_keyUpdate (s : State) (p : Peer) : Completes (s.hasPeer p) (execKeyUpdate p s) := by
  cases p with
  | host | mgmt | link | chip => exact completes_withUnit _ _

theorem completes_doorbell (s : State) (r : Ringer) (q be v : Nat) : Completes (unitThere s (.doorbell r q be v)) (execDoorbell r q be v s) := by
  cases r with
  | host | chip => exact completes_withUnit _ _

/-- A link's update that a dictionary write asks for names no unit; every other start is its port's row. -/
theorem completes_keyUpdateStart (s : State) (p : FramePort) (m : Option Mgmt) :
    Completes (unitThere s (.keyUpdateStart p m)) (execKeyUpdateStart p m s) := by
  match p, m with
  | .link _, some _ => exact completes_doneS _
  | .link _, none => exact completes_withUnit _ _
  | .chip _, _ => exact completes_withUnit _ _

/-- Every command ends in one of the two ways of `Completes`, by the row of the dispatch it stands in: one of a frame port, one
that names a unit of another kind, one of the key store, the cipher engine and the random sources, or one that names no unit. -/
theorem exec_completes (c : Instr) (s : State) : Completes (unitThere s c) (exec c s) := by
  cases c with
  | spdmResponse p r => exact completes_spdmResponse s p r
  | keyUpdate p => exact completes_keyUpdate s p
  | doorbell r q be v => exact completes_doorbell s r q be v
  | keyUpdateStart p m => exact completes_keyUpdateStart s p m
  | nak | nakHoldoffExpiry | keepalive | keyUpdateComplete | read | write | writePartial | atomic | chunk => exact completes_frameRow _ _ _ _
  | lineRequestIssue | lineResponse | lineBoundExpiry | laneWaitTimeout | controllerUp | controllerDown | orderPointTake | moveReadRetry
  | writeBack | writeBackRetry | counterLineRetry | formatComplete | regionInitComplete | regionRemovalDone | scrubComplete
  | automaticInterval | sweepStart | readAhead | readAheadRetry | edgeStep | sweepComplete
  | hello | helloTimer | linkAttestationStart | frameReceived | plainFrame | frameTransmit | silenceTimeout | linkBoundExpiry
  | attestationHoldoff | linkIdle | linkIdleAck | wakeFrame | wakeRepeat | wakeUnanswered | domainAbort | invalidateMessage | readData
  | completion | atomicData | chunkAck | joinGrant | pcsUp | pcsDown | join
  | chipletAdmissionStart | admission | admissionBoundExpiry | refusalHoldoffExpiry | chipletFrame | chipletFrameTransmit | standbyAck
  | standbyAckTimeout | standbyRetry | chipletWakeFrame | chipletWakeTimeout | chipletActive | moduleLeavesActive | bridgeLaneService
  | hostTlp | hpCfgAccess | keyProg | kSetGo | kSetStop | query | getDeviceInterfaceState | getTdispVersion | getTdispCapabilities
  | lockInterface | getDeviceInterfaceReport | startInterface | stopInterface | ctxFaultClear | queueRead | queueEnable | queueDisable
  | hostDmaCompletion | functionLevelReset | portPhysicalReset | portResetRelease
  | partitionReset | partitionResetDone | tableZeroingDone | walkComplete | resizeComplete | removalComplete | sliceBoundary | samplerDispatch
  | getVersion | getCapabilities | negotiateAlgorithms | getCertificate | challenge | getMeasurements | keyExchange | finish | heartbeat
  | endSession | getPqSignature | getPqChain | heartbeatTimeout => exact completes_withUnit _ _
  | createDerived | createSeed | setNext | advance | invalidate | retire | setUse | readDir | kspStatusClear | scrubberVisit
  | masterReseed | childReseed | drbgStop | randomRead | gceKeysel | enc | dec | ctrEnc | ghash | loadH | shaInit | shaBlock | drbg
  | shaClear | gceStatusClear | entropyWord => exact completes_done _
  | _ => exact completes_doneS _

/-- Settles O58: `exec_completes`, read at a unit that is there and at one that is not. -/
theorem everyCommandCompletes : Obligations.EveryCommandCompletes := by
  intro c s
  obtain ⟨t, ht⟩ := exec_completes c s
  cases h : unitThere s c with
  | true => exact ⟨t, by rw [ht, h]; rfl⟩
  | false => show exec c s = _; rw [ht, h]; rfl

end Sys2Proof.Machine

namespace Sys2Proof.Machine

/-! ## An access leaves every chiplet port as it is

A command that a chiplet port's reset ends may write its completion record, an access through translation and the fabric. -/

section
variable (s : State)

theorem State.sendTlp_chips {h fn a x g : Nat} {w : Bool} {d : Bytes} {t : State} (ht : s.sendTlp h fn w a d x g = some t) :
    t.chips = s.chips := by
  obtain ⟨_, _, rfl⟩ := s.sendTlp_frame _ _ _ _ _ _ _ ht
  rfl

@[simp] theorem State.dmaBytes_chips (h ctx n : Nat) : (s.dmaBytes h ctx n).chips = s.chips := rfl

@[simp] theorem State.dmaRefused_chips (h addr : Nat) (acc : Access) (r : ReplyTo) : (s.dmaRefused h addr acc r).chips = s.chips := by
  simp [State.dmaRefused]

@[simp] theorem State.hostAccess_chips (ctx addr : Nat) (acc : Access) (r : ReplyTo) : (s.hostAccess ctx addr acc r).chips = s.chips := by
  unfold State.hostAccess
  split
  · dsimp only
    split
    · simp
    · split
      · split
        · simp
        · split
          · next hu => simp [s.sendTlp_chips hu]
          · simp
      · split
        · next hu => simp [s.sendTlp_chips hu]
        · simp
      · simp only [State.reply_chips]
        refine List.foldlRecOn (motive := fun t : State => t.chips = s.chips) _ _ rfl fun t ht r _ => ?_
        split
        · next hu => simp [t.sendTlp_chips hu, ht]
        · exact ht
      · simp
  · simp

@[simp] theorem State.sendOn_chips (l : Nat) (m : Msg) : (s.sendOn l m).chips = s.chips := by
  unfold State.sendOn
  dsimp only
  split <;> simp

@[simp] theorem State.leftBy_chips (a : Option Nat) (m : Msg) (l : Nat) : (s.leftBy a m l).chips = s.chips := by
  unfold State.leftBy
  split <;> rfl

@[simp] theorem State.sendToward_chips (a : Option Nat) (m : Msg) : (s.sendToward a m).chips = s.chips := by
  unfold State.sendToward
  dsimp only
  repeat' split
  all_goals simp

@[simp] theorem State.refuseUse_chips (e : Nat) : (s.refuseUse e).chips = s.chips := by simp [State.refuseUse]

@[simp] theorem State.lineAccept_chips (m : Nat) (q : LineReq) : (s.lineAccept m q).chips = s.chips := by
  unfold State.lineAccept State.failLine
  dsimp only
  repeat' split
  all_goals simp

theorem State.takeOtag_chips {o : Otag} {k : Nat} {t : State} (ht : s.takeOtag o = some (k, t)) : t.chips = s.chips := by
  unfold State.takeOtag at ht
  dsimp only at ht
  split at ht <;> cases ht
  rfl

/-- Whoever joins an entry or opens one: the entries, the OTAGs and what leaves by a link may change, and a counter. -/
theorem State.combineRequest_chips {a own : Option Nat} {m : Msg} {j : Joiner} {t : State} (ht : s.combineRequest a m own j = some t) :
    t.chips = s.chips := by
  unfold State.combineRequest at ht
  dsimp only at ht
  split at ht
  · split at ht
    · cases ht
      rfl
    · split at ht
      · cases ht
      · split at ht
        · cases ht
          simp
        · split at ht
          · next hk =>
            cases ht
            simp [s.takeOtag_chips hk]
          · cases ht
  · split at ht
    · split at ht
      · cases ht
      · split at ht
        · cases ht
          rfl
        · obtain ⟨_, ht⟩ := Option.ite_none_left_eq_some.1 ht
          cases ht
          rfl
    · cases ht

@[simp] theorem State.countUncombined_chips (m : Msg) : (s.countUncombined m).chips = s.chips := by
  unfold State.countUncombined
  dsimp only
  split <;> simp

@[simp] theorem State.passes_chips (m : Msg) : (s.passes m).chips = s.chips := by
  unfold State.passes State.closeReads
  split
  · rfl
  · split <;> rfl

@[simp] theorem State.rdrop_chips (c : Bool) (f : RemoteLine → Bool) : (s.rdrop c f).chips = s.chips := by
  unfold State.rdrop
  dsimp only
  split <;> rfl

@[simp] theorem State.routeless_chips (o : Otag) : (s.routeless o).chips = s.chips := by simp [State.routeless]

@[simp] theorem State.issueRemote_chips (o : Otag) : (s.issueRemote o).chips = s.chips := by
  unfold State.issueRemote
  dsimp only
  split
  · simp
  · generalize hs1 : (if o.acc.writes = true then State.noFills _ _ else _) = s1
    have h1 : s1.chips = s.chips := by
      rw [← hs1]
      split
      · simp [State.noFills]
      · split <;> simp
    split
    · simp [h1]
    · split
      · exact h1
      · next hk =>
        split
        · next hc => simp [State.combineRequest_chips _ hc, s1.takeOtag_chips hk, h1]
        · simp [s1.takeOtag_chips hk, h1]

@[simp] theorem State.issueLocal_chips (o : Otag) : (s.issueLocal o).chips = s.chips := by
  unfold State.issueLocal
  dsimp only
  split
  · simp
  · split
    · simp
    · split
      · rfl
      · next ht => simp [s.takeOtag_chips ht]

@[simp] theorem State.fabricIssue_chips (o : Otag) : (s.fabricIssue o).chips = s.chips := by
  unfold State.fabricIssue State.issueNow
  repeat' split
  all_goals simp

@[simp] theorem State.transFail_chips (x : XReq) (c : Code) (e : Nat) : (s.transFail x c e).chips = s.chips := by
  unfold State.transFail
  dsimp only
  repeat' split
  all_goals simp

@[simp] theorem State.translated_chips (x : XReq) (e : Nat) : (s.translated x e).chips = s.chips := by
  unfold State.translated
  dsimp only
  repeat' split
  all_goals simp

@[simp] theorem State.joinWalk_chips (x : XReq) : (s.joinWalk x).chips = s.chips := by
  unfold State.joinWalk
  dsimp only
  split <;> rfl

theorem State.waitBehind_chips {x : XReq} {t : State} (ht : s.waitBehind x = some t) : t.chips = s.chips := by
  obtain ⟨w, _, rfl⟩ := Option.map_eq_some_iff.1 ht
  rfl

@[simp] theorem State.access_chips (x : XReq) : (s.access x).chips = s.chips := by
  unfold State.access State.fill1
  dsimp only
  split
  · simp
  · split
    · simp
    · split
      · next ht => exact s.waitBehind_chips ht
      · split
        · simp
        · split <;> simp

end

end Sys2Proof.Machine

namespace Sys2Proof.Machine

/-! ## The end of a command leaves every chiplet port's session slot as it is -/

section
variable (s : State)

@[simp] theorem State.startRecord_chips (q : Nat) : (s.startRecord q).chips = s.chips := by
  unfold State.startRecord
  dsimp only
  split
  · rfl
  · split <;> simp

@[simp] theorem State.leave_chips (id : Nat) : (s.leave id).chips = s.chips := by
  unfold State.leave
  extract_lets c k used s0 sc s1 s2 s3 s4
  have hc : sc.chips = s.chips := by
    unfold sc
    split <;> rfl
  have h2 : s2.chips = s.chips := by
    unfold s2
    split <;> simpa [s1] using hc
  have h4 : s4.chips = s.chips := by
    unfold s4 s3
    repeat' split
    all_goals simpa using h2
  clear_value s4
  repeat' split
  all_goals simpa using h4

@[simp] theorem State.withhold_chips (id : Nat) : (s.withhold id).chips = s.chips := by simp [State.withhold]

@[simp] theorem State.samplerFreed_chips (id : Nat) : (s.samplerFreed id).chips = s.chips := by
  obtain ⟨_, h⟩ := s.samplerFreed_frame id
  rw [h]

/-- A change of every entry that keeps the keys and a part of the values keeps that part of what is read. -/
theorem tblGet_map_part {α β : Type} (part : α → β) {g : Nat × α → Nat × α} (hg : ∀ kv, (g kv).1 = kv.1 ∧ part (g kv).2 = part kv.2)
    (t : Tbl α) (k : Nat) (d : α) : part (tblGet (t.map g) k d) = part (tblGet t k d) := by
  induction t with
  | nil => rfl
  | cons x xs ih =>
    obtain ⟨hkey, hpart⟩ := hg x
    simp only [tblGet, List.map_cons, tblFind, hkey] at ih ⊢
    split
    · exact hpart
    · exact ih

/-- The engines let go of a command: its place at every port, and nothing of the port's session. -/
theorem State.releaseWork_chip_slot (id c : Nat) : ((s.releaseWork id).chip c).slot = (s.chip c).slot := by
  have hmap : ∃ g : Nat × Chip → Nat × Chip, (s.releaseWork id).chips = s.chips.map g ∧ ∀ kv, (g kv).1 = kv.1 ∧ (g kv).2.slot = kv.2.slot := by
    unfold State.releaseWork
    dsimp only
    split <;> exact ⟨_, rfl, fun _ => ⟨rfl, rfl⟩⟩
  obtain ⟨g, hmap, hg⟩ := hmap
  rw [State.chip, hmap]
  exact tblGet_map_part Chip.slot hg s.chips c {}

theorem State.chip_slot_of_chips {s t : State} (h : s.chips = t.chips) (c : Nat) : (s.chip c).slot = (t.chip c).slot := by
  simp only [State.chip, h]

theorem State.finishCmd_chip_slot (id : Nat) (code : Code) (e d c : Nat) : ((s.finishCmd id code e d).chip c).slot = (s.chip c).slot := by
  unfold State.finishCmd
  dsimp only
  split
  · rfl
  · rw [← s.releaseWork_chip_slot id c]
    apply State.chip_slot_of_chips
    split
    · simp
    · split
      · simp
      · split
        · split <;> simp
        · simp

end

/-! ## Resets of a chiplet port and of a link (R66, Tables 10.6 and 12.6) -/

section
variable (s : State)

@[simp] theorem State.streamLost_chips (c id : Nat) : (s.streamLost c id).chips = s.chips := by
  unfold State.streamLost
  dsimp only
  split <;> rfl

theorem State.chipDropBut_slot (c st : Nat) (u : Bool) (but : List Nat) : ((s.chipDropBut c st u but).chip c).slot = none := by
  unfold State.chipDropBut
  dsimp only
  rw [State.chip_slot_of_chips (State.trace_chips _ _ _ _ _ _ _)]
  refine List.foldlRecOn (motive := fun t : State => (t.chip c).slot = none) _ _ (by simp) fun t ht id _ => ?_
  rw [State.finishCmd_chip_slot, State.chip_slot_of_chips (t.streamLost_chips c id), ht]

theorem State.chipReset_slot (c : Nat) : ((s.chipReset c).chip c).slot = none := State.chipDropBut_slot _ _ _ _ _

@[simp] theorem State.joinLost_links (l : Nat) : (s.joinLost l).links = s.links := by
  unfold State.joinLost State.joinStop
  split
  · split <;> simp
  · rfl

/-! ## Commands of an input level -/

theorem levelRow_of_alive {present : Bool} {level full : State → State} (hp : present = true) (h : s.alive = true) :
    s.levelRow present level full = .next (full s).settle := by
  simp [State.levelRow, hp, h, doneS]

theorem levelRow_of_dark {present : Bool} {level full : State → State} (hp : present = true) (h : s.alive = false) (hd : (level s).due = []) :
    s.levelRow present level full = .next (level s) := by
  simp [State.levelRow, hp, h, doneS_of_due _ hd]

theorem resetLevel_due (k : ResetPort) (i : Nat) (low : Bool) : (s.resetLevel k i low).due = s.due := by
  cases k <;> rfl

end

/-! ## TDIs that leave RUN, and what else that changes (R27, R313) -/

section
variable (s : State)

@[simp] theorem State.dropCaches_due (i g : Nat) : (s.dropCaches i g).due = s.due := by
  unfold State.dropCaches
  dsimp only
  split <;> rfl

@[simp] theorem State.dropCaches_hosts (i g : Nat) : (s.dropCaches i g).hosts = s.hosts := by
  unfold State.dropCaches
  dsimp only
  split <;> rfl

@[simp] theorem State.dropCaches_tdis (i g : Nat) : (s.dropCaches i g).tdis = s.tdis := by
  unfold State.dropCaches
  dsimp only
  split <;> rfl

/-- Invalidating a key slot delivers nothing, and changes no host port and no TDI. -/
theorem State.invalidateSlot_keeps (i : Nat) :
    (s.invalidateSlot i).due = s.due ∧ (s.invalidateSlot i).hosts = s.hosts ∧ (s.invalidateSlot i).tdis = s.tdis := by
  unfold State.invalidateSlot
  dsimp only
  split <;> simp

/-- Nor does dropping a session's key. -/
theorem State.dropSessionKey_keeps (i : Nat) :
    (s.dropSessionKey i).due = s.due ∧ (s.dropSessionKey i).hosts = s.hosts ∧ (s.dropSessionKey i).tdis = s.tdis := by
  unfold State.dropSessionKey
  dsimp only
  split
  · exact s.invalidateSlot_keeps _
  · exact ⟨rfl, rfl, rfl⟩

@[simp] theorem State.resetBound_due (t : Tdi) : (s.resetBound t).due = s.due := rfl
@[simp] theorem State.resetBound_hosts (t : Tdi) : (s.resetBound t).hosts = s.hosts := rfl
@[simp] theorem State.resetBound_tdis (t : Tdi) : (s.resetBound t).tdis = s.tdis := rfl

/-- No outcome more is due, and every host port is in reset or out of it as before. -/
def SameResets (s t : State) : Prop := t.due = s.due ∧ ∀ h, (t.host h).inReset = (s.host h).inReset

theorem SameResets.trans {s t u : State} (h : SameResets s t) (h' : SameResets t u) : SameResets s u :=
  ⟨h'.1.trans h.1, fun p => (h'.2 p).trans (h.2 p)⟩

theorem sameResets_of_hosts {s t : State} (hd : t.due = s.due) (hh : t.hosts = s.hosts) : SameResets s t :=
  ⟨hd, fun h => by simp only [State.host, hh]⟩

theorem sameResets_foldl {α : Type} {f : State → α → State} (hf : ∀ t x, SameResets t (f t x)) (xs : List α) : SameResets s (xs.foldl f s) :=
  List.foldlRecOn (motive := SameResets s) xs f (sameResets_of_hosts rfl rfl) fun t ht x _ => ht.trans (hf t x)

theorem hostError_sameResets (h e a : Nat) (p : Option Nat) : SameResets s (s.hostError h p e a) := by
  refine ⟨by simp [State.hostError], fun j => ?_⟩
  simp only [State.hostError, State.host, State.error_hosts, State.modHost_hosts]
  by_cases hj : j = h
  · subst hj
    simp
  · rw [tblGet_mod_ne _ _ _ _ hj]

theorem tdiEnter_sameResets (k e : Nat) : SameResets s (s.tdiEnter k e) := by
  unfold State.tdiEnter
  extract_lets t s1
  have h1 : SameResets s s1 := sameResets_of_hosts rfl rfl
  split
  · exact sameResets_of_hosts rfl rfl
  · have hnote : ∀ u : State, SameResets s u → ∀ x y, SameResets s (u.note 8 0 e (some t.part) 0 x y) := fun u hu x y =>
      hu.trans (sameResets_of_hosts (by simp) (by simp))
    split
    · exact hnote _ h1 _ _
    · exact hnote _ (h1.trans (hostError_sameResets s1 _ _ _ _)) _ _

theorem leaveRun_sameResets (k : Nat) : SameResets s (s.leaveRun k) := by
  unfold State.leaveRun
  dsimp only
  split
  · exact sameResets_of_hosts rfl rfl
  · obtain ⟨hd, hh, -⟩ := s.dropSessionKey_keeps (s.tdi k).slot
    exact (sameResets_of_hosts hd hh).trans (sameResets_foldl _ (fun t j => tdiEnter_sameResets t j 0x400B) _)

theorem tdiError_sameResets (k e : Nat) : SameResets s (s.tdiError k e) :=
  (leaveRun_sameResets s k).trans (tdiEnter_sameResets _ k e)

theorem tdiErrors_sameResets (e : Nat) (ks : List (Nat × Tdi)) : SameResets s (ks.foldl (fun t kv => t.tdiError kv.1 e) s) := by
  apply sameResets_foldl s
  intro t kv
  exact tdiError_sameResets t kv.1 e

/-- A TDI that enters ERROR leaves every other TDI as it is. -/
theorem tdiEnter_tdi_ne {j k : Nat} (e : Nat) (h : j ≠ k) : (s.tdiEnter k e).tdi j = s.tdi j := by
  unfold State.tdiEnter
  dsimp only
  split
  · rfl
  · split <;> simp [State.hostError, State.tdi, tblGet_mod_ne _ _ _ _ h]

/-- A TDI that leaves RUN is still as it was: what changes are its session's key and the other TDIs of its stream (R27). -/
theorem leaveRun_tdi_same (k : Nat) : (s.leaveRun k).tdi k = s.tdi k := by
  unfold State.leaveRun
  dsimp only
  split
  · rfl
  · obtain ⟨-, -, ht⟩ := s.dropSessionKey_keeps (s.tdi k).slot
    refine List.foldlRecOn (motive := fun t : State => t.tdi k = s.tdi k) _ _ (by rw [State.tdi, ht, State.tdi]) fun t h j hj => ?_
    have hjk : k ≠ j := fun e => by simp [e] at hj
    rw [tdiEnter_tdi_ne t 0x400B hjk, h]

end

/-! ## Function-level resets (R316, R481) -/

section
variable (s : State)

/-- TDI `k` is CONFIG_UNLOCKED, with no session slot. -/
def UnlockedAt (k : Nat) (s : State) : Prop := (s.tdi k).state = 0 ∧ (s.tdi k).slot = 0

/-- What a function-level reset of one function does to a TDI that the hub holds. -/
def State.flrTdi (s : State) (k : Nat) : State :=
  ((s.leaveRun k).resetBound (s.tdi k)).modTdi k fun t => { (if t.stopping then t else t.unlocked) with flr := true }

/-- A function-level reset of one function, other than function 0. -/
theorem functionReset_of_ne_zero (h : Nat) {fn : Nat} (hfn : fn ≠ 0) : s.functionReset h fn =
    let mine := (s.tdis.filter fun kv => kv.1 = tdiKey h (fn - 1)).map (·.1)
    let t := mine.foldl State.flrTdi s
    if mine.isEmpty then t.emit (.flrDone h fn) else t.tdiSettle := by
  simp only [State.functionReset, hfn, if_false]
  rfl

theorem flrTdi_tdi_same (k : Nat) :
    (s.flrTdi k).tdi k = { (if (s.tdi k).stopping then s.tdi k else (s.tdi k).unlocked) with flr := true } := by
  have hrun : ((s.leaveRun k).resetBound (s.tdi k)).tdi k = s.tdi k := leaveRun_tdi_same s k
  rw [State.flrTdi, modTdi_tdi, hrun]

theorem flrTdi_unlocks {k : Nat} (h : (s.tdi k).stopping = false) : UnlockedAt k (s.flrTdi k) := by
  simp [UnlockedAt, flrTdi_tdi_same, h, Tdi.unlocked]

theorem flrTdi_keeps_unlocked {k : Nat} (h : UnlockedAt k s) : UnlockedAt k (s.flrTdi k) := by
  rw [UnlockedAt, flrTdi_tdi_same]
  split
  · exact h
  · exact ⟨rfl, rfl⟩

theorem unlockedAt_of_tdis {s t : State} {k : Nat} (ht : t.tdis = s.tdis) (h : UnlockedAt k s) : UnlockedAt k t := by
  simpa only [UnlockedAt, State.tdi, ht] using h

/-- A change of one TDI that keeps CONFIG_UNLOCKED leaves an unlocked TDI unlocked, whichever it is. -/
theorem modTdi_keeps_unlocked {j k : Nat} {f : Tdi → Tdi} (hf : ∀ t : Tdi, t.state = 0 → t.slot = 0 → (f t).state = 0 ∧ (f t).slot = 0)
    (h : UnlockedAt k s) : UnlockedAt k (s.modTdi j f) := by
  by_cases hjk : k = j
  · subst hjk
    rw [UnlockedAt, modTdi_tdi]
    exact hf _ h.1 h.2
  · simpa only [UnlockedAt, State.tdi, State.modTdi_tdis, tblGet_mod_ne _ _ _ _ hjk] using h

/-- The answers due once a TDI's context resets are over leave it unlocked. -/
theorem tdiSettle_keeps_unlocked {k : Nat} (h : UnlockedAt k s) : UnlockedAt k s.tdiSettle := by
  unfold State.tdiSettle
  extract_lets ready s1 ports
  have h1 : UnlockedAt k s1 := by
    refine List.foldlRecOn (motive := UnlockedAt k) _ _ h fun t ht kv _ => ?_
    dsimp only
    apply modTdi_keeps_unlocked
    · intro x hx hs
      split
      · exact ⟨rfl, rfl⟩
      · exact ⟨hx, hs⟩
    · refine unlockedAt_of_tdis ?_ ht
      split <;> split <;> rfl
  refine List.foldlRecOn (motive := UnlockedAt k) _ _ h1 fun t ht kv _ => unlockedAt_of_tdis ?_ ht
  split <;> rfl

/-- A function-level reset of a TDI that the hub holds, with no STOP_INTERFACE of it being answered, unlocks it. -/
theorem functionReset_unlocks (h : Nat) {fn : Nat} (hfn : fn ≠ 0) (hheld : ∃ kv ∈ s.tdis, kv.1 = tdiKey h (fn - 1))
    (hstop : (s.tdi (tdiKey h (fn - 1))).stopping = false) : UnlockedAt (tdiKey h (fn - 1)) (s.functionReset h fn) := by
  rw [functionReset_of_ne_zero s h hfn]
  extract_lets mine t
  have hmine : ∀ k ∈ mine, k = tdiKey h (fn - 1) := by
    intro k hk
    obtain ⟨kv, hkv, rfl⟩ := List.mem_map.1 hk
    exact of_decide_eq_true (List.mem_filter.1 hkv).2
  have hsome : tdiKey h (fn - 1) ∈ mine := by
    obtain ⟨kv, hkv, he⟩ := hheld
    exact List.mem_map.2 ⟨kv, List.mem_filter.2 ⟨hkv, decide_eq_true he⟩, he⟩
  unfold t
  clear_value mine
  cases mine with
  | nil => cases hsome
  | cons k ks =>
    obtain rfl := hmine k List.mem_cons_self
    refine tdiSettle_keeps_unlocked _ (List.foldlRecOn (motive := UnlockedAt _) ks _ (flrTdi_unlocks s hstop) fun t ht j hj => ?_)
    rw [hmine j (List.mem_cons_of_mem _ hj)]
    exact flrTdi_keeps_unlocked t ht

/-- With no TDI of the function held, its reset is over at once. -/
theorem functionReset_of_none (h : Nat) {fn : Nat} (hfn : fn ≠ 0) (hnone : ∀ kv ∈ s.tdis, kv.1 ≠ tdiKey h (fn - 1)) :
    s.functionReset h fn = s.emit (.flrDone h fn) := by
  have hmine : (s.tdis.filter fun kv => kv.1 = tdiKey h (fn - 1)) = [] := by simpa [List.filter_eq_nil_iff] using hnone
  rw [functionReset_of_ne_zero s h hfn, hmine]
  rfl

end

end Sys2Proof.Machine

namespace Sys2Proof.Machine
open Sys2Proof.Ob

/-! ## Physical resets of ports (R15, R65, R66, R68) -/

section
variable (s : State)

theorem portReset_chiplet (i : Nat) : let c := (s.portReset .chiplet i).chip i
    c.inReset = true ∧ c.modules = 0 ∧ c.stateReq = 0 ∧ c.slot = none := by
  simp [State.portReset, s.chipReset_slot i]

theorem portReset_link (i : Nat) : let l := (s.portReset .link i).link i
    l.inReset = true ∧ l.pcsUp = false ∧ l.holdoff = false := by
  simp only [State.portReset, State.link, State.joinLost_links]
  simp

theorem portReset_host (i : Nat) : let h := (s.portReset .host i).host i
    h.inReset = true ∧ h.cfg = [] ∧ h.doeIn = [] ∧ ∀ kv ∈ h.dma, kv.2.lost = true := by
  dsimp only [State.portReset]
  rw [modHost_host]
  refine ⟨rfl, rfl, rfl, fun kv hkv => ?_⟩
  obtain ⟨d, _, rfl⟩ := List.mem_map.1 hkv
  rfl

/-- Releasing a host port delivers nothing: its locked and running TDIs enter ERROR, and it is out of reset. -/
theorem portRelease_host (i : Nat) : (s.portRelease .host i).due = s.due ∧ ((s.portRelease .host i).host i).inReset = false := by
  simp only [State.portRelease]
  obtain ⟨hd, hr⟩ := tdiErrors_sameResets _ 0x400B _
  rw [hd, hr]
  simp

theorem exec_portPhysicalReset (k : ResetPort) (i : Nat) : exec (.portPhysicalReset k i) s =
    s.levelRow (s.hasPort k i) (fun s => s.resetLevel k i true) fun s => s.portReset k i := rfl

theorem exec_portResetRelease (k : ResetPort) (i : Nat) : exec (.portResetRelease k i) s =
    s.levelRow (s.hasPort k i) (fun s => s.resetLevel k i false) fun s => s.portRelease k i := rfl

theorem exec_portPhysicalReset_of_alive {k : ResetPort} {i : Nat} (hp : s.hasPort k i = true) (h : s.alive = true) :
    exec (.portPhysicalReset k i) s = .next (s.portReset k i).settle := by
  rw [exec_portPhysicalReset, levelRow_of_alive s hp h]

theorem exec_portResetRelease_of_calm {k : ResetPort} {i : Nat} (hp : s.hasPort k i = true) (h : calm s)
    (hd : (s.portRelease k i).due = s.due) : exec (.portResetRelease k i) s = .next (s.portRelease k i) := by
  obtain ⟨ha, hs⟩ := h
  rw [exec_portResetRelease, levelRow_of_alive s hp ha, settle_of_due _ (hd.trans hs)]

/-- While the block itself is held in reset or halted, both inputs only follow the level. -/
theorem exec_portReset_of_dark {k : ResetPort} {i : Nat} (low : Bool) (hp : s.hasPort k i = true) (h : s.alive = false) (hd : s.due = []) :
    exec (if low then .portPhysicalReset k i else .portResetRelease k i) s = .next (s.resetLevel k i low) := by
  have hlevel := (resetLevel_due s k i low).trans hd
  cases low with
  | true => exact (exec_portPhysicalReset s k i).trans (levelRow_of_dark s hp h hlevel)
  | false => exact (exec_portResetRelease s k i).trans (levelRow_of_dark s hp h hlevel)

/-! ## Function-level resets (R68, R316, R481) -/

@[simp] theorem State.beginExit_due : s.beginExit.due = s.due := by
  unfold State.beginExit
  dsimp only
  split <;> rfl

@[simp] theorem State.beginExit_tdis : s.beginExit.tdis = s.tdis := by
  unfold State.beginExit
  dsimp only
  split <;> rfl

theorem exec_functionLevelReset (h fn : Nat) : exec (.functionLevelReset h fn) s = execFunctionLevelReset h fn s := rfl

/-- A port in reset takes none (R40). -/
theorem exec_functionLevelReset_of_inReset {h fn : Nat} (hc : calm s) (hr : (s.host h).inReset = true) (hp : h < s.cfg.hostPorts) (hf : fn ≤ 256) :
    exec (.functionLevelReset h fn) s = .next s := by
  simp [exec_functionLevelReset, execFunctionLevelReset, hp, hf, hr, doneS_of_due s hc.2]

theorem exec_functionLevelReset_of_S0 {h fn : Nat} (ha : s.alive = true) (h0 : s.faults.phase = 0) (hs : s.power.state = 0)
    (hr : (s.host h).inReset = false) (hp : h < s.cfg.hostPorts) (hf : fn ≤ 256) :
    exec (.functionLevelReset h fn) s = .next (s.beginExit.functionReset h fn).settle := by
  simp [exec_functionLevelReset, execFunctionLevelReset, hp, hf, hr, ha, h0, hs, doneS]

/-- In S1 to S3 it is noted, to act in S0, and the exit begins. -/
theorem exec_functionLevelReset_of_not_S0 {h fn : Nat} (hc : calm s) (h0 : s.faults.phase = 0) (hs : s.power.state ≠ 0)
    (hr : (s.host h).inReset = false) (hp : h < s.cfg.hostPorts) (hf : fn ≤ 256) :
    exec (.functionLevelReset h fn) s = .next
      ({ s with power := { s.power with flrDue := s.power.flrDue.filter (· ≠ (h, fn)) ++ [(h, fn)] } } : State).beginExit := by
  obtain ⟨ha, hd⟩ := hc
  simp only [exec_functionLevelReset, execFunctionLevelReset, hp, hf, hr, ha, h0, hs]
  exact doneS_of_due _ ((State.beginExit_due _).trans hd)

end

/-- Settles O18: the assertion and the release of each kind of port, the levels followed while the block is dark, and the
function-level reset by the power state and by what the hub holds of the function. -/
theorem portPhysicalResets : Obligations.PortPhysicalResets := by
  refine ⟨⟨fun s i ha => ⟨fun hp => ?_, fun hp => ?_, fun hp => ?_⟩, fun s i hc => ⟨fun hp => ?_, fun hp => ?_, fun hp => ?_⟩,
    fun s i low ha hd => ⟨fun hp => ?_, fun hp => ?_, fun hp => ?_⟩, fun s i hp => ?_⟩,
    fun s h fn hc h0 hs hr hp hf hf' hnone => ?_, fun s h fn hc h0 hs hr hp hf => ?_, fun s h fn hc hr hp hf => ?_,
    fun s h fn hc hs hr hp hf hf' hheld hstop => ?_, fun s h fn hp => ?_⟩
  · exact ⟨_, exec_portPhysicalReset_of_alive s (k := .chiplet) (decide_eq_true hp) ha, portReset_chiplet s i⟩
  · exact ⟨_, exec_portPhysicalReset_of_alive s (k := .link) (decide_eq_true hp) ha, portReset_link s i⟩
  · exact ⟨_, exec_portPhysicalReset_of_alive s (k := .host) (decide_eq_true hp) ha, portReset_host s i⟩
  · exact exec_portResetRelease_of_calm s (k := .chiplet) (decide_eq_true hp) hc rfl
  · refine exec_portResetRelease_of_calm s (k := .link) (decide_eq_true hp) hc ?_
    simp only [State.portRelease]
    split <;> rfl
  · obtain ⟨hd, hr⟩ := portRelease_host s i
    exact ⟨_, exec_portResetRelease_of_calm s (k := .host) (decide_eq_true hp) hc hd, hr⟩
  · exact exec_portReset_of_dark s low (k := .chiplet) (decide_eq_true hp) ha hd
  · exact exec_portReset_of_dark s low (k := .link) (decide_eq_true hp) ha hd
  · exact exec_portReset_of_dark s low (k := .host) (decide_eq_true hp) ha hd
  · have hno : s.hasPort .link i = false := decide_eq_false (Nat.not_lt.2 hp)
    rw [exec_portPhysicalReset, State.levelRow, hno, withUnit_false]
  · have hne : fn ≠ 0 := Nat.one_le_iff_ne_zero.1 hf
    rw [exec_functionLevelReset_of_S0 s hc.1 h0 hs hr hp hf', functionReset_of_none _ h hne (by simpa using hnone),
      settle_of_due _ (by simpa using hc.2)]
  · exact exec_functionLevelReset_of_not_S0 s hc h0 hs hr hp hf
  · exact exec_functionLevelReset_of_inReset s hc hr hp hf
  · have hne : fn ≠ 0 := Nat.one_le_iff_ne_zero.1 hf
    obtain ⟨⟨ha, h0⟩, -⟩ : (s.alive = true ∧ s.faults.phase = 0) ∧ s.fclk = true := by simpa [State.running] using hc.1
    have hun := functionReset_unlocks s.beginExit h hne (by simpa using hheld) (by simpa [State.tdi] using hstop)
    exact ⟨_, exec_functionLevelReset_of_S0 s ha h0 hs hr hp hf', hun⟩
  · have hno : decide (h < s.cfg.hostPorts ∧ fn ≤ 256) = false := decide_eq_false fun hq => Nat.not_lt.2 hp hq.1
    simp [exec_functionLevelReset, execFunctionLevelReset, hno]

end Sys2Proof.Machine

namespace Sys2Proof.Machine
open Sys2Proof.Ob

/-! ## Binding a partition to a chiplet port (R298, R319) -/

section
variable (s : State)

theorem exec_partitionBind (m : Mgmt) (c p : Nat) :
    exec (.partitionBind m c p) s = doneS (s.dictWrite m 0x3301 (c + 1) (leBytes 1 p) (State.bindWrite c p)) := rfl

/-- A granted write whose effect is `u` ends as accepted. -/
theorem dictWrite_of_granted {m : Mgmt} {i j : Nat} {v : Bytes} {act : State → Except Nat State} {u : State}
    (h : granted s m i j v) (ha : act s = .ok u) : s.dictWrite m i j v act = accepted s u m i j v := by
  obtain ⟨⟨hserving, -, hgate, hbuffer, ⟨e, he, hlength⟩, hphase, hconfirm⟩, hwake⟩ := h
  exact dictWrite_ok s hserving hgate hbuffer he hlength hphase hconfirm (by rw [hwake, ha])

theorem State.chipBind_of_unbound {c : Nat} (h : (s.chip c).bound = none) : s.chipBind c = s := by
  simp [State.chipBind, h]

/-- 0xFF names no partition, however many the configuration has: the port is unbound, unless it is admitted. -/
theorem State.bindWrite_unbinds {c : Nat} (hc : c < s.cfg.chipPorts) (h4 : (s.chip c).state ≠ 4) :
    s.bindWrite c 0xFF = .ok (s.modChip c fun k => { k with bound := none }) := by
  have hno : (s.modChip c fun k => { k with bound := none }).chipBind c = s.modChip c fun k => { k with bound := none } :=
    State.chipBind_of_unbound _ (by simp)
  simp [State.bindWrite, Nat.not_le.2 hc, h4, hno]

theorem exec_partitionBind_unbinds {m : Mgmt} {c : Nat} (hc : c < s.cfg.chipPorts) (hg : granted s m 0x3301 (c + 1) (leBytes 1 0xFF))
    (h4 : (s.chip c).state ≠ 4) : exec (.partitionBind m c 0xFF) s =
      .next (accepted s (s.modChip c fun k => { k with bound := none }) m 0x3301 (c + 1) (leBytes 1 0xFF)) := by
  rw [exec_partitionBind, dictWrite_of_granted s hg (s.bindWrite_unbinds hc h4)]
  exact doneS_of_due _ (by simpa [accepted] using hg.1.2.1)

/-- The end of a write leaves every chiplet port as its effect left it. -/
theorem accepted_chip (u : State) (m : Mgmt) (i j : Nat) (v : Bytes) (c : Nat) : (accepted s u m i j v).chip c = u.chip c := by
  simp [accepted, State.chip]

/-- So does the record of an error. -/
theorem error_chip (k u : Nat) (p : Option Nat) (e a c : Nat) : (s.error k u p e a).chip c = s.chip c := by
  simp [State.chip]

/-- A table that lists every key from `n` on, `k` of them, has its first gap after them. -/
theorem firstGap_of_keys {α : Type} {t : Tbl α} {k n : Nat} (h : t.map Prod.fst = List.range' n k) : firstGap t n = n + k := by
  induction k generalizing t n with
  | zero => rw [List.map_eq_nil_iff.1 h]; rfl
  | succ k ih =>
    obtain ⟨⟨i, x⟩, rest, rfl, rfl, hrest⟩ := List.map_eq_cons_iff.1 h
    rw [firstGap, if_pos rfl, ih hrest]
    omega

/-- No leaf slot is free where the key store lists all of them, none of them free. -/
theorem State.freeLeaf_of_full (hkeys : s.keys.slots.map Prod.fst = List.range' 0 65536) (hused : ∀ kv ∈ s.keys.slots, kv.2.state ≠ 0) :
    s.freeLeaf = none := by
  have hall : (s.keys.slots.filter fun kv => kv.1 < 65536 && kv.2.state ≠ 0) = s.keys.slots := by
    refine List.filter_eq_self.2 fun kv hkv => ?_
    have hleaf := (List.mem_range'_1.1 (hkeys ▸ List.mem_map_of_mem hkv)).2
    simpa using ⟨hleaf, hused kv hkv⟩
  simp only [State.freeLeaf, hall, firstGap_of_keys hkeys]
  rfl

end

/-! ## A configuration in which 0xFF is also the number of a partition

Gwebrim generates none (R36), but the statement's clause on a port in state 3 with no leaf free is not confined to legal
configurations, nor to numbers other than 0xFF. -/

/-- A hub in Test with 256 partitions, 255 of them live, an Installer's session, chiplet port 0 attested, and no leaf slot free. -/
def crowdedHub : State :=
  { State.reset with
      cfg := { Config.sh9f with partitions := 256 }
      bring := { por := false, ready := true, phase := 8 }
      life := { state := .test }
      agent := { sessions := [(0, { spdm := { stage := 5 }, role := .installer })] }
      keys := { slots := (List.range' 0 65536).map fun i => (i, { state := 1 }) }
      chips := [(0, { state := 3, session := { stage := 5 } })]
      parts := [(255, { state := 1 })] }

theorem crowdedHub_freeLeaf : crowdedHub.freeLeaf = none := by
  apply State.freeLeaf_of_full
  · exact (List.map_map ..).trans (List.map_id _)
  · intro kv hkv
    obtain ⟨_, -, rfl⟩ := List.mem_map.1 hkv
    exact Nat.one_ne_zero

theorem crowdedHub_granted : granted crowdedHub ⟨some 0, 0⟩ 0x3301 1 (leBytes 1 0xFF) :=
  ⟨⟨by decide, by decide, by decide, by decide, ⟨_, rfl, by decide⟩, by decide, by decide⟩, wakeWrite_of_S0 _ _ _ rfl⟩

/-- Refutes O52: the clause on a binding that finds no leaf free takes 0xFF for a partition wherever the configuration counts so
many, and 0xFF unbinds: in `crowdedHub` the port ends unbound, where the clause has it bound to partition 255. -/
theorem not_chipletAdmission : ¬ Obligations.ChipletAdmission := by
  intro h
  obtain ⟨-, -, -, -, -, -, hbinding, -⟩ := h
  obtain ⟨-, -, -, -, hnoLeaf, -⟩ := hbinding crowdedHub ⟨some 0, 0⟩ 0 255 (by decide) crowdedHub_granted
  have hclaimed := hnoLeaf (by decide) (by decide) (by decide) crowdedHub_freeLeaf
  have hdone := exec_partitionBind_unbinds crowdedHub (m := ⟨some 0, 0⟩) (c := 0) (by decide) crowdedHub_granted (by decide)
  have hport : none = some 255 := by
    simpa only [accepted_chip, error_chip, modChip_chip] using
      congrArg (fun t => (State.chip t 0).bound) (Host.Outcome.next.inj (hdone.symm.trans hclaimed))
  cases hport

end Sys2Proof.Machine

namespace Sys2Proof.Machine
open Sys2Proof.Ob

/-! ## Rows of a link, of a chiplet port and of a unit on F-clk, out of reset -/

theorem due_of_hasLink {s : State} {l : Nat} (h : hasLink s l) : s.due = [] := by
  obtain ⟨-, -, -, hdue⟩ := h
  exact hdue

/-- Gwebrim generates no more than 32 links (R36). -/
theorem lt_of_hasLink {s : State} {l : Nat} (h : hasLink s l) : l < 32 := by
  obtain ⟨hlegal, hl, -⟩ := h
  simp only [Config.legal, Bool.and_eq_true, decide_eq_true_eq] at hlegal
  omega

section
variable (s : State)

theorem linkRow_of_hasLink {l : Nat} {f : State → State} (h : hasLink s l) : s.linkRow l f = doneS (f s) := by
  obtain ⟨-, hl, halive, -⟩ := h
  simp [State.linkRow, hl, whenAlive_of s f halive]

theorem chipRow_of_calm {c : Nat} {f : State → State} (hc : c < s.cfg.chipPorts) (h : calm s) : s.chipRow c f = doneS (f s) := by
  simp [State.chipRow, hc, whenAlive_of s f h.1]

theorem doneS_whenClocked_of_fclk {f : State → State} (h : calm s) (hf : s.fclk = true) : doneS (s.whenClocked f) = doneS (f s) := by
  simp [State.whenClocked, h.1, hf]

theorem doneS_whenClocked_of_stopped {f : State → State} (h : calm s) (hf : s.fclk = false) : doneS (s.whenClocked f) = .next s := by
  simp [State.whenClocked, hf, doneS_of_due s h.2]

theorem work_of_rested {f : State → State} (h : rested s) : s.work f = doneS (f s) := by
  rw [State.work, whenRunning_of s f h.1]

/-- In S0 and S1 every unit that keeps counters runs (R73). -/
theorem State.countsNow_of_sealing (i : Nat) (h : s.sealing = true) : s.countsNow i = true := by
  have hpower : s.power.state ≤ 1 := of_decide_eq_true h
  simp [State.countsNow, hpower]

/-! ## The receive side of a link

Taking a message out of a link's receive buffer, and returning credits, are books that the link's other work does not read. -/

/-- From `s` to `t` only the receive side of link `l` changed, and the vigil's note of progress. -/
structure BooksOnly (l : Nat) (s t : State) : Prop where
  frame : ∃ faults links, t = { s with faults := faults, links := links }
  other : ∀ j, j ≠ l → t.link j = s.link j
  fs : (t.link l).fs = (s.link l).fs
  sess : (t.link l).sess = (s.link l).sess
  rank : (t.link l).rank = (s.link l).rank
  state : (t.link l).state = (s.link l).state

theorem BooksOnly.trans {l : Nat} {s t u : State} (h : BooksOnly l s t) (h' : BooksOnly l t u) : BooksOnly l s u where
  frame := by
    obtain ⟨_, _, rfl⟩ := h.frame
    obtain ⟨_, _, rfl⟩ := h'.frame
    exact ⟨_, _, rfl⟩
  other j hj := (h'.other j hj).trans (h.other j hj)
  fs := h'.fs.trans h.fs
  sess := h'.sess.trans h.sess
  rank := h'.rank.trans h.rank
  state := h'.state.trans h.state

theorem BooksOnly.lanesServed {l : Nat} {s t : State} (h : BooksOnly l s t) (p : Nat) : BooksOnly l (s.lanesServed p) (t.lanesServed p) where
  frame := by
    obtain ⟨_, _, rfl⟩ := h.frame
    exact ⟨_, _, rfl⟩
  other := h.other
  fs := h.fs
  sess := h.sess
  rank := h.rank
  state := h.state

theorem booksOnly_refl (l : Nat) : BooksOnly l s s := ⟨⟨_, _, rfl⟩, fun _ _ => rfl, rfl, rfl, rfl, rfl⟩

theorem booksOnly_modLink {l : Nat} {f : Link → Link}
    (hf : ∀ k, (f k).fs = k.fs ∧ (f k).sess = k.sess ∧ (f k).rank = k.rank ∧ (f k).state = k.state) : BooksOnly l s (s.modLink l f) where
  frame := ⟨_, _, rfl⟩
  other _ hj := modLink_link_ne s f hj
  fs := by
    obtain ⟨hfs, -, -, -⟩ := hf (s.link l)
    rw [modLink_link, hfs]
  sess := by
    obtain ⟨-, hsess, -, -⟩ := hf (s.link l)
    rw [modLink_link, hsess]
  rank := by
    obtain ⟨-, -, hrank, -⟩ := hf (s.link l)
    rw [modLink_link, hrank]
  state := by
    obtain ⟨-, -, -, hstate⟩ := hf (s.link l)
    rw [modLink_link, hstate]

theorem booksOnly_touch (l k i : Nat) : BooksOnly l s (s.touch k i) :=
  ⟨⟨_, _, rfl⟩, fun _ _ => rfl, rfl, rfl, rfl, rfl⟩

theorem booksOnly_freeUnits (l vc units ops : Nat) : BooksOnly l s (s.freeUnits l vc units ops) := by
  unfold State.freeUnits
  have hbooks : BooksOnly l s (if units = 0 then s else s.touch 4 l) := by
    split
    · exact booksOnly_refl s l
    · exact booksOnly_touch s l 4 l
  exact hbooks.trans (booksOnly_modLink _ fun _ => ⟨rfl, rfl, rfl, rfl⟩)

theorem booksOnly_takeLinkMsg {l t : Nat} {m : Msg} {u : State} (h : s.takeLinkMsg l t = some (m, u)) : BooksOnly l s u := by
  unfold State.takeLinkMsg at h
  split at h
  · split at h
    · cases h
      exact booksOnly_modLink s fun _ => ⟨rfl, rfl, rfl, rfl⟩
    · cases h
  · cases h

/-! Nothing else of the state changes, and what is read of it alone stays. -/

theorem BooksOnly.due {l : Nat} {s t : State} (h : BooksOnly l s t) : t.due = s.due := by obtain ⟨_, _, rfl⟩ := h.frame; rfl
theorem BooksOnly.sealing {l : Nat} {s t : State} (h : BooksOnly l s t) : t.sealing = s.sealing := by obtain ⟨_, _, rfl⟩ := h.frame; rfl
theorem BooksOnly.count {l : Nat} {s t : State} (h : BooksOnly l s t) (i j : Nat) : t.count i j = s.count i j := by
  obtain ⟨_, _, rfl⟩ := h.frame; rfl
theorem BooksOnly.early {l : Nat} {s t : State} (h : BooksOnly l s t) : t.early = s.early := by obtain ⟨_, _, rfl⟩ := h.frame; rfl
theorem BooksOnly.rslots {l : Nat} {s t : State} (h : BooksOnly l s t) : t.rslots = s.rslots := by obtain ⟨_, _, rfl⟩ := h.frame; rfl
theorem BooksOnly.chunkRecs {l : Nat} {s t : State} (h : BooksOnly l s t) : t.chunkRecs = s.chunkRecs := by obtain ⟨_, _, rfl⟩ := h.frame; rfl
theorem BooksOnly.routeHeld {l : Nat} {s t : State} (h : BooksOnly l s t) : t.routeHeld = s.routeHeld := by obtain ⟨_, _, rfl⟩ := h.frame; rfl
theorem BooksOnly.lanesTurn {l : Nat} {s t : State} (h : BooksOnly l s t) : t.lanesTurn = s.lanesTurn := by obtain ⟨_, _, rfl⟩ := h.frame; rfl
theorem BooksOnly.memberField {l : Nat} {s t : State} (h : BooksOnly l s t) : t.memberField = s.memberField := by
  obtain ⟨_, _, rfl⟩ := h.frame; rfl
theorem BooksOnly.transitUsed {l : Nat} {s t : State} (h : BooksOnly l s t) : t.transitUsed = s.transitUsed := by
  obtain ⟨_, _, rfl⟩ := h.frame; rfl
theorem BooksOnly.chunkRoom {l : Nat} {s t : State} (h : BooksOnly l s t) : t.chunkRoom = s.chunkRoom := by obtain ⟨_, _, rfl⟩ := h.frame; rfl
theorem BooksOnly.slotOpen {l : Nat} {s t : State} (h : BooksOnly l s t) (c : Chunk) : t.slotOpen c = s.slotOpen c := by
  obtain ⟨_, _, rfl⟩ := h.frame; rfl
theorem BooksOnly.setting {l : Nat} {s t : State} (h : BooksOnly l s t) (i j : Nat) : t.setting i j = s.setting i j := by
  obtain ⟨_, _, rfl⟩ := h.frame; rfl

/-- Routes do not read the receive side. -/
theorem BooksOnly.routeOf {l : Nat} {s t : State} (h : BooksOnly l s t) (a : Option Nat) (dst : Nat) :
    t.routeOf a dst false = s.routeOf a dst false := by
  have hrank : ∀ j, (t.link j).rank = (s.link j).rank := fun j => by
    by_cases hj : j = l
    · rw [hj, h.rank]
    · rw [h.other j hj]
  obtain ⟨faults, links, rfl⟩ := h.frame
  have hhigher : ∀ j, ({ s with faults := faults, links := links } : State).peerHigher j = s.peerHigher j := fun j => by
    simp only [State.peerHigher, hrank j]
    rfl
  cases a with
  | none => simp [State.routeOf]
  | some j => simp [State.routeOf, hhigher j]

/-! ## Messages put on a link that is up -/

theorem State.sendOn_up {l : Nat} (m : Msg) (h : (s.link l).state = 4) :
    s.sendOn l m = s.modLink l fun k => { k with fs := k.fs.push (mtypeVc m.mtype) (startUnits (msgBytes m)) } := by
  simp [State.sendOn, h]

theorem State.sendOn_fs {l : Nat} (m : Msg) (h : (s.link l).state = 4) :
    ((s.sendOn l m).link l).fs = (s.link l).fs.push (mtypeVc m.mtype) (startUnits (msgBytes m)) := by
  rw [s.sendOn_up m h, modLink_link]

/-- The CHUNK_ACK with a code for the sender of a chunk, by the first bytes of the chunk's header (R250). -/
def IsChunkAck (code : Code) (h : Bytes) (b : Msg) : Prop := b.mtype = 0x13 ∧ b.body = leBytes 1 (codeNum code) ++ padTo 15 h

/-- The CHUNK_ACK that this hub sends on a link. -/
def State.ackMsg (s : State) (l : Nat) (h : Bytes) (code : Code) : Msg :=
  { mtype := 0x13, src := s.memberField, dst := ((s.link l).peer.map (·.member)).getD 0, part := chunkPart h, pgen := s.pgenOf (chunkPart h),
    body := leBytes 1 (codeNum code) ++ padTo 15 h }

/-- The sender of a chunk in this session of a link that is up is told what became of it. -/
theorem State.ackChunk_link {l sess : Nat} (h : Bytes) (code : Code) (hsess : (s.link l).sess = sess) (hup : (s.link l).state = 4) :
    let t := s.ackChunk (.link l sess h) code
    t.due = s.due ∧ t.chunkRecs = s.chunkRecs ∧ t.early = s.early ∧ t.ctr = s.ctr ∧
      ∃ b, IsChunkAck code h b ∧ (t.link l).fs = (s.link l).fs.push 1 (startUnits (msgBytes b)) := by
  intro t
  have ht : t = s.sendOn l (s.ackMsg l h code) := if_neg (not_not_intro hsess)
  have hfs : (t.link l).fs = _ := ht ▸ s.sendOn_fs (s.ackMsg l h code) hup
  rw [s.sendOn_up _ hup] at ht
  rw [ht] at hfs ⊢
  exact ⟨rfl, rfl, rfl, rfl, s.ackMsg l h code, ⟨rfl, rfl⟩, hfs⟩

/-- So is the sender of one that is refused, which is counted (R177). -/
theorem State.refuseChunk_link {l sess : Nat} (h : Bytes) (code : Code) (hsess : (s.link l).sess = sess) (hup : (s.link l).state = 4) :
    let t := s.refuseChunk (.link l sess h) code
    t.due = s.due ∧ t.early = s.early ∧ (s.sealing = true → t.count 0x2300 3 = capTo 64 (s.count 0x2300 3 + 1)) ∧
      ∃ b, IsChunkAck code h b ∧ (t.link l).fs = (s.link l).fs.push 1 (startUnits (msgBytes b)) := by
  intro t
  obtain ⟨hdue, -, hearly, hctr, hack⟩ := (s.bump 0x2300 3).ackChunk_link h code hsess hup
  refine ⟨hdue, hearly, fun hseal => ?_, hack⟩
  rw [State.count, show t.ctr = _ from hctr, ← State.count, bump_count, if_pos (s.countsNow_of_sealing _ hseal)]

theorem State.holdsRoute_of_nil (m : Msg) (h : s.routeHeld = []) : s.holdsRoute m = false := by
  simp [State.holdsRoute, h]

/-- A chunk has left by a link: its units are queued on VC0, and its record waits for CHUNK_ACK (R250). -/
def State.chunkLeft (s : State) (l : Nat) (c : Chunk) (froms : List ChunkFrom) : State :=
  ({ s with chunkRecs := s.chunkRecs ++ [⟨l, (chunkBytes c).take 15, froms⟩] } : State).modLink l
    fun k => { k with fs := k.fs.push 0 (startUnits (chunkBytes c)) }

section
variable (l : Nat) (c : Chunk) (froms : List ChunkFrom)

@[simp] theorem State.chunkLeft_due : (s.chunkLeft l c froms).due = s.due := rfl
@[simp] theorem State.chunkLeft_comb : (s.chunkLeft l c froms).comb = s.comb := rfl
@[simp] theorem State.chunkLeft_early : (s.chunkLeft l c froms).early = s.early := rfl
@[simp] theorem State.chunkLeft_lanesTurn : (s.chunkLeft l c froms).lanesTurn = s.lanesTurn := rfl
@[simp] theorem State.chunkLeft_chunkRecs :
    (s.chunkLeft l c froms).chunkRecs = s.chunkRecs ++ [⟨l, (chunkBytes c).take 15, froms⟩] := rfl

@[simp] theorem State.chunkLeft_fs : ((s.chunkLeft l c froms).link l).fs = (s.link l).fs.push 0 (startUnits (chunkBytes c)) := by
  simp [State.chunkLeft, State.link]

end

/-- A chunk with a route up leaves at once. -/
theorem State.chunkDepart_up {a : Option Nat} {c : Chunk} {l : Nat} (froms : List ChunkFrom) (hheld : s.routeHeld = [])
    (hroute : s.routeOf a c.home false = some l) (hup : (s.link l).state = 4) : s.chunkDepart a c froms = s.chunkLeft l c froms := by
  simp only [State.chunkDepart, s.holdsRoute_of_nil _ hheld, State.chunkLeave, hroute]
  exact State.sendOn_up _ _ hup

/-- A chunk that does not ask for combining joins no entry and opens none (R179). -/
theorem State.chunkForward_uncombined {a : Option Nat} {c : Chunk} {l : Nat} (f : ChunkFrom) (hcombine : c.combine = false)
    (hroute : s.routeOf a c.home false = some l) : s.chunkForward a c f = s.chunkDepart a c [f] := by
  have hjoins : ∀ x : Chunk, x.joins c = false := fun x => by simp [Chunk.joins, hcombine]
  have hnone : (s.comb.find? fun kv => kv.2.kind = 2 && s.routeOf kv.2.arrived c.home false = some l && kv.2.chunk.joins c &&
      c.fits kv.2.chunk kv.2.froms.length) = none :=
    List.find?_eq_none.2 fun kv _ => by simp [hjoins]
  simp [State.chunkForward, hroute, hnone, hcombine]

/-! ## Chunks held for their slot -/

/-- Where no held chunk's slot is open, none is judged. -/
theorem State.takeEarly_of_closed (h : ∀ x ∈ s.early, s.slotOpen x.chunk = none) : s.takeEarly = s := by
  have hnone : (s.early.find? fun x => (s.slotOpen x.chunk).isSome && s.lanesFor x.chunk.part) = none :=
    List.find?_eq_none.2 fun x hx => by simp [h x hx]
  simp [State.takeEarly, hnone]

theorem State.takeEarly_of_nil (h : s.early = []) : s.takeEarly = s := s.takeEarly_of_closed (by simp [h])

theorem State.slotOpen_of_none {c : Chunk} (h : tblFind s.rslots (slotKey7 c.part c.slot) = none) : s.slotOpen c = none := by
  simp [State.slotOpen, h]

theorem State.chunkArrive_of_closed {c : Chunk} (f : ChunkFrom) (h : s.slotOpen c = none) : s.chunkArrive c f = s.holdChunk c f := by
  simp [State.chunkArrive, h]

/-- With no chunk held, and room in the transit buffer, a chunk is held: in an entry of its own where it asks for combining and
the table has room, and else as it is (R177, R179). Only counters change besides. -/
theorem State.holdChunk_of_nil {c : Chunk} (f : ChunkFrom) (hearly : s.early = []) (hroom : s.transitUsed + (chunkBytes c).length ≤ 2 ^ 20) :
    ∃ ctr, s.holdChunk c f = { s with
      ctr := ctr, early := [⟨c, [f], if c.combine && bit (s.setting 0x2310 1) 2 && s.chunkRoom then some c.accum else none⟩] } := by
  simp only [State.holdChunk, hearly, List.findIdx?_nil, List.nil_append, Nat.not_lt.2 hroom, if_false]
  split
  · exact ⟨s.ctr, rfl⟩
  · split
    · exact ⟨(s.bump 0x2300 8).ctr, by rw [State.bump_early, hearly]; rfl⟩
    · exact ⟨s.ctr, by rw [hearly]; rfl⟩

/-! ## Chunks of a link (R177, R179, R180, R250) -/

theorem exec_chunk_link {l : Nat} (h : hasLink s l) : exec (.chunk (.link l)) s = doneS (s.linkChunk l) := linkRow_of_hasLink s h

theorem linkChunk_of_none {l : Nat} (h : s.takeLinkMsg l 0 = none) : s.linkChunk l = s := by simp [State.linkChunk, h]

theorem linkChunk_of_stopped {l : Nat} {m : Msg} {u : State} (h : s.takeLinkMsg l 0 = some (m, u)) (hc : s.computing = false) :
    s.linkChunk l = s.beginExit := by
  simp [State.linkChunk, h, hc]

theorem linkChunk_of_turn {l : Nat} {m : Msg} {u : State} (h : s.takeLinkMsg l 0 = some (m, u)) (hc : s.computing = true)
    (hturn : s.lanesFor m.part = false) : s.linkChunk l = s.takeEarly := by
  simp [State.linkChunk, h, hc, hturn]

/-- A chunk of a link has left its buffer, and the lanes have served its partition. -/
def State.chunkTaken (u : State) (l : Nat) (m : Msg) : State := (u.freeUnits l 0 m.units 0).lanesServed m.part

/-- Taking a chunk changes the receive side of its link, besides the turn at the lanes. -/
theorem booksOnly_chunkTaken {l : Nat} {m : Msg} {u : State} (h : s.takeLinkMsg l 0 = some (m, u)) :
    BooksOnly l (s.lanesServed m.part) (u.chunkTaken l m) :=
  ((booksOnly_takeLinkMsg s h).trans (booksOnly_freeUnits u l 0 m.units 0)).lanesServed m.part

/-- The operation credit of a link's chunk returns, unless the chunk was held as it is (R253). -/
def State.chunkCredit (s : State) (before l : Nat) : State :=
  if s.early.length = before || (s.early.getLast?.any fun x => x.acc.isSome) then s.freeUnits l 0 0 1 else s

theorem chunkCredit_booksOnly (before l : Nat) : BooksOnly l s (s.chunkCredit before l) := by
  unfold State.chunkCredit
  split
  · exact booksOnly_freeUnits s l 0 0 1
  · exact booksOnly_refl s l

/-- What a link's chunk does once it is taken: it arrives at its home here, or goes on (R177, R180). -/
def State.chunkActs (s u : State) (l : Nat) (m : Msg) : State :=
  let k := chunkOf m.body
  let f : ChunkFrom := .link l (s.link l).sess (m.body.take 15)
  if k.home = s.memberField then (u.chunkTaken l m).chunkArrive k f else (u.chunkTaken l m).chunkForward (some l) k f

/-- A link's chunk in its partition's turn, of a partition that is not being removed here: where no held chunk has an open slot
after it acts, only the books of its link change besides. -/
theorem linkChunk_served {l : Nat} {m : Msg} {u d : State} (h : s.takeLinkMsg l 0 = some (m, u)) (hc : s.computing = true)
    (hturn : s.lanesFor m.part = true) (hfresh : u.msgStale m = false) (hd : s.chunkActs u l m = d)
    (hclosed : ∀ x ∈ d.early, d.slotOpen x.chunk = none) : BooksOnly l d (s.linkChunk l) := by
  have hv := booksOnly_chunkTaken s h
  have hw := chunkCredit_booksOnly d s.early.length l
  have heq : s.linkChunk l = (d.chunkCredit s.early.length l).takeEarly := by
    have hsess : ((u.chunkTaken l m).link l).sess = (s.link l).sess := hv.sess
    have hmember : (u.chunkTaken l m).memberField = s.memberField := hv.memberField
    have hearly : (u.chunkTaken l m).early = s.early := hv.early
    rw [← hd, State.chunkActs, ← hsess, ← hmember, ← hearly]
    simp only [State.linkChunk, h, hc, hturn, hfresh, Bool.not_true, Bool.false_eq_true, if_false]
    rfl
  rw [heq, State.takeEarly_of_closed]
  · exact hw
  · rw [hw.early]
    exact fun x hx => (hw.slotOpen x.chunk).trans (hclosed x hx)

/-- A chunk that ends elsewhere, does not ask for combining and has a route up is sent on at once (R179, R180). -/
theorem linkChunk_forwards {l o : Nat} {m : Msg} {u : State} (h : s.takeLinkMsg l 0 = some (m, u)) (hc : s.computing = true)
    (hturn : s.lanesFor m.part = true) (hfresh : u.msgStale m = false) (hearly : s.early = [])
    (haway : (chunkOf m.body).home ≠ s.memberField) (hcombine : (chunkOf m.body).combine = false) (ho : o ≠ l)
    (hroute : u.routeOf (some l) (chunkOf m.body).home false = some o) (hheld : s.routeHeld = []) (hup : (s.link o).state = 4) :
    let t := s.linkChunk l
    let k := chunkOf m.body
    t.due = s.due ∧ t.chunkRecs = s.chunkRecs ++ [⟨o, (chunkBytes k).take 15, [.link l (s.link l).sess (m.body.take 15)]⟩] ∧
      (t.link o).fs = (s.link o).fs.push 0 (startUnits (chunkBytes k)) ∧ t.lanesTurn = m.part := by
  intro t k
  have hv := booksOnly_chunkTaken s h
  have hlink : (u.chunkTaken l m).link o = s.link o := hv.other o ho
  have hrouted : (u.chunkTaken l m).routeOf (some l) k.home false = some o :=
    (hv.routeOf (some l) k.home).trans (((booksOnly_takeLinkMsg s h).routeOf (some l) k.home).symm.trans hroute)
  have hacts := State.chunkDepart_up _ [.link l (s.link l).sess (m.body.take 15)] (hv.routeHeld.trans hheld) hrouted (by rw [hlink, hup])
  rw [← State.chunkForward_uncombined _ _ hcombine hrouted] at hacts
  have ht : BooksOnly l _ t := linkChunk_served s h hc hturn hfresh ((if_neg haway).trans hacts) (by
    rw [State.chunkLeft_early, hv.early]
    exact fun x hx => absurd (hearly ▸ hx) List.not_mem_nil)
  rw [ht.due, ht.chunkRecs, ht.other o ho, ht.lanesTurn, State.chunkLeft_due, State.chunkLeft_chunkRecs, State.chunkLeft_fs,
    State.chunkLeft_lanesTurn, hlink, hv.chunkRecs]
  exact ⟨hv.due, rfl, rfl, hv.lanesTurn⟩

/-- A chunk whose home is here, with no slot open for it and room in the transit buffer, is held (R177, R179). -/
theorem linkChunk_holds {l : Nat} {m : Msg} {u : State} (h : s.takeLinkMsg l 0 = some (m, u)) (hc : s.computing = true)
    (hturn : s.lanesFor m.part = true) (hfresh : u.msgStale m = false) (hearly : s.early = [])
    (hhome : (chunkOf m.body).home = s.memberField)
    (hslot : tblFind s.rslots (slotKey7 (chunkOf m.body).part (chunkOf m.body).slot) = none)
    (hroom : u.transitUsed + (chunkBytes (chunkOf m.body)).length ≤ 2 ^ 20) :
    let t := s.linkChunk l
    let k := chunkOf m.body
    t.due = s.due ∧ t.early = [⟨k, [.link l (s.link l).sess (m.body.take 15)],
      if k.combine && bit (s.setting 0x2310 1) 2 && s.chunkRoom then some k.accum else none⟩] ∧ t.rslots = s.rslots := by
  intro t k
  have hv := booksOnly_chunkTaken s h
  have hnone : tblFind (u.chunkTaken l m).rslots (slotKey7 k.part k.slot) = none := by
    rw [hv.rslots]
    exact hslot
  rw [(booksOnly_takeLinkMsg s h).transitUsed] at hroom
  obtain ⟨ctr, hhold⟩ := (u.chunkTaken l m).holdChunk_of_nil (.link l (s.link l).sess (m.body.take 15)) (hv.early.trans hearly)
    (hv.transitUsed ▸ hroom)
  rw [hv.setting, hv.chunkRoom] at hhold
  have hacts := ((u.chunkTaken l m).chunkArrive_of_closed (.link l (s.link l).sess (m.body.take 15)) (State.slotOpen_of_none _ hnone)).trans hhold
  have ht : BooksOnly l _ t := linkChunk_served s h hc hturn hfresh ((if_pos hhome).trans hacts) (by
    intro x hx
    rw [List.mem_singleton.1 hx]
    exact State.slotOpen_of_none _ hnone)
  rw [ht.due, ht.early, ht.rslots]
  exact ⟨hv.due, rfl, hv.rslots⟩

/-! ## Chunks of a chiplet (R177, R305) -/

/-- Taking a chiplet's message changes nothing but what the port has received. -/
theorem takeChipMsg_frame {c t : Nat} {m : ChipMsg} {u : State} (h : s.takeChipMsg c t = some (m, u)) :
    (∃ chips, u = { s with chips := chips }) ∧ (u.chip c).bound = (s.chip c).bound := by
  unfold State.takeChipMsg at h
  split at h
  · split at h
    · cases h
      exact ⟨⟨_, rfl⟩, by rw [modChip_chip]⟩
    · cases h
  · cases h

theorem exec_chunk_chip {c : Nat} (hc : c < s.cfg.chipPorts) (h : calm s) : exec (.chunk (.chip c)) s = doneS (s.chipChunk c) :=
  chipRow_of_calm s hc h

theorem chipChunk_of_stopped {c : Nat} {m : ChipMsg} {u : State} (h : s.takeChipMsg c 0 = some (m, u)) (hc : s.computing = false) :
    s.chipChunk c = s.beginExit := by
  simp [State.chipChunk, h, hc]

theorem chipChunk_of_turn {c : Nat} {m : ChipMsg} {u : State} (h : s.takeChipMsg c 0 = some (m, u)) (hc : s.computing = true)
    (hturn : s.lanesFor ((s.chip c).bound.getD 0) = false) : s.chipChunk c = s.takeEarly := by
  simp [State.chipChunk, h, hc, hturn]

theorem State.drainBells_of_nil {c : Nat} (h : (s.chip c).rx = []) : s.drainBells c = s := by
  simp [State.drainBells, h, State.drainBellsN]

/-- A chunk of a chiplet has left the port's buffer, and the lanes have served the port's partition. -/
def State.chipChunkTaken (u : State) (c : Nat) (m : ChipMsg) (p : Nat) : State := (u.freeChipUnits c m.units).lanesServed p

theorem State.chipChunkTaken_bound (u : State) (c : Nat) (m : ChipMsg) (p : Nat) : ((u.chipChunkTaken c m p).chip c).bound = (u.chip c).bound := by
  show ((u.freeChipUnits c m.units).chip c).bound = _
  rw [State.freeChipUnits, modChip_chip]

theorem State.chipChunkTaken_rx (u : State) (c : Nat) (m : ChipMsg) (p : Nat) : ((u.chipChunkTaken c m p).chip c).rx = (u.chip c).rx := by
  show ((u.freeChipUnits c m.units).chip c).rx = _
  rw [State.freeChipUnits, modChip_chip]

theorem State.freeChip_rx (c units : Nat) : ((s.freeChip c units).chip c).rx = (s.chip c).rx := by
  rw [State.freeChip, modChip_chip]

/-- A chiplet's chunk for a partition that is not the port's is dropped; its credits return (R305). -/
theorem chipChunk_of_foreign {c : Nat} {m : ChipMsg} {u : State} (h : s.takeChipMsg c 0 = some (m, u)) (hc : s.computing = true)
    (hturn : s.lanesFor ((s.chip c).bound.getD 0) = true) (hforeign : some (chunkOf m.body).part ≠ (s.chip c).bound)
    (hearly : s.early = []) (hrx : (u.chip c).rx = []) :
    (∃ chips, s.chipChunk c = { s with chips := chips, lanesTurn := (s.chip c).bound.getD 0 }) ∧ ((s.chipChunk c).chip c).rx = [] := by
  obtain ⟨⟨chips, hframe⟩, hbound⟩ := takeChipMsg_frame s h
  let d := (u.chipChunkTaken c m ((s.chip c).bound.getD 0)).freeChip c 0
  have hdrx : (d.chip c).rx = [] := by rw [State.freeChip_rx, State.chipChunkTaken_rx, hrx]
  have hdearly : d.early = [] := by
    simp only [d, State.freeChip, State.chipChunkTaken, State.lanesServed, State.freeChipUnits, State.modChip_early, hframe, hearly]
  have heq : s.chipChunk c = d := by
    have hdropped := State.chipChunkTaken_bound u c m ((s.chip c).bound.getD 0) ▸ hbound.symm ▸ hforeign
    refine Eq.trans ?_ ((congrArg (State.drainBells · c) (d.takeEarly_of_nil hdearly)).trans (d.drainBells_of_nil hdrx))
    rw [State.chipChunkTaken] at hdropped
    simp only [State.chipChunk, h, hc, hturn, Bool.not_true, Bool.false_eq_true, if_false, if_pos hdropped]
    rfl
  refine ⟨?_, heq ▸ hdrx⟩
  rw [heq]
  subst hframe
  exact ⟨_, rfl⟩

/-! ## CHUNK_ACK and the ends of waits (R177, R178, R250, R261) -/

theorem exec_chunkAck_of_none {l : Nat} (h : hasLink s l) (hm : s.takeLinkMsg l 0x13 = none) : exec (.chunkAck l) s = .next s := by
  refine (linkRow_of_hasLink s h).trans ?_
  simp only [hm]
  exact doneS_of_due s (due_of_hasLink h)

theorem exec_chunkAck_of_stale {l : Nat} {m : Msg} {u : State} (h : hasLink s l) (hm : s.takeLinkMsg l 0x13 = some (m, u))
    (hstale : u.msgStale m = true) : exec (.chunkAck l) s = doneS (u.dropMsg l 0x2009 m) := by
  refine (linkRow_of_hasLink s h).trans ?_
  simp only [hm, hstale, if_true]

/-- The record that a CHUNK_ACK names is released, and each sender of what it joined is told (R250). -/
theorem exec_chunkAck_of_record {l : Nat} {m : Msg} {u : State} {r : ChunkRec} (h : hasLink s l) (hm : s.takeLinkMsg l 0x13 = some (m, u))
    (hfresh : u.msgStale m = false) (hr : (s.chunkRecs.find? fun r => r.link = l && r.header = (m.body.drop 1).take 15) = some r) :
    ∃ v, BooksOnly l s v ∧ exec (.chunkAck l) s = doneS (r.froms.foldl (fun s f => s.ackChunk f (codeOf (leNat (m.body.take 1))))
      { v with chunkRecs := s.chunkRecs.erase r }) := by
  have hv := (booksOnly_takeLinkMsg s hm).trans (booksOnly_freeUnits u l 1 m.units 0)
  refine ⟨_, hv, (linkRow_of_hasLink s h).trans ?_⟩
  rw [← hv.chunkRecs] at hr ⊢
  simp only [hm, hfresh, Bool.false_eq_true, if_false, hr]

/-- A stale message is dropped: its units return, it is counted in 0x3206, and the link's last error says why (R261). -/
theorem dropMsg_effect {l e : Nat} (m : Msg) (hl : l < 32) :
    let t := s.dropMsg l e m
    t.due = s.due ∧ t.chunkRecs = s.chunkRecs ∧ (t.link l).lastErr = e ∧
      (s.sealing = true → t.count 0x3206 (l + 1) = capTo 64 (s.count 0x3206 (l + 1) + 1)) := by
  intro t
  have hb := booksOnly_freeUnits s l (mtypeVc m.mtype) m.units (bn (mtypeVc m.mtype = 0))
  refine ⟨by simp [t, State.dropMsg, hb.due], by simp [t, State.dropMsg, hb.chunkRecs], by simp [t, State.dropMsg, State.link], fun hseal => ?_⟩
  have hcounts : (s.freeUnits l (mtypeVc m.mtype) m.units (bn (mtypeVc m.mtype = 0))).countsNow 0x3206 = true :=
    State.countsNow_of_sealing _ _ (by rwa [hb.sealing])
  simp only [t, State.dropMsg]
  rw [error_count _ (by simp only [ekey]; omega) (by simp only [ekey]; omega) (by simp only [ekey]; omega)]
  show State.count (State.bump _ _ _) _ _ = _
  rw [bump_count, if_pos hcounts, hb.count]

theorem exec_earlyArrivalExpiry_of_none {i : Nat} (h : rested s) (hi : s.early[i]? = none) : exec (.earlyArrivalExpiry i) s = .next s := by
  refine (work_of_rested s h).trans ?_
  simp only [hi]
  exact doneS_of_due s h.2

/-- A held chunk that came from a link's session keeps nothing but an operation credit there (R253). -/
theorem State.earlyFreed_booksOnly {x : HeldChunk} {l : Nat} {h : Bytes} (hx : x.froms = [.link l (s.link l).sess h]) :
    BooksOnly l s (s.earlyFreed x) := by
  unfold State.earlyFreed
  split
  · exact booksOnly_refl s l
  · simp only [hx, List.foldl_cons, List.foldl_nil, State.freeHeld, if_true]
    exact booksOnly_freeUnits s l 0 0 1

/-- The early-arrival bound of a held chunk that came by a link: it is held no longer, and refused with WRONG_STATE (R177). -/
theorem exec_earlyArrivalExpiry_of_link {i l : Nat} {x : HeldChunk} {a : Bytes} (h : rested s) (hi : s.early[i]? = some x)
    (hx : x.froms = [.link l (s.link l).sess a]) (hup : (s.link l).state = 4) :
    ∃ t : State, exec (.earlyArrivalExpiry i) s = .next t ∧ t.early = s.early.eraseIdx i ∧
      (s.sealing = true → t.count 0x2300 3 = capTo 64 (s.count 0x2300 3 + 1)) ∧
      ∃ b, IsChunkAck .wrongState a b ∧ (t.link l).fs = (s.link l).fs.push 1 (startUnits (msgBytes b)) := by
  let s1 : State := { s with early := s.early.eraseIdx i }
  have hd : BooksOnly l s1 (s1.earlyFreed x) := s1.earlyFreed_booksOnly hx
  obtain ⟨hdue, hearly, hcount, b, hb, hfs⟩ :=
    (s1.earlyFreed x).refuseChunk_link (sess := (s.link l).sess) a .wrongState hd.sess (hd.state.trans hup)
  have hexec : exec (.earlyArrivalExpiry i) s = doneS ((s1.earlyFreed x).refuseChunk (.link l (s.link l).sess a) .wrongState) := by
    refine (work_of_rested s h).trans ?_
    simp only [hi, hx, List.foldl_cons, List.foldl_nil]
    rfl
  refine ⟨_, hexec.trans (doneS_of_due _ (hdue.trans (hd.due.trans h.2))), hearly.trans hd.early, fun hseal => ?_, b, hb,
    hfs.trans (hd.fs ▸ rfl)⟩
  rw [hcount (by rwa [hd.sealing]), hd.count]
  rfl

theorem exec_slotIdleExpiry_of_none {i : Nat} (h : rested s) (hi : tblFind s.rslots i = none) : exec (.slotIdleExpiry i) s = .next s := by
  refine (work_of_rested s h).trans ?_
  simp only [hi]
  exact doneS_of_due s h.2

theorem exec_slotIdleExpiry_of_some {i : Nat} {k : Slot7} (h : rested s) (hi : tblFind s.rslots i = some k) :
    exec (.slotIdleExpiry i) s = doneS (s.finishCmd k.cmd .timeout 0x5306 0) := by
  refine (work_of_rested s h).trans ?_
  simp only [hi]

/-! ## Combining entries (R179, R185, R186) -/

theorem exec_combiningWindowExpiry_of_none {e : Nat} (h : calm s) (hf : s.fclk = true) (he : tblFind s.comb e = none) :
    exec (.combiningWindowExpiry e) s = .next s := by
  refine (doneS_whenClocked_of_fclk s h hf).trans ?_
  simp only [he]
  exact doneS_of_due s h.2

/-- The window closes a read entry, and no other (R185). -/
theorem exec_combiningWindowExpiry_of_some {e : Nat} {c : Comb} (h : calm s) (hf : s.fclk = true) (he : tblFind s.comb e = some c) :
    exec (.combiningWindowExpiry e) s = .next (if c.kind = 0 then { s with comb := tblPut s.comb e { c with closed := true } } else s) := by
  refine (doneS_whenClocked_of_fclk s h hf).trans ?_
  simp only [he]
  apply doneS_of_due
  split
  · exact h.2
  · exact h.2

theorem exec_combining_of_unclocked {e : Nat} (h : calm s) (hf : s.fclk = false) :
    exec (.combiningWindowExpiry e) s = .next s ∧ exec (.combinedDeparture e) s = .next s :=
  ⟨doneS_whenClocked_of_stopped s h hf, doneS_whenClocked_of_stopped s h hf⟩

theorem exec_combinedDeparture_of_none {e : Nat} (h : calm s) (hf : s.fclk = true) (he : tblFind s.comb e = none) :
    exec (.combinedDeparture e) s = .next s := by
  refine (doneS_whenClocked_of_fclk s h hf).trans ?_
  simp only [he]
  exact doneS_of_due s h.2

/-- A chunk entry with a route departs where its link grants the credits, and stays where it does not (R179). -/
theorem exec_combinedDeparture_of_chunk {e l : Nat} {c : Comb} (h : calm s) (hf : s.fclk = true) (he : tblFind s.comb e = some c)
    (hk : c.kind = 2) (hroute : s.routeOf c.arrived c.chunk.home false = some l) :
    exec (.combinedDeparture e) s = doneS (if (s.link l).grants (chunkUnits (chunkBytes c.chunk)) then s.departChunk e else s) := by
  refine (doneS_whenClocked_of_fclk s h hf).trans ?_
  simp only [he, hk, hroute, if_true]

/-- So does an atomic entry that has not departed yet (R186). -/
theorem exec_combinedDeparture_of_atomic {e l : Nat} {c : Comb} (h : calm s) (hf : s.fclk = true) (he : tblFind s.comb e = some c)
    (hk : c.kind = 1) (hd : c.departed = false) (hroute : s.routeOf c.arrived (homeOf c.addr) false = some l) :
    exec (.combinedDeparture e) s = doneS (if (s.link l).grants 2 then s.departAtomic e c else s) := by
  refine (doneS_whenClocked_of_fclk s h hf).trans ?_
  simp [he, hk, hd, hroute]

/-- The entry of a chunk that none has joined departs as the chunk came. -/
theorem departChunk_up {e l : Nat} {c : Comb} (he : tblFind s.comb e = some c) (hjoined : c.froms.length < 2) (hheld : s.routeHeld = [])
    (hroute : s.routeOf c.arrived c.chunk.home false = some l) (hup : (s.link l).state = 4) :
    s.departChunk e = ({ s with comb := tblDel s.comb e } : State).chunkLeft l c.chunk c.froms := by
  simp only [State.departChunk, he, if_pos hjoined]
  exact State.chunkDepart_up _ c.froms hheld hroute hup

/-- A map of a table's values that keeps the keys maps what is found. -/
theorem tblFind_map {α : Type} {g : Nat × α → Nat × α} (hg : ∀ kv, (g kv).1 = kv.1) (t : Tbl α) (k : Nat) :
    tblFind (t.map g) k = (tblFind t k).map fun v => (g (k, v)).2 := by
  induction t with
  | nil => rfl
  | cons x xs ih =>
    obtain ⟨i, v⟩ := x
    simp only [List.map_cons, tblFind, hg]
    split
    · next hi =>
      subst hi
      rfl
    · exact ih

/-- A message that passes closes read entries and nothing else: an entry of another kind stays as it is (R185). -/
theorem State.closeReads_find {f : Nat → Bool} {e : Nat} {c : Comb} (he : tblFind s.comb e = some c) (hk : c.kind ≠ 0) :
    tblFind (s.closeReads f).comb e = some c := by
  have hkeys : ∀ kv : Nat × Comb, (if kv.2.kind = 0 && f kv.2.addr then (kv.1, { kv.2 with closed := true }) else kv).1 = kv.1 := by
    intro kv
    split
    · rfl
    · rfl
  rw [State.closeReads, tblFind_map hkeys, he]
  simp [hk]

theorem State.passes_find {m : Msg} {e : Nat} {c : Comb} (he : tblFind s.comb e = some c) (hk : c.kind ≠ 0) :
    tblFind (s.passes m).comb e = some c := by
  unfold State.passes
  split
  · exact s.closeReads_find he hk
  · split
    · exact s.closeReads_find he hk
    · exact he

theorem State.passes_frame (m : Msg) : ∃ comb, s.passes m = { s with comb := comb } := by
  unfold State.passes
  split
  · exact ⟨_, rfl⟩
  · split
    · exact ⟨_, rfl⟩
    · exact ⟨_, rfl⟩

/-- An operation that leaves by a link keeps its OTAG, but for the link that it left by. -/
theorem State.leftBy_frame (a : Option Nat) (m : Msg) (l : Nat) :
    ∃ otags, s.leftBy a m l = { s with otags := otags } ∧
      ∀ k o, tblFind s.otags k = some o → ∃ via, tblFind otags k = some { o with via := via } := by
  unfold State.leftBy
  split
  · have hkeys : ∀ kv : Nat × Otag, (if kv.1 = m.otag then (kv.1, { kv.2 with via := some l }) else kv).1 = kv.1 := by
      intro kv
      split
      · rfl
      · rfl
    refine ⟨_, rfl, fun k o ho => ?_⟩
    rw [tblFind_map hkeys, ho]
    by_cases hk : k = m.otag
    · exact ⟨some l, by simp [hk]⟩
    · exact ⟨o.via, by simp [hk]⟩
  · exact ⟨_, rfl, fun k o ho => ⟨o.via, ho⟩⟩

theorem State.releaseHeld_of_nil (h : s.heldOps = []) : s.releaseHeld = s := by
  rw [State.releaseHeld, h]
  show ({ s with heldOps := [] } : State) = s
  rw [← h]

/-- A message of a fixed route that is up is put on its link at once; besides, its OTAG remembers the link. -/
theorem State.sendToward_up {a : Option Nat} {m : Msg} {l : Nat} (hadapt : m.adaptive = false) (hheld : s.routeHeld = [])
    (hroute : s.routeOf a m.dst false = some l) (hup : (s.link l).state = 4) :
    let t := s.sendToward a m
    t.due = s.due ∧ t.comb = s.comb ∧ t.heldOps = s.heldOps ∧
      (∀ k o, tblFind s.otags k = some o → ∃ via, tblFind t.otags k = some { o with via := via }) ∧
      (t.link l).fs = (s.link l).fs.push (mtypeVc m.mtype) (startUnits (msgBytes m)) := by
  intro t
  obtain ⟨otags, hleft, hotags⟩ := s.leftBy_frame a m l
  have ht : t = ({ s with otags := otags } : State).sendOn l m := by
    simp only [t, State.sendToward, s.holdsRoute_of_nil m hheld, hadapt, hroute, hleft]
    rfl
  rw [State.sendOn_up ({ s with otags := otags } : State) m hup] at ht
  rw [ht, modLink_link]
  exact ⟨rfl, rfl, rfl, hotags, rfl⟩

/-- The operation of an atomic entry: one atomic, under an OTAG whose answer is the entry's (R186). -/
def atomicOtag (e : Nat) (c : Comb) : Otag :=
  { acc := .atomic c.op c.wide (c.addr % 128) c.operand, dst := homeOf c.addr, line := c.addr % 2 ^ 48 / 128 * 128, part := c.part,
    ret := c.joiners.any (·.ret), source := srcEntry, cls := clsOfCode c.msg.cls, entry := some e, noInstall := true }

/-- The message of that operation: an ATOMIC of the class of the request that opened the entry. -/
def State.atomicMsg (s : State) (e : Nat) (c : Comb) : Msg := { s.opMsg (atomicOtag e c) (firstGap s.otags 0) with cls := c.msg.cls }

/-- An atomic entry is noted as departed and its operation has its OTAG; what is left is to put the message on its way. -/
def State.atomicDeparted (s : State) (e : Nat) (c : Comb) : State :=
  ({ s with otags := tblPut s.otags (firstGap s.otags 0) (atomicOtag e c), comb := tblPut s.comb e { c with departed := true } } : State).passes
    (s.atomicMsg e c)

theorem atomicDeparted_frame {e : Nat} {c : Comb} (hk : c.kind = 1) :
    ∃ comb, s.atomicDeparted e c = { s with otags := tblPut s.otags (firstGap s.otags 0) (atomicOtag e c), comb := comb } ∧
      tblFind comb e = some { c with departed := true } := by
  let s1 : State := { s with
    otags := tblPut s.otags (firstGap s.otags 0) (atomicOtag e c), comb := tblPut s.comb e { c with departed := true } }
  obtain ⟨comb, hframe⟩ := s1.passes_frame (s.atomicMsg e c)
  have hfind := s1.passes_find (m := s.atomicMsg e c) (tblFind_put_same s.comb e { c with departed := true }) (by simp [hk])
  rw [hframe] at hfind
  exact ⟨comb, hframe, hfind⟩

theorem departAtomic_of_otag {e : Nat} {c : Comb} (hgap : firstGap s.otags 0 < 65536) :
    s.departAtomic e c = ((s.atomicDeparted e c).sendToward c.arrived (s.atomicMsg e c)).releaseHeld := by
  have htake : s.takeOtag (atomicOtag e c) =
      some (firstGap s.otags 0, { s with otags := tblPut s.otags (firstGap s.otags 0) (atomicOtag e c) }) := by
    simp [State.takeOtag, Nat.not_le.2 hgap]
  rw [atomicOtag] at htake
  simp only [State.departAtomic, htake]
  rfl

/-- An atomic entry departs as one operation, under an OTAG of this hub, on a link that is up (R186). -/
theorem departAtomic_up {e l : Nat} {c : Comb} (hk : c.kind = 1) (hgap : firstGap s.otags 0 < 65536)
    (hroute : s.routeOf c.arrived (homeOf c.addr) false = some l) (hup : (s.link l).state = 4) (hheld : s.routeHeld = [])
    (hops : s.heldOps = []) :
    let t := s.departAtomic e c
    t.due = s.due ∧ tblFind t.comb e = some { c with departed := true } ∧
      (∃ via, tblFind t.otags (firstGap s.otags 0) = some { atomicOtag e c with via := via }) ∧
      (t.link l).fs = (s.link l).fs.push 0 (startUnits (msgBytes (s.atomicMsg e c))) := by
  intro t
  obtain ⟨comb, hdeparted, hentry⟩ := atomicDeparted_frame s (e := e) hk
  have ht : t = ((s.atomicDeparted e c).sendToward c.arrived (s.atomicMsg e c)).releaseHeld := departAtomic_of_otag s hgap
  rw [hdeparted] at ht
  obtain ⟨hdue, hcomb, hheldOps, hotags, hfs⟩ := State.sendToward_up
    ({ s with otags := tblPut s.otags (firstGap s.otags 0) (atomicOtag e c), comb := comb } : State) (m := s.atomicMsg e c) rfl hheld hroute hup
  rw [State.releaseHeld_of_nil _ (hheldOps.trans hops)] at ht
  rw [ht]
  exact ⟨hdue, by rw [hcomb, hentry], hotags _ _ (tblFind_put_same _ _ _), hfs⟩

end

/-- Settles O42: the chunks of links and of chiplets, CHUNK_ACK, the ends of waits, and the combining entries, each by its row's
lemmas above. -/
theorem chunksAndCombining : Obligations.ChunksAndCombining := by
  refine ⟨fun s u l m h hm => ⟨fun hc => ?linkStopped, fun hc hturn => ?linkTurn⟩,
    fun s u l o m h hm hc hturn hfresh hearly => ⟨?linkForwards, ?linkHolds⟩,
    fun s l h => ⟨fun hm => ?linkNone, fun hm => exec_chunkAck_of_none s h hm⟩,
    fun s u c m hp h hm => ⟨fun hc => ?chipStopped, fun hc hturn => ?chipTurn, fun hc hturn hforeign hearly hrx => ?chipForeign⟩,
    fun s u l j m r a h hm hfresh hj hup hr hfroms => ?ackReleases, fun s u l m h hm hstale => ?ackStale,
    fun s i h => ⟨fun hi => exec_earlyArrivalExpiry_of_none s h hi, fun x l a hi hx hup => ?earlyExpires,
      fun hi => exec_slotIdleExpiry_of_none s h hi, fun k hi => exec_slotIdleExpiry_of_some s h hi⟩,
    fun s e h hf => exec_combining_of_unclocked s h hf,
    fun s e h hf => ⟨fun he => ⟨exec_combiningWindowExpiry_of_none s h hf he, exec_combinedDeparture_of_none s h hf he⟩,
      fun c he => ⟨exec_combiningWindowExpiry_of_some s h hf he, fun l hk hroute hno => ?chunkWaits, fun l hk hd hroute hno => ?atomicWaits,
        fun l hk hjoined hgrants hheld hroute hup => ?chunkDeparts, fun l hk hd hroute hgrants hup hheld hops hgap => ?atomicDeparts⟩⟩⟩
  case linkStopped =>
    rw [exec_chunk_link s h, linkChunk_of_stopped s hm hc]
    exact doneS_of_due _ (s.beginExit_due.trans (due_of_hasLink h))
  case linkTurn => exact (exec_chunk_link s h).trans (congrArg doneS (linkChunk_of_turn s hm hc hturn))
  case linkForwards =>
    intro haway hcombine ho hroute hheld hup
    obtain ⟨hdue, hrecs, hfs, hlanes⟩ := linkChunk_forwards s hm hc hturn hfresh hearly haway hcombine ho hroute hheld hup
    exact ⟨_, (exec_chunk_link s h).trans (doneS_of_due _ (hdue.trans (due_of_hasLink h))), hrecs, hfs, hlanes⟩
  case linkHolds =>
    intro hhome hslot hroom
    obtain ⟨hdue, hheld, hslots⟩ := linkChunk_holds s hm hc hturn hfresh hearly hhome hslot hroom
    exact ⟨_, (exec_chunk_link s h).trans (doneS_of_due _ (hdue.trans (due_of_hasLink h))), hheld, hslots⟩
  case linkNone =>
    rw [exec_chunk_link s h, linkChunk_of_none s hm]
    exact doneS_of_due s (due_of_hasLink h)
  case chipStopped =>
    rw [exec_chunk_chip s hp h, chipChunk_of_stopped s hm hc]
    exact doneS_of_due _ (s.beginExit_due.trans h.2)
  case chipTurn => exact (exec_chunk_chip s hp h).trans (congrArg doneS (chipChunk_of_turn s hm hc hturn))
  case chipForeign =>
    obtain ⟨⟨chips, hframe⟩, hempty⟩ := chipChunk_of_foreign s hm hc hturn hforeign hearly hrx
    rw [exec_chunk_chip s hp h]
    rw [hframe] at hempty ⊢
    exact ⟨_, doneS_of_due _ h.2, rfl, hempty⟩
  case ackReleases =>
    obtain ⟨v, hv, hexec⟩ := exec_chunkAck_of_record s h hm hfresh hr
    rw [hfroms] at hexec
    have hlink : v.link j = s.link j := hv.other j hj
    obtain ⟨hdue, hrecs, -, -, b, ⟨hb, hbody⟩, hfs⟩ := State.ackChunk_link ({ v with chunkRecs := s.chunkRecs.erase r } : State) a
      (codeOf (leNat (m.body.take 1))) (congrArg Link.sess hlink) ((congrArg Link.state hlink).trans hup)
    exact ⟨_, b, hexec.trans (doneS_of_due _ (hdue.trans (hv.due.trans (due_of_hasLink h)))), hrecs, hb, hbody, hfs.trans (hlink ▸ rfl)⟩
  case ackStale =>
    have hu := booksOnly_takeLinkMsg s hm
    obtain ⟨hdue, hrecs, herr, hcount⟩ := dropMsg_effect u (e := 0x2009) m (lt_of_hasLink h)
    refine ⟨_, (exec_chunkAck_of_stale s h hm hstale).trans (doneS_of_due _ (hdue.trans (hu.due.trans (due_of_hasLink h)))),
      hrecs.trans hu.chunkRecs, fun hseal => ?_, herr⟩
    rw [hcount (by rwa [hu.sealing]), hu.count]
  case earlyExpires =>
    obtain ⟨t, hexec, hearly, hcount, b, ⟨hb, hbody⟩, hfs⟩ := exec_earlyArrivalExpiry_of_link s h hi hx hup
    exact ⟨t, b, hexec, hearly, hcount, hb, hbody, hfs⟩
  case chunkWaits =>
    rw [exec_combinedDeparture_of_chunk s h hf he hk hroute, hno, if_neg Bool.false_ne_true]
    exact doneS_of_due s h.2
  case atomicWaits =>
    rw [exec_combinedDeparture_of_atomic s h hf he hk hd hroute, hno, if_neg Bool.false_ne_true]
    exact doneS_of_due s h.2
  case chunkDeparts =>
    rw [exec_combinedDeparture_of_chunk s h hf he hk hroute, if_pos hgrants, departChunk_up s he hjoined hheld hroute hup]
    exact ⟨_, doneS_of_due _ h.2, State.chunkLeft_comb .., State.chunkLeft_chunkRecs .., State.chunkLeft_fs ..⟩
  case atomicDeparts =>
    obtain ⟨hdue, hentry, ⟨via, hotag⟩, hfs⟩ := departAtomic_up s (e := e) hk hgap hroute hup hheld hops
    rw [exec_combinedDeparture_of_atomic s h hf he hk hd hroute, if_pos hgrants]
    exact ⟨_, _, _, doneS_of_due _ (hdue.trans h.2), hentry, hotag, rfl, rfl, rfl, hfs⟩

end Sys2Proof.Machine
